-- ==== Sys2Proof/Word.lean ====
section
/-!
DEFINITION. The word types of the Gwynris C16 and the register-number types of R153.
-/

namespace Sys2Proof

/-- A 64-bit register, address or descriptor word. -/
abbrev Word := BitVec 64
/-- One byte of memory. -/
abbrev Byte := BitVec 8
/-- A mask register m0–m7 (R27). -/
abbrev MaskV := BitVec 128
/-- A vector register or a 128 B line (R27, R33). -/
abbrev Line := BitVec 1024

/-- The register numbers of R153. -/
abbrev GReg := Fin 32
abbrev VReg := Fin 16
abbrev MReg := Fin 8
abbrev KReg := Fin 8
abbrev QReg := Fin 16
/-- A welt core's pointer register P0–P7 (R291). -/
abbrev PReg := Fin 8

end Sys2Proof
end

