-- ==== Sys2Proof/Syntax.lean ====
section
/-!
DEFINITION. The instructions of Dweyryn (tiles) and Burlia (welt cores) and the events of the device: one constructor of
`Instr` for each row of the opcode table.
-/

namespace Sys2Proof

/-- Format tags of R66, in the order of their values 0–20. -/
inductive Tag
  | raw | i8 | i16 | i32 | i64 | n8 | n16 | n32 | n64 | f64 | f32 | f16 | bf16 | e4m3 | e5m2 | e3m2 | e2m3 | e2m1 | c4 | tern | i4
  deriving DecidableEq, Repr

/-- Rounding modes of R73. -/
inductive Rnd
  | rne | rtz | rup | rdn | sr
  deriving DecidableEq, Repr

/-- An immediate, displacement or offset: the body's own field, or the pair's 32-bit literal (R150). -/
inductive Imm (w : Nat)
  | fld (x : BitVec w)
  | lit (x : BitVec 32)
  deriving DecidableEq, Repr

/-- The loads' ty of R155. -/
inductive LdTy
  | z8 | s8 | z16 | s16 | z32 | s32 | d64
  deriving DecidableEq, Repr

/-- The stores' ty of R155. -/
inductive StTy
  | b8 | b16 | b32 | b64
  deriving DecidableEq, Repr

/-- The atomics' ty of R155. -/
inductive AmoTy
  | w32 | w64 | w128
  deriving DecidableEq, Repr

/-- sem of R156. -/
inductive Sem
  | none | acq | rel | ar
  deriving DecidableEq, Repr

/-- The nested scopes of R125. -/
inductive Scope
  | t | c | s
  deriving DecidableEq, Repr

/-- Barrier levels of R61. -/
inductive Level
  | tile | column | layer | cube | user
  deriving DecidableEq, Repr

/-- Special registers of R158, in the order of their numbers 0–17. -/
inductive SReg
  | stat | tcause | tinfo | taddr | trappc | cyc | wdogt | dord | tallow | cgrp | prio | ctablo | ctabhi | dom | tvec | lfsr | tileid | home
  deriving DecidableEq, Repr

/-- The 4-bit lookahead count of R151. -/
abbrev La := BitVec 4

/-- A router port of R419: ±x, ±y, ±z, sole. -/
inductive Port
  | xp | xm | yp | ym | zp | zm | sole
  deriving DecidableEq, Repr

/-- A strand's key: its address space and strand handle (R26). -/
structure Key where
  asid : BitVec 12
  handle : BitVec 45
  deriving DecidableEq, Repr

/-- A firmware slot (R336): image and version, the signatures over them, and the public keys that the slot is checked with. -/
structure Firmware where
  image : List Byte
  version : Nat
  edKey : List Byte
  edSig : List Byte
  mlKey : List Byte
  mlSig : List Byte
  deriving DecidableEq, Repr

/-- A failed link by one end's port, and the SIDE that the controller chooses at that end and at the other (R421). -/
structure PatchSides where
  port : Port
  side : Fin 4
  farSide : Fin 4
  deriving DecidableEq, Repr

/-- A message in flight, or its answer, and the hops that it has made (R322, R418). -/
structure Hops where
  msg : Nat
  made : Nat
  deriving DecidableEq, Repr

/-- What R431 watches: a layer, whose TEMP its last refresh brought, the sole die and the inlet, with their temperatures. -/
inductive Sensor
  | layer (z : Fin 16)
  | sole (temp : Byte)
  | inlet (temp : Byte)
  deriving DecidableEq, Repr

/-- The opcode table. -/
inductive Instr
  -- 0x00, R171
  | add (d a b : GReg) | sub (d a b : GReg) | and (d a b : GReg) | or (d a b : GReg) | xor (d a b : GReg)
  | andn (d a b : GReg) | orn (d a b : GReg) | sll (d a b : GReg) | srl (d a b : GReg) | sra (d a b : GReg)
  | rol (d a b : GReg) | ror (d a b : GReg) | min (d a b : GReg) | max (d a b : GReg) | minu (d a b : GReg)
  | maxu (d a b : GReg) | slt (d a b : GReg) | sltu (d a b : GReg) | seq (d a b : GReg) | sne (d a b : GReg)
  | mul (d a b : GReg) | mulh (d a b : GReg) | mulhu (d a b : GReg)
  | div (d a b : GReg) (la : La) | divu (d a b : GReg) (la : La) | rem (d a b : GReg) (la : La) | remu (d a b : GReg) (la : La)
  | clz (d a : GReg) | ctz (d a : GReg) | popc (d a : GReg) | rev (d a : GReg)
  -- 0x01–0x0A, R173, R174
  | addi (d a : GReg) (i : Imm 15) | andi (d a : GReg) (i : Imm 15) | ori (d a : GReg) (i : Imm 15) | xori (d a : GReg) (i : Imm 15)
  | slti (d a : GReg) (i : Imm 15) | sltiu (d a : GReg) (i : Imm 15) | slli (d a : GReg) (i : Imm 15) | srli (d a : GReg) (i : Imm 15)
  | srai (d a : GReg) (i : Imm 15) | lhi (d a : GReg) (i : Imm 15)
  -- 0x0B, R175
  | extu (d a : GReg) (pos len1 : BitVec 6) | exts (d a : GReg) (pos len1 : BitVec 6) | ins (d a : GReg) (pos len1 : BitVec 6)
  -- 0x0C, R176
  | csel (d a b c : GReg) | madd (d a b c : GReg) | msub (d a b c : GReg)
  -- 0x0D, 0x0E, R178
  | faddF64 (d a b : GReg) (rm : Rnd) | fsubF64 (d a b : GReg) (rm : Rnd) | fmulF64 (d a b : GReg) (rm : Rnd)
  | fdivF64 (d a b : GReg) (rm : Rnd) (la : La) | fsqrtF64 (d a : GReg) (rm : Rnd) (la : La)
  | fminF64 (d a b : GReg) | fmaxF64 (d a b : GReg)
  | faddF32 (d a b : GReg) (rm : Rnd) | fsubF32 (d a b : GReg) (rm : Rnd) | fmulF32 (d a b : GReg) (rm : Rnd)
  | fdivF32 (d a b : GReg) (rm : Rnd) (la : La) | fsqrtF32 (d a : GReg) (rm : Rnd) (la : La)
  | fminF32 (d a b : GReg) | fmaxF32 (d a b : GReg)
  -- 0x0F, R179
  | fmaddF64 (d a b c : GReg) (rm : Rnd) | fmaddF32 (d a b c : GReg) (rm : Rnd)
  | fmsubF64 (d a b c : GReg) (rm : Rnd) | fmsubF32 (d a b c : GReg) (rm : Rnd)
  -- 0x10, R180
  | feqF64 (d a b : GReg) | fltF64 (d a b : GReg) | fleF64 (d a b : GReg)
  | feqF32 (d a b : GReg) | fltF32 (d a b : GReg) | fleF32 (d a b : GReg)
  | fclassF64 (d a : GReg) | fclassF32 (d a : GReg) | fnegF64 (d a : GReg) | fnegF32 (d a : GReg)
  | fabsF64 (d a : GReg) | fabsF32 (d a : GReg)
  -- 0x11, R181
  | cvt (d a : GReg) (dt st : Tag) (rm : Rnd) (sat : Bool)
  -- 0x18, R257
  | vadd (d a b : VReg) (m : MReg) (rm : Rnd) | vsub (d a b : VReg) (m : MReg) (rm : Rnd) | vmul (d a b : VReg) (m : MReg) (rm : Rnd)
  | vmin (d a b : VReg) (m : MReg) | vmax (d a b : VReg) (m : MReg) | vabs (d a : VReg) (m : MReg) | vneg (d a : VReg) (m : MReg)
  | vaddsat (d a b : VReg) (m : MReg) | vsubsat (d a b : VReg) (m : MReg) | vmulh (d a b : VReg) (m : MReg)
  | vand (d a b : VReg) (m : MReg) | vor (d a b : VReg) (m : MReg) | vxor (d a b : VReg) (m : MReg)
  | vsll (d a b : VReg) (m : MReg) | vsrl (d a b : VReg) (m : MReg) | vsra (d a b : VReg) (m : MReg)
  -- 0x19, R258
  | vfma (d a b : VReg) (m : MReg) (rm : Rnd) | vfms (d a b : VReg) (m : MReg) (rm : Rnd) | vfnma (d a b : VReg) (m : MReg) (rm : Rnd)
  | vdiv (d a b : VReg) (m : MReg) (rm : Rnd) | vsqrt (d a : VReg) (m : MReg) (rm : Rnd)
  -- 0x1A, R259
  | vceq (d : MReg) (a b : VReg) (m : MReg) | vcne (d : MReg) (a b : VReg) (m : MReg) | vclt (d : MReg) (a b : VReg) (m : MReg)
  | vcle (d : MReg) (a b : VReg) (m : MReg) | vcun (d : MReg) (a b : VReg) (m : MReg)
  -- 0x1B, R260
  | mand (d a b : MReg) | mor (d a b : MReg) | mxor (d a b : MReg) | mandn (d a b : MReg) | mnot (d a : MReg)
  -- 0x1C, R261
  | vsel (d a b : VReg) (m : MReg) | vmov (d a : VReg) (m : MReg) | vzero (d : VReg) (m : MReg)
  -- 0x1D, R262, R263
  | vcvt (d a : VReg) (tag : Tag) (m : MReg) (rm : Rnd) (part : BitVec 2)
  | vcvtSat (d a : VReg) (tag : Tag) (m : MReg) (rm : Rnd) (part : BitVec 2)
  | vsettag (d a : VReg) (tag : Tag) | vchk (a : VReg) (tag : Tag)
  -- 0x1E, R264–R266
  | vbq (d a : VReg) (tag : Tag) (rm : Rnd) | vbdq (d a : VReg) (tag : Tag) (rm : Rnd) | vctab (d a : VReg) (tag : Tag) (m : MReg)
  -- 0x1F, R267
  | vperm (d a b : VReg) | vzipl (d a b : VReg) | vziph (d a b : VReg) | vunzip (d a b : VReg) | vrotl (d a : VReg) (b : GReg)
  -- 0x20, R268
  | vbcast (d : VReg) (a : GReg) (tag : Tag) (m : MReg) | vextr (d : GReg) (a : VReg) (b : GReg) | vins (d : VReg) (a b : GReg)
  -- 0x21, R269
  | vredadd (d : GReg) (a : VReg) (m : MReg) (rm : Rnd) | vredmax (d : GReg) (a : VReg) (m : MReg) | vredmin (d : GReg) (a : VReg) (m : MReg)
  -- 0x22, R270
  | vbpack (d a : VReg) | vbunpack (d a : VReg)
  -- 0x23, R283
  | mmaE4m3 (d : QReg) (a b : GReg) (k : KReg) | mmaE5m2 (d : QReg) (a b : GReg) (k : KReg) | mmaE2m1 (d : QReg) (a b : GReg) (k : KReg)
  | mmaI8 (d : QReg) (a b : GReg) (k : KReg) | mmaC4i8 (d : QReg) (a b : GReg) (k : KReg) | mmaTi8 (d : QReg) (a b : GReg) (k : KReg)
  | mmaBf16 (d : QReg) (a b : GReg) (k : KReg) | mmaF16 (d : QReg) (a b : GReg) (k : KReg)
  -- 0x24, R278, R279, R285–R287
  | qacq (d : QReg) (a : GReg) | qrel (d : QReg) | qzero (d : QReg) | qanchor (d : QReg) (a : GReg) | qadd (d a b : QReg)
  | qaddm (d : QReg) (a : GReg) | qsend (d : QReg) (a b : GReg) (k : KReg)
  -- 0x25, R284
  | qread (d : VReg) (a : QReg) (row : BitVec 5) (fmt : Tag) (rm : Rnd) | qreadSat (d : VReg) (a : QReg) (row : BitVec 5) (fmt : Tag) (rm : Rnd)
  -- 0x28–0x2B, R212–R214
  | ld (d a : GReg) (disp : Imm 8) (ty : LdTy) (la : La) | st (d a : GReg) (disp : Imm 8) (ty : StTy)
  | vld (d : VReg) (a : GReg) (disp : Imm 6) (tag : Tag) (la : La) | vst (d : VReg) (a : GReg) (disp : Imm 6) (tag : Tag)
  -- 0x2C–0x2F, R222–R225
  | ldAcq (d a : GReg) (ty : LdTy) (sc : Scope) | stRel (d a : GReg) (ty : StTy) (sc : Scope)
  | amoadd (d a b : GReg) (ty : AmoTy) (sem : Sem) (sc : Scope) | amoand (d a b : GReg) (ty : AmoTy) (sem : Sem) (sc : Scope)
  | amoor (d a b : GReg) (ty : AmoTy) (sem : Sem) (sc : Scope) | amoxor (d a b : GReg) (ty : AmoTy) (sem : Sem) (sc : Scope)
  | amomax (d a b : GReg) (ty : AmoTy) (sem : Sem) (sc : Scope) | amomin (d a b : GReg) (ty : AmoTy) (sem : Sem) (sc : Scope)
  | amomaxu (d a b : GReg) (ty : AmoTy) (sem : Sem) (sc : Scope) | amominu (d a b : GReg) (ty : AmoTy) (sem : Sem) (sc : Scope)
  | amoswap (d a b : GReg) (ty : AmoTy) (sem : Sem) (sc : Scope) | amocas (d a b : GReg) (ty : AmoTy) (sem : Sem) (sc : Scope)
  | amoaddF32 (d a b : GReg) (sem : Sem) (sc : Scope) | amaxF32 (d a b : GReg) (sem : Sem) (sc : Scope) | aminF32 (d a b : GReg) (sem : Sem) (sc : Scope)
  | redNF32 (a b : GReg) | redNAdd (a b : GReg) (ty : AmoTy) | redNMaxF32 (a b : GReg)
  -- 0x30–0x33, R215–R217
  | vldp (d : VReg) (a : GReg) (tag : Tag) (la : La) | vstp (d : VReg) (a : GReg) (tag : Tag)
  | vgath32 (d : VReg) (a : GReg) (b : VReg) (la : La) | vgath64 (d : VReg) (a : GReg) (b : VReg) (la : La)
  | vscat32 (d : VReg) (a : GReg) (b : VReg) | vscat64 (d : VReg) (a : GReg) (b : VReg)
  | ldf (d a : GReg) (la : La) | ldfe (d a : GReg) (la : La) | stf (d a : GReg) | stef (d a : GReg) | fempty (a : GReg) | ftest (d a : GReg)
  -- 0x34, 0x35, R219, R220, R232, R233
  | map (d a b : GReg) | unmap (a : GReg) | sflush (a : GReg)
  | pfl2 (d : KReg) (a b : GReg) | invlR (d a b : GReg) | invlA (a : GReg)
  -- 0x38–0x3A, R182–R187
  | jr (a : GReg) | jalr (d a : GReg) | trap (code : BitVec 5)
  | beq (a b : GReg) (off : Imm 12) | bne (a b : GReg) (off : Imm 12) | blt (a b : GReg) (off : Imm 12) | bge (a b : GReg) (off : Imm 12)
  | bltu (a b : GReg) (off : Imm 12) | bgeu (a b : GReg) (off : Imm 12) | jal (d : GReg) (off : Imm 20)
  -- 0x3C, R188–R192, R247, R289
  | spawn (a : GReg) | depdec (a : GReg) | fpop (d a : GReg) | fpush (a b : GReg) | waitw (d a b : GReg) | wlaunch (d : KReg) (a : GReg) | ctabld (a : GReg)
  -- 0x3D, R197–R203, R228
  | hwait (a : KReg) | htest (d : GReg) (a : KReg) | hwaitany (d a : GReg) | hcancel (a : KReg) | hexport (d : GReg) (a : KReg)
  | himport (d : KReg) (a : GReg) | hstate (d : GReg) (a : KReg) | acopy (d : KReg) (a : GReg) | acopy2 (d : KReg) (a : GReg)
  -- 0x3E, R226, R227, R235–R243
  | fenceRelN (a b : GReg) | fenceAcqN (a b : GReg)
  | bar (lvl : Level) | bvote (d a : GReg) (lvl : Level) | csum (d a : GReg) (lvl : Level) | cmax (d a : GReg) (lvl : Level) | cmin (d a : GReg) (lvl : Level)
  | eycreate (d a : GReg) | eypostMsg0 (a b : GReg) | eypostMsg1 (a b : GReg) | eytake (d a : GReg) | eywait (a : GReg)
  | popenMsg0 (a : GReg) | popenMsg1 (a : GReg) | pput (a b : GReg) | psend (a b : GReg)
  -- 0x3F, R205
  | mfsr (d : GReg) (sr : SReg) | mtsr (sr : SReg) (d : GReg)
  -- 0x35, 0x38 and 0x3E, the rows without operands (R184–R187, R190, R191, R226, R227, R233)
  | invlAll | cnop | yield | exit | rft
  | fenceRelT | fenceRelC | fenceRelS | fenceAcqT | fenceAcqC | fenceAcqS | fenceArT | fenceArC | fenceArS | fenceScT | fenceScC | fenceScS
  | fenceN | fenceI
  -- Burlia, R299
  | nop | halt | b (off : BitVec 20) | loop (off : BitVec 20) | bcz (off : BitVec 20) | bcl (off : BitVec 20)
  | setc (imm : BitVec 23) | ldc (a : PReg) (ia : Bool) | psets (d : PReg) (imm : BitVec 18) | pstride (d : PReg) (imm : BitVec 23)
  | paddi (d : PReg) (imm : BitVec 23) | pld (a b : PReg) (ia : Bool) | pmov (a b : PReg) | post (a : PReg) (ia : Bool)
  | mov64 (a b : PReg) (ia ib : Bool) | azero (fmt : Tag) | ald (a : PReg) (ia : Bool) (fmt : Tag) | ast (a : PReg) (ia : Bool) (fmt : Tag) (rm : Rnd)
  | aadd (a : PReg) (ia : Bool) (fmt : Tag) (rm : Rnd) | amax (a : PReg) (ia : Bool) (fmt : Tag) | amin (a : PReg) (ia : Bool) (fmt : Tag)
  | afma (a b : PReg) (ia ib : Bool) (fmt : Tag) (rm : Rnd) | ascale (a : PReg) (ia : Bool) (rm : Rnd) | acvt (fmt : Tag) (rm : Rnd)
  | addx (a b : PReg) (ia : Bool) (fmt : Tag) (rm : Rnd) | maxx (a b : PReg) (ia : Bool) (fmt : Tag)
  | faddn (a : PReg) (ia : Bool) (rm : Rnd) | fmaxn (a : PReg) (ia : Bool) | faddnx (a b : PReg) (ia : Bool) (rm : Rnd)
  | clamp (a : PReg) | clampTwoBank (a b : PReg) | unclamp | rowzero (a : PReg) (ia : Bool) | rowcopy (a b : PReg) (ia ib : Bool)
  -- Host commands and writes (R333, R334, R377, R332, R335, R145); q names the command queue
  | launch (q : Fin 4) | invlCommandRange (q : Fin 4) | invlCommandAsid (q : Fin 4) | invlCommandAll (q : Fin 4)
  | preempt (q : Fin 4) | resume (q : Fin 4) | migrate (q : Fin 4) | migrationDone
  | hreply (w1 : Word) | logpost (w : Word) | scrasidWrite (tile : BitVec 10) (r : Fin 32) (w : Word)
  | optmapEnable (p : Fin 32) (w : Word) | registerWrite (off : BitVec 30) (w : Word) | configBlockWrite (nearsz pkgid : Byte)
  | hostCxlMemAccess (pa : BitVec 52) (wr : List Byte)
  -- Start-up (R335–R338, R434); fail lists the steps whose run fails, with their codes
  | powerOn (fail : List (Nat × BitVec 16)) | startStepTimeout (step : Fin 11)
  -- Network arrivals; i names the message in flight
  | req (i : Nat) | rsp (i : Nat) | enq (i : Nat) | eyeletMessage (i : Nat) | ringToSlot (tile : BitVec 10) (idx : Fin 64)
  | portPacket (hdr : BitVec 128) (payload : List Byte) (crc : BitVec 32)
  | faultRecord (i : Nat) | recordRingPlace (tile : BitVec 10) | replySlotTake (tile : BitVec 10)
  | replyRetry (i : Nat) | replyDeliver (i : Nat) | replyKill (i : Nat)
  | tileIdle (tile : BitVec 10) | stealProbe (i : Nat) | stealRetry (tile : BitVec 10) | loadFigureReport (tile : BitVec 10)
  | barrierArrival (i : Nat) | barrierCompletion (i : Nat) | counterDecrement (i : Nat) | counterWaiter (i : Nat) | deferredRelease (i : Nat)
  | invlReceive (i : Nat) (receiver : BitVec 11) | invlComplete (i : Nat)
  -- Scheduling (R37, R40, R51, R53, R192, R204)
  | dispatch (tile : BitVec 10) | dequeRefill (tile : BitVec 10) | blockDeactivate (key : Key) | slotRotation (key : Key)
  | watchdogNotice (key : Key) | waitwRecheck (key : Key) | loadDataReturn (key : Key) | deferredDataError (key : Key)
  | registerLineFill (key : Key) | icacheFill (tile : BitVec 10) | stashWriteback (tile : BitVec 10) (line : BitVec 14)
  -- Engine completions
  | mmaComplete (tile : BitVec 10) | qsendComplete (tile : BitVec 10) | acopyComplete (tile : BitVec 10) | prefetchComplete (tile : BitVec 10)
  -- Welt scheduling (R310, R313–R319)
  | weltLaunchReceive (i : Nat) | weltPlace (stack : Fin 12) | weltRestore (stack : Fin 12) | weltCompletion (i : Nat)
  | clampGrant (stack : Fin 12) | clamplong (stack : Fin 12) (core : Fin 16) | refreshDue (stack : Fin 12) (ch : Fin 32) (bank : Fin 36)
  -- Network, memory and thermal conditions (R322, R418–R437)
  | messageTimeout (i : Nat) | holdNotice (i : Nat) | escapeSwitch (h : Hops) | packetDiscard (key : Key)
  | linkLossOfLock (tile : BitVec 10) (port : Port) | linkCrcLimit (tile : BitVec 10) (port : Port)
  | patchInstall (tile : BitVec 10) (p : PatchSides) | opticalPortFailure (p : Fin 32) | bankRetirement (stack : Fin 12) (ch : Fin 32) (bank : Fin 36)
  | tileOutOfService (tile : BitVec 10) | weltCoreFailure (stack : Fin 12) (core : Fin 16)
  | tallowRefresh (layer : Fin 16) (allow : BitVec 16) (temp : Byte) | thermalThreshold (r : Sensor)
  | refreshRateChange (stack : Fin 12) (temp : Byte) | copyPieceWrite (tile : BitVec 10) | saveAreaRestore (key : Key)
  | weltDramAccessComplete (stack : Fin 12) (core : Fin 16) | recoverySlotWrite (fw : Firmware) | powerLoss | flitCrcFailure (h : Hops)
  | hostCxlCacheSnoop (pa : BitVec 52) (wr : List Byte) | requestedPointChange (layer : Fin 16) (mhz : BitVec 16)
  deriving DecidableEq, Repr

/-- An issued pair (R147): two bodies, or a lone instruction with its literal word. -/
inductive Pair
  | two (c a : Instr)
  | lone (i : Instr)
  deriving DecidableEq, Repr

end Sys2Proof
end

