-- ==== Sys2Proof/WellFormed.lean ====
section
/-!
DEFINITION. Which instructions and pairs an encoding of R147–R159, or of R298 and R299, can hold. Register numbers and tags
are in range by type; what is left are the limits that R155–R157, R151 and R299 put on combinations, and the pair rule R149.
-/

namespace Sys2Proof

/-- A shift immediate is 0–63, as field or literal (R173). -/
def Imm.shiftOk : Imm 15 → Bool
  | .fld x => x.toNat < 64
  | .lit x => x.toNat < 64

/-- Whether an immediate came from the literal word. -/
def Imm.isLit {w : Nat} : Imm w → Bool
  | .fld _ => false
  | .lit _ => true

/-- The eight types of cvt (R157, R181). -/
def Tag.isCvt : Tag → Bool
  | .i32 | .n32 | .i64 | .n64 | .f64 | .f32 | .f16 | .bf16 => true
  | _ => false

/-- The formats of vbq and vbdq (R264). -/
def Tag.isBlock : Tag → Bool
  | .e4m3 | .e5m2 | .e3m2 | .e2m3 => true
  | _ => false

/-- The destinations of vctab (R266). -/
def Tag.isCtab : Tag → Bool
  | .i8 | .i16 | .f16 | .bf16 => true
  | _ => false

/-- The formats of qread (R284). -/
def Tag.isQread : Tag → Bool
  | .raw | .i64 | .n64 | .f64 => false
  | _ => true

/-- Burlia's fmt set (R299). -/
def Tag.isWelt : Tag → Bool
  | .f32 | .bf16 | .f16 | .e4m3 | .i32 | .i8 => true
  | _ => false

/-- The floating class of R302. -/
def Tag.isWeltFloat : Tag → Bool
  | .f32 | .bf16 | .f16 | .e4m3 => true
  | _ => false

/-- `azero` and `acvt` take f32 or i32 (R299). -/
def Tag.isWeltAcc : Tag → Bool
  | .f32 | .i32 => true
  | _ => false

def GReg.even (d : GReg) : Bool := d.val % 2 == 0

/-- ty 4 or 6 (R157). -/
def AmoTy.narrow : AmoTy → Bool
  | .w128 => false
  | _ => true

/-- The limits on one instruction. -/
def Instr.wf : Instr → Bool
  | .slli _ _ i | .srli _ _ i | .srai _ _ i => i.shiftOk
  | .extu _ _ p l | .exts _ _ p l | .ins _ _ p l => p.toNat + l.toNat + 1 ≤ 64
  | .cvt _ _ td ts _ _ => td.isCvt && ts.isCvt
  | .vcvt _ _ tag _ _ _ | .vcvtSat _ _ tag _ _ _ => tag != .raw
  | .vbq _ a tag _ => tag.isBlock && a.val ≤ 13
  | .vbdq d _ tag _ => tag.isBlock && d.val ≤ 13
  | .vctab _ _ tag _ => tag.isCtab
  | .qread _ _ _ fmt _ | .qreadSat _ _ _ fmt _ => fmt.isQread
  | .amoadd _ _ _ ty _ _ | .amoand _ _ _ ty _ _ | .amoor _ _ _ ty _ _ | .amoxor _ _ _ ty _ _
  | .amomax _ _ _ ty _ _ | .amomin _ _ _ ty _ _ | .amomaxu _ _ _ ty _ _ | .amominu _ _ _ ty _ _
  | .redNAdd _ _ ty => ty.narrow
  | .amoswap d _ rb ty _ _ | .amocas d _ rb ty _ _ => ty.narrow || (GReg.even d && GReg.even rb)
  | .azero f => f.isWeltAcc
  | .acvt f rm => f.isWeltAcc && rm != .sr
  | .ald _ _ f | .amax _ _ f | .amin _ _ f | .maxx _ _ _ f => f.isWelt
  | .ast _ _ f rm | .aadd _ _ f rm | .addx _ _ _ f rm => f.isWelt && rm != .sr
  | .afma _ _ _ _ f rm => f.isWeltFloat && rm != .sr
  | .ascale _ _ rm | .faddn _ _ rm | .faddnx _ _ _ rm => rm != .sr
  | _ => true

/-- A register that a slot writes, for R149. -/
inductive WReg
  | g (n : GReg) | v (n : VReg) | m (n : MReg) | k (n : KReg) | lfsr
  deriving DecidableEq, Repr

def WReg.ofG (d : GReg) : List WReg := if d.val = 0 then [] else [.g d]
def WReg.ofM (d : MReg) : List WReg := if d.val = 0 then [] else [.m d]
/-- An instruction counts as writing the LFSR exactly when its rm holds SR (R149). -/
def WReg.ofRm (r : Rnd) : List WReg := if r = .sr then [.lfsr] else []

/-- The registers an instruction writes, under R149: implicit writes count, writes of g0 and m0 do not. -/
def Instr.writes : Instr → List WReg
  | .add d _ _ | .sub d _ _ | .and d _ _ | .or d _ _ | .xor d _ _ | .andn d _ _ | .orn d _ _ | .sll d _ _ | .srl d _ _ | .sra d _ _
  | .rol d _ _ | .ror d _ _ | .min d _ _ | .max d _ _ | .minu d _ _ | .maxu d _ _ | .slt d _ _ | .sltu d _ _ | .seq d _ _ | .sne d _ _
  | .mul d _ _ | .mulh d _ _ | .mulhu d _ _ | .div d _ _ _ | .divu d _ _ _ | .rem d _ _ _ | .remu d _ _ _
  | .clz d _ | .ctz d _ | .popc d _ | .rev d _
  | .addi d _ _ | .andi d _ _ | .ori d _ _ | .xori d _ _ | .slti d _ _ | .sltiu d _ _ | .slli d _ _ | .srli d _ _ | .srai d _ _ | .lhi d _ _
  | .extu d _ _ _ | .exts d _ _ _ | .ins d _ _ _ | .csel d _ _ _ | .madd d _ _ _ | .msub d _ _ _
  | .fminF64 d _ _ | .fmaxF64 d _ _ | .fminF32 d _ _ | .fmaxF32 d _ _
  | .feqF64 d _ _ | .fltF64 d _ _ | .fleF64 d _ _ | .feqF32 d _ _ | .fltF32 d _ _ | .fleF32 d _ _
  | .fclassF64 d _ | .fclassF32 d _ | .fnegF64 d _ | .fnegF32 d _ | .fabsF64 d _ | .fabsF32 d _
  | .vextr d _ _ | .vredmax d _ _ | .vredmin d _ _
  | .ld d _ _ _ _ | .ldAcq d _ _ _ | .amoaddF32 d _ _ _ _ | .amaxF32 d _ _ _ _ | .aminF32 d _ _ _ _
  | .amoadd d _ _ _ _ _ | .amoand d _ _ _ _ _ | .amoor d _ _ _ _ _ | .amoxor d _ _ _ _ _
  | .amomax d _ _ _ _ _ | .amomin d _ _ _ _ _ | .amomaxu d _ _ _ _ _ | .amominu d _ _ _ _ _
  | .ldf d _ _ | .ldfe d _ _ | .ftest d _ | .map d _ _ | .jalr d _ | .jal d _ | .fpop d _ | .waitw d _ _
  | .htest d _ | .hwaitany d _ | .hstate d _ | .bvote d _ _ | .csum d _ _ | .cmax d _ _ | .cmin d _ _
  | .eycreate d _ | .eytake d _ | .mfsr d _ => WReg.ofG d
  | .faddF64 d _ _ r | .fsubF64 d _ _ r | .fmulF64 d _ _ r | .fdivF64 d _ _ r _ | .fsqrtF64 d _ r _
  | .faddF32 d _ _ r | .fsubF32 d _ _ r | .fmulF32 d _ _ r | .fdivF32 d _ _ r _ | .fsqrtF32 d _ r _
  | .fmaddF64 d _ _ _ r | .fmaddF32 d _ _ _ r | .fmsubF64 d _ _ _ r | .fmsubF32 d _ _ _ r
  | .cvt d _ _ _ r _ | .vredadd d _ _ r => WReg.ofG d ++ WReg.ofRm r
  | .vadd d _ _ _ r | .vsub d _ _ _ r | .vmul d _ _ _ r | .vfma d _ _ _ r | .vfms d _ _ _ r | .vfnma d _ _ _ r
  | .vdiv d _ _ _ r | .vsqrt d _ _ r | .vcvt d _ _ _ r _ | .vcvtSat d _ _ _ r _ | .vbq d _ _ r
  | .qread d _ _ _ r | .qreadSat d _ _ _ r => .v d :: WReg.ofRm r
  | .vbdq d _ _ r => [.v d, .v (d + 1), .v (d + 2)] ++ WReg.ofRm r
  | .vmin d _ _ _ | .vmax d _ _ _ | .vabs d _ _ | .vneg d _ _ | .vaddsat d _ _ _ | .vsubsat d _ _ _ | .vmulh d _ _ _
  | .vand d _ _ _ | .vor d _ _ _ | .vxor d _ _ _ | .vsll d _ _ _ | .vsrl d _ _ _ | .vsra d _ _ _
  | .vsel d _ _ _ | .vmov d _ _ | .vzero d _ | .vsettag d _ _ | .vctab d _ _ _ | .vperm d _ _ | .vzipl d _ _ | .vziph d _ _ | .vunzip d _ _
  | .vrotl d _ _ | .vbcast d _ _ _ | .vins d _ _ | .vbpack d _ | .vbunpack d _
  | .vld d _ _ _ _ | .vldp d _ _ _ | .vgath32 d _ _ _ | .vgath64 d _ _ _ => [.v d]
  | .vceq d _ _ _ | .vcne d _ _ _ | .vclt d _ _ _ | .vcle d _ _ _ | .vcun d _ _ _
  | .mand d _ _ | .mor d _ _ | .mxor d _ _ | .mandn d _ _ | .mnot d _ => WReg.ofM d
  | .mmaE4m3 _ _ _ k | .mmaE5m2 _ _ _ k | .mmaE2m1 _ _ _ k | .mmaI8 _ _ _ k | .mmaC4i8 _ _ _ k | .mmaTi8 _ _ _ k
  | .mmaBf16 _ _ _ k | .mmaF16 _ _ _ k | .qsend _ _ _ k
  | .pfl2 k _ _ | .wlaunch k _ | .hcancel k | .hexport _ k | .himport k _ | .acopy k _ | .acopy2 k _ => [.k k]
  | .amoswap d _ _ ty _ _ | .amocas d _ _ ty _ _ => WReg.ofG d ++ (if ty = .w128 then WReg.ofG (d + 1) else [])
  | .mtsr .lfsr _ => [.lfsr]
  | _ => []

/-- Where an instruction may stand: Dweyryn's C slot, its A slot, a Burlia word, or the event list. -/
inductive Kind
  | c | a | welt | event
  deriving DecidableEq, Repr

/-- The class of an instruction (R148; Burlia R299; the rest are events). -/
def Instr.kind : Instr → Kind
  | .ld .. | .st .. | .vld .. | .vst .. | .ldAcq .. | .stRel .. | .amoadd .. | .amoand .. | .amoor .. | .amoxor .. | .amomax .. | .amomin ..
  | .amomaxu .. | .amominu .. | .amoswap .. | .amocas .. | .amoaddF32 .. | .amaxF32 .. | .aminF32 .. | .redNF32 .. | .redNAdd .. | .redNMaxF32 ..
  | .vldp .. | .vstp .. | .vgath32 .. | .vgath64 .. | .vscat32 .. | .vscat64 .. | .ldf .. | .ldfe .. | .stf .. | .stef .. | .fempty .. | .ftest ..
  | .map .. | .unmap .. | .sflush .. | .pfl2 .. | .invlR .. | .invlA .. | .invlAll | .cnop | .jr .. | .jalr .. | .yield | .exit | .trap .. | .rft
  | .beq .. | .bne .. | .blt .. | .bge .. | .bltu .. | .bgeu .. | .jal .. | .spawn .. | .depdec .. | .fpop .. | .fpush .. | .waitw .. | .wlaunch ..
  | .ctabld .. | .hwait .. | .htest .. | .hwaitany .. | .hcancel .. | .hexport .. | .himport .. | .hstate .. | .acopy .. | .acopy2 ..
  | .fenceRelT | .fenceRelC | .fenceRelS | .fenceAcqT | .fenceAcqC | .fenceAcqS | .fenceArT | .fenceArC | .fenceArS | .fenceScT | .fenceScC
  | .fenceScS | .fenceRelN .. | .fenceAcqN .. | .fenceN | .bar .. | .bvote .. | .csum .. | .cmax .. | .cmin .. | .eycreate .. | .eypostMsg0 ..
  | .eypostMsg1 .. | .eytake .. | .eywait .. | .popenMsg0 .. | .popenMsg1 .. | .pput .. | .psend .. | .fenceI | .mfsr .. | .mtsr .. => .c
  | .nop | .halt | .b .. | .loop .. | .bcz .. | .bcl .. | .setc .. | .ldc .. | .psets .. | .pstride .. | .paddi .. | .pld .. | .pmov .. | .post ..
  | .mov64 .. | .azero .. | .ald .. | .ast .. | .aadd .. | .amax .. | .amin .. | .afma .. | .ascale .. | .acvt .. | .addx .. | .maxx .. | .faddn ..
  | .fmaxn .. | .faddnx .. | .clamp .. | .clampTwoBank .. | .unclamp | .rowzero .. | .rowcopy .. => .welt
  | .launch .. | .invlCommandRange .. | .invlCommandAsid .. | .invlCommandAll .. | .preempt .. | .resume .. | .migrate .. | .migrationDone
  | .hreply .. | .logpost .. | .scrasidWrite .. | .optmapEnable .. | .registerWrite .. | .configBlockWrite .. | .hostCxlMemAccess .. | .powerOn ..
  | .startStepTimeout .. | .req .. | .rsp .. | .enq .. | .eyeletMessage .. | .ringToSlot .. | .portPacket .. | .faultRecord .. | .recordRingPlace ..
  | .replySlotTake .. | .replyRetry .. | .replyDeliver .. | .replyKill .. | .tileIdle .. | .stealProbe .. | .stealRetry .. | .loadFigureReport ..
  | .barrierArrival .. | .barrierCompletion .. | .counterDecrement .. | .counterWaiter .. | .deferredRelease .. | .invlReceive .. | .invlComplete ..
  | .dispatch .. | .dequeRefill .. | .blockDeactivate .. | .slotRotation .. | .watchdogNotice .. | .waitwRecheck .. | .loadDataReturn ..
  | .deferredDataError .. | .registerLineFill .. | .icacheFill .. | .stashWriteback .. | .mmaComplete .. | .qsendComplete .. | .acopyComplete ..
  | .prefetchComplete .. | .weltLaunchReceive .. | .weltPlace .. | .weltRestore .. | .weltCompletion .. | .clampGrant .. | .clamplong ..
  | .refreshDue .. | .messageTimeout .. | .holdNotice .. | .escapeSwitch .. | .packetDiscard .. | .linkLossOfLock .. | .linkCrcLimit ..
  | .patchInstall .. | .opticalPortFailure .. | .bankRetirement .. | .tileOutOfService .. | .weltCoreFailure .. | .tallowRefresh ..
  | .thermalThreshold .. | .refreshRateChange .. | .copyPieceWrite .. | .saveAreaRestore .. | .weltDramAccessComplete .. | .recoverySlotWrite ..
  | .powerLoss | .flitCrcFailure .. | .hostCxlCacheSnoop .. | .requestedPointChange .. => .event
  | _ => .a

/-- Whether the body uses the pair's literal word (R150). -/
def Instr.usesLit : Instr → Bool
  | .addi _ _ i | .andi _ _ i | .ori _ _ i | .xori _ _ i | .slti _ _ i | .sltiu _ _ i | .slli _ _ i | .srli _ _ i | .srai _ _ i | .lhi _ _ i => i.isLit
  | .ld _ _ i _ _ | .st _ _ i _ => i.isLit
  | .vld _ _ i _ _ | .vst _ _ i _ => i.isLit
  | .beq _ _ i | .bne _ _ i | .blt _ _ i | .bge _ _ i | .bltu _ _ i | .bgeu _ _ i => i.isLit
  | .jal _ i => i.isLit
  | _ => false

/-- Whether the body belongs to a literal-taking format (R150). -/
def Instr.litFormat : Instr → Bool
  | .addi .. | .andi .. | .ori .. | .xori .. | .slti .. | .sltiu .. | .slli .. | .srli .. | .srai .. | .lhi ..
  | .ld .. | .st .. | .vld .. | .vst .. | .beq .. | .bne .. | .blt .. | .bge .. | .bltu .. | .bgeu .. | .jal .. => true
  | _ => false

/-- A pair that some encoding holds (R147–R159). -/
def Pair.wf : Pair → Bool
  | .two c a => c.kind == .c && a.kind == .a && c.wf && a.wf && !c.usesLit && !a.usesLit && c.writes.all (fun r => !a.writes.contains r)
  | .lone i => (i.kind == .c || i.kind == .a) && i.wf && (i.usesLit == i.litFormat)

end Sys2Proof
end

