-- ==== Sys2Proof/Decode.lean ====
section
/-!
DEFINITION. The decoder of Dweyryn pairs (R147–R159, R385, R386) and of Burlia words (R298, R299), and after each its encoder,
written from the same tables. Both decoders are total: a refused pair is named by the check of R159 that it fails.
-/

namespace Sys2Proof

/-! ### Fields and checks -/

/-- A check of R159 that failed; `lit` says that the word recorded is the literal word (check 7, R385). -/
structure Bad where
  check : Nat
  lit : Bool := false
  deriving DecidableEq, Repr

/-- The result of one word's checks. -/
abbrev Parse := Except Bad

def need (n : Nat) (ok : Bool) : Parse Unit := if ok then .ok () else .error { check := n }

/-- An entry of a table of function values; a value past its end is reserved (check 4). -/
def pick {α : Type} (l : List α) (n : Nat) : Parse α :=
  match l[n]? with
  | some x => .ok x
  | none => .error { check := 4 }

/-- A field of 5 bits that the instruction does not use (check 5). -/
def zero5 (x : BitVec 5) : Parse Unit := need 5 (x == 0#5)
def noLa (x : BitVec 4) : Parse Unit := need 6 (x == 0#4)

/-- A format that takes no literal needs word 1 zero when L = 1 (R150). -/
def noLit : Option (BitVec 32) → Parse Unit
  | none => .ok ()
  | some l => if l = 0#32 then .ok () else .error { check := 7, lit := true }

/-- The immediate of a literal-taking format (R150). -/
def immOf {w : Nat} (x : BitVec w) : Option (BitVec 32) → Parse (Imm w)
  | none => .ok (.fld x)
  | some l => if x = 0#w then .ok (.lit l) else .error { check := 7 }

def gOf (x : BitVec 5) : GReg := x.toFin
def vOf (x : BitVec 5) : Parse VReg := if h : x.toNat < 16 then .ok ⟨x.toNat, h⟩ else .error { check := 5 }
def mOf (x : BitVec 5) : Parse MReg := if h : x.toNat < 8 then .ok ⟨x.toNat, h⟩ else .error { check := 5 }
def kOf (x : BitVec 5) : Parse KReg := if h : x.toNat < 8 then .ok ⟨x.toNat, h⟩ else .error { check := 5 }
def qOf (x : BitVec 5) : Parse QReg := if h : x.toNat < 16 then .ok ⟨x.toNat, h⟩ else .error { check := 5 }

/-- The tags by their values (R66). -/
def Tag.table : List Tag :=
  [.raw, .i8, .i16, .i32, .i64, .n8, .n16, .n32, .n64, .f64, .f32, .f16, .bf16, .e4m3, .e5m2, .e3m2, .e2m3, .e2m1, .c4, .tern, .i4]
def tagOf (x : BitVec 5) : Parse Tag := pick Tag.table x.toNat

def Rnd.table : List Rnd := [.rne, .rtz, .rup, .rdn, .sr]
def rndOf (x : BitVec 3) : Parse Rnd := pick Rnd.table x.toNat

def SReg.table : List SReg :=
  [.stat, .tcause, .tinfo, .taddr, .trappc, .cyc, .wdogt, .dord, .tallow, .cgrp, .prio, .ctablo, .ctabhi, .dom, .tvec, .lfsr, .tileid, .home]
def sregOf (x : BitVec 14) : Parse SReg := pick SReg.table x.toNat

def LdTy.table : List LdTy := [.z8, .s8, .z16, .s16, .z32, .s32, .d64]
def ldTyOf (x : BitVec 3) : Parse LdTy := pick LdTy.table x.toNat
def stTyOf (x : BitVec 3) : Parse StTy :=
  match x.toNat with
  | 0 => .ok .b8
  | 2 => .ok .b16
  | 4 => .ok .b32
  | 6 => .ok .b64
  | _ => .error { check := 4 }
def amoTyOf (wide : Bool) (x : BitVec 3) : Parse AmoTy :=
  match x.toNat with
  | 4 => .ok .w32
  | 6 => .ok .w64
  | 7 => if wide then .ok .w128 else .error { check := 4 }
  | _ => .error { check := 4 }
def Sem.table : List Sem := [.none, .acq, .rel, .ar]
def semOf (x : BitVec 2) : Parse Sem := pick Sem.table x.toNat
def Scope.table : List Scope := [.t, .c, .s]
def scopeOf (x : BitVec 2) : Parse Scope := pick Scope.table x.toNat
def Level.table : List Level := [.tile, .column, .layer, .cube, .user]
def levelOf (x : BitVec 5) : Parse Level := pick Level.table x.toNat

/-! ### One body (R154, R157) -/

def majorOf (w : BitVec 32) : Nat := (w.extractLsb' 25 6).toNat
def fD (w : BitVec 32) : BitVec 5 := w.extractLsb' 20 5
def fA (w : BitVec 32) : BitVec 5 := w.extractLsb' 15 5
def fB (w : BitVec 32) : BitVec 5 := w.extractLsb' 10 5
def fC (w : BitVec 32) : BitVec 5 := w.extractLsb' 5 5
def fLa (w : BitVec 32) : BitVec 4 := w.extractLsb' 0 4
/-- fn of OP3. -/
def fFn (w : BitVec 32) : Nat := (w.extractLsb' 4 6).toNat
/-- m, k or ty: bits 9:7. -/
def f97 (w : BitVec 32) : BitVec 3 := w.extractLsb' 7 3
/-- rm of VEC, fn of FLT and MAT, ty of MEM: bits 6:4. -/
def f64 (w : BitVec 32) : BitVec 3 := w.extractLsb' 4 3
/-- rm of FL4, CVT and QRD: bits 4:2. -/
def f42 (w : BitVec 32) : BitVec 3 := w.extractLsb' 2 3
/-- fn of VEC. -/
def f30 (w : BitVec 32) : Nat := (w.extractLsb' 0 4).toNat

/-- 0x00 (R171): fn 0–22, then the divisions with lookahead, then the one-operand forms. -/
def parse00 (lit : Option (BitVec 32)) (w : BitVec 32) : Parse Instr :=
  if fFn w < 23 then do
    let c ← pick [Instr.add, .sub, .and, .or, .xor, .andn, .orn, .sll, .srl, .sra, .rol, .ror, .min, .max, .minu, .maxu, .slt, .sltu, .seq,
      .sne, .mul, .mulh, .mulhu] (fFn w)
    noLa (fLa w); noLit lit
    return c (gOf (fD w)) (gOf (fA w)) (gOf (fB w))
  else if fFn w < 27 then do
    let c ← pick [Instr.div, .divu, .rem, .remu] (fFn w - 23)
    noLit lit
    return c (gOf (fD w)) (gOf (fA w)) (gOf (fB w)) (fLa w)
  else do
    let c ← pick [Instr.clz, .ctz, .popc, .rev] (fFn w - 27)
    zero5 (fB w); noLa (fLa w); noLit lit
    return c (gOf (fD w)) (gOf (fA w))

/-- OPI (R173, R174). -/
def parseOpi (c : GReg → GReg → Imm 15 → Instr) (lit : Option (BitVec 32)) (w : BitVec 32) : Parse Instr := do
  return c (gOf (fD w)) (gOf (fA w)) (← immOf (w.extractLsb' 0 15) lit)

/-- The shifts of 0x07–0x09: bits 14:6 zero and a literal of 0–63 (check 4). -/
def parseShift (c : GReg → GReg → Imm 15 → Instr) (lit : Option (BitVec 32)) (w : BitVec 32) : Parse Instr := do
  need 4 (decide ((w.extractLsb' 0 15).toNat < 64))
  need 4 (match lit with | none => true | some l => decide (l.toNat < 64))
  parseOpi c lit w

/-- BFX, 0x0B (R175). -/
def parse0B (lit : Option (BitVec 32)) (w : BitVec 32) : Parse Instr := do
  let c ← pick [Instr.extu, .exts, .ins] (w.extractLsb' 0 3).toNat
  let pos : BitVec 6 := w.extractLsb' 9 6
  let len1 : BitVec 6 := w.extractLsb' 3 6
  need 5 (decide (pos.toNat + len1.toNat + 1 ≤ 64))
  noLit lit
  return c (gOf (fD w)) (gOf (fA w)) pos len1

/-- OP4, 0x0C (R176). -/
def parse0C (lit : Option (BitVec 32)) (w : BitVec 32) : Parse Instr := do
  let c ← pick [Instr.csel, .madd, .msub] (w.extractLsb' 0 5).toNat
  noLit lit
  return c (gOf (fD w)) (gOf (fA w)) (gOf (fB w)) (gOf (fC w))

/-- FLT, 0x0D and 0x0E (R178); the lists hold the constructors of the width. -/
def parseFlt (arith : List (GReg → GReg → GReg → Rnd → Instr)) (dv : GReg → GReg → GReg → Rnd → La → Instr)
    (sq : GReg → GReg → Rnd → La → Instr) (mm : List (GReg → GReg → GReg → Instr))
    (lit : Option (BitVec 32)) (w : BitVec 32) : Parse Instr := do
  let fn := (f64 w).toNat
  let rm ← rndOf (f97 w)
  if fn < 3 then
    let c ← pick arith fn
    noLa (fLa w); noLit lit
    return c (gOf (fD w)) (gOf (fA w)) (gOf (fB w)) rm
  else if fn = 3 then
    noLit lit
    return dv (gOf (fD w)) (gOf (fA w)) (gOf (fB w)) rm (fLa w)
  else if fn = 4 then
    zero5 (fB w); noLit lit
    return sq (gOf (fD w)) (gOf (fA w)) rm (fLa w)
  else
    let c ← pick mm (fn - 5)
    need 5 (rm == .rne); noLa (fLa w); noLit lit
    return c (gOf (fD w)) (gOf (fA w)) (gOf (fB w))

/-- FL4, 0x0F (R179). -/
def parse0F (lit : Option (BitVec 32)) (w : BitVec 32) : Parse Instr := do
  let rm ← rndOf (f42 w)
  let c ← pick [Instr.fmaddF64, .fmaddF32, .fmsubF64, .fmsubF32] (w.extractLsb' 0 2).toNat
  noLit lit
  return c (gOf (fD w)) (gOf (fA w)) (gOf (fB w)) (gOf (fC w)) rm

/-- 0x10 (R180): three-operand compares, then one-operand forms. -/
def parse10 (lit : Option (BitVec 32)) (w : BitVec 32) : Parse Instr :=
  if fFn w < 6 then do
    let c ← pick [Instr.feqF64, .fltF64, .fleF64, .feqF32, .fltF32, .fleF32] (fFn w)
    noLa (fLa w); noLit lit
    return c (gOf (fD w)) (gOf (fA w)) (gOf (fB w))
  else do
    let c ← pick [Instr.fclassF64, .fclassF32, .fnegF64, .fnegF32, .fabsF64, .fabsF32] (fFn w - 6)
    zero5 (fB w); noLa (fLa w); noLit lit
    return c (gOf (fD w)) (gOf (fA w))

/-- CVT, 0x11 (R181). -/
def parse11 (lit : Option (BitVec 32)) (w : BitVec 32) : Parse Instr := do
  let dt ← tagOf (fB w)
  let st ← tagOf (fC w)
  need 4 (dt.isCvt && st.isCvt)
  let rm ← rndOf (f42 w)
  need 5 (!w.getLsbD 0)
  noLit lit
  return .cvt (gOf (fD w)) (gOf (fA w)) dt st rm (w.getLsbD 1)

/-- A VEC body with vector d, a, b and mask m that does not round (rm = 0). -/
def parseVvv (c : VReg → VReg → VReg → MReg → Instr) (lit : Option (BitVec 32)) (w : BitVec 32) : Parse Instr := do
  let rm ← rndOf (f64 w)
  let d ← vOf (fD w); let a ← vOf (fA w); let b ← vOf (fB w)
  need 5 (rm == .rne); noLit lit
  return c d a b (f97 w).toFin

/-- A VEC body with vector d, a, b and mask m that rounds. -/
def parseVvvR (c : VReg → VReg → VReg → MReg → Rnd → Instr) (lit : Option (BitVec 32)) (w : BitVec 32) : Parse Instr := do
  let rm ← rndOf (f64 w)
  let d ← vOf (fD w); let a ← vOf (fA w); let b ← vOf (fB w)
  noLit lit
  return c d a b (f97 w).toFin rm

/-- A VEC body with vector d and a and mask m; b and rm zero. -/
def parseVv (c : VReg → VReg → MReg → Instr) (lit : Option (BitVec 32)) (w : BitVec 32) : Parse Instr := do
  let rm ← rndOf (f64 w)
  let d ← vOf (fD w); let a ← vOf (fA w)
  zero5 (fB w); need 5 (rm == .rne); noLit lit
  return c d a (f97 w).toFin

/-- 0x18 (R257). -/
def parse18 (lit : Option (BitVec 32)) (w : BitVec 32) : Parse Instr :=
  match f30 w with
  | 0 => parseVvvR .vadd lit w
  | 1 => parseVvvR .vsub lit w
  | 2 => parseVvvR .vmul lit w
  | 3 => parseVvv .vmin lit w
  | 4 => parseVvv .vmax lit w
  | 5 => parseVv .vabs lit w
  | 6 => parseVv .vneg lit w
  | n => do
    let c ← pick [Instr.vaddsat, .vsubsat, .vmulh, .vand, .vor, .vxor, .vsll, .vsrl, .vsra] (n - 7)
    parseVvv c lit w

/-- 0x19 (R258). -/
def parse19 (lit : Option (BitVec 32)) (w : BitVec 32) : Parse Instr :=
  match f30 w with
  | 4 => do
    let rm ← rndOf (f64 w)
    let d ← vOf (fD w); let a ← vOf (fA w)
    zero5 (fB w); noLit lit
    return .vsqrt d a (f97 w).toFin rm
  | n => do
    let c ← pick [Instr.vfma, .vfms, .vfnma, .vdiv] n
    parseVvvR c lit w

/-- 0x1A (R259). -/
def parse1A (lit : Option (BitVec 32)) (w : BitVec 32) : Parse Instr := do
  let c ← pick [Instr.vceq, .vcne, .vclt, .vcle, .vcun] (f30 w)
  let rm ← rndOf (f64 w)
  let d ← mOf (fD w); let a ← vOf (fA w); let b ← vOf (fB w)
  need 5 (rm == .rne); noLit lit
  return c d a b (f97 w).toFin

/-- 0x1B (R260): m = 0 and rm = 0. -/
def parse1B (lit : Option (BitVec 32)) (w : BitVec 32) : Parse Instr := do
  need 4 (decide (f30 w < 5))
  let rm ← rndOf (f64 w)
  let d ← mOf (fD w); let a ← mOf (fA w)
  need 5 (f97 w == 0#3); need 5 (rm == .rne)
  if f30 w = 4 then
    zero5 (fB w); noLit lit
    return .mnot d a
  else
    let b ← mOf (fB w)
    let c ← pick [Instr.mand, .mor, .mxor, .mandn] (f30 w)
    noLit lit
    return c d a b

/-- 0x1C (R261). -/
def parse1C (lit : Option (BitVec 32)) (w : BitVec 32) : Parse Instr :=
  match f30 w with
  | 0 => parseVvv .vsel lit w
  | 1 => parseVv .vmov lit w
  | 2 => do
    let rm ← rndOf (f64 w)
    let d ← vOf (fD w)
    zero5 (fA w); zero5 (fB w); need 5 (rm == .rne); noLit lit
    return .vzero d (f97 w).toFin
  | _ => .error { check := 4 }

/-- 0x1D (R262, R263): the tag stands in the b field. -/
def parse1D (lit : Option (BitVec 32)) (w : BitVec 32) : Parse Instr := do
  need 4 (decide (f30 w < 10))
  let tag ← tagOf (fB w)
  let rm ← rndOf (f64 w)
  if f30 w < 8 then
    need 4 (tag != .raw)
    let d ← vOf (fD w); let a ← vOf (fA w)
    noLit lit
    return (if f30 w < 4 then Instr.vcvt else Instr.vcvtSat) d a tag (f97 w).toFin rm (w.extractLsb' 0 2)
  else
    need 5 (rm == .rne); need 5 (f97 w == 0#3)
    let a ← vOf (fA w)
    if f30 w = 8 then
      let d ← vOf (fD w)
      noLit lit
      return .vsettag d a tag
    else
      zero5 (fD w); noLit lit
      return .vchk a tag

/-- 0x1E (R264–R266). -/
def parse1E (lit : Option (BitVec 32)) (w : BitVec 32) : Parse Instr := do
  need 4 (decide (f30 w < 3))
  let tag ← tagOf (fB w)
  let rm ← rndOf (f64 w)
  need 4 (if f30 w = 2 then tag.isCtab else tag.isBlock)
  let d ← vOf (fD w); let a ← vOf (fA w)
  if f30 w = 0 then
    need 5 (decide (a.val ≤ 13)); need 5 (f97 w == 0#3); noLit lit
    return .vbq d a tag rm
  else if f30 w = 1 then
    need 5 (decide (d.val ≤ 13)); need 5 (f97 w == 0#3); noLit lit
    return .vbdq d a tag rm
  else
    need 5 (rm == .rne); noLit lit
    return .vctab d a tag (f97 w).toFin

/-- 0x1F (R267): m = 0 and rm = 0. -/
def parse1F (lit : Option (BitVec 32)) (w : BitVec 32) : Parse Instr := do
  need 4 (decide (f30 w < 5))
  let rm ← rndOf (f64 w)
  let d ← vOf (fD w); let a ← vOf (fA w)
  need 5 (rm == .rne); need 5 (f97 w == 0#3)
  if f30 w = 4 then
    noLit lit
    return .vrotl d a (gOf (fB w))
  else
    let b ← vOf (fB w)
    let c ← pick [Instr.vperm, .vzipl, .vziph, .vunzip] (f30 w)
    noLit lit
    return c d a b

/-- 0x20 (R268). -/
def parse20 (lit : Option (BitVec 32)) (w : BitVec 32) : Parse Instr := do
  let rm ← rndOf (f64 w)
  match f30 w with
  | 0 =>
    let tag ← tagOf (fB w)
    let d ← vOf (fD w)
    need 5 (rm == .rne); noLit lit
    return .vbcast d (gOf (fA w)) tag (f97 w).toFin
  | 1 =>
    let a ← vOf (fA w)
    need 5 (rm == .rne); need 5 (f97 w == 0#3); noLit lit
    return .vextr (gOf (fD w)) a (gOf (fB w))
  | 2 =>
    let d ← vOf (fD w)
    need 5 (rm == .rne); need 5 (f97 w == 0#3); noLit lit
    return .vins d (gOf (fA w)) (gOf (fB w))
  | _ => .error { check := 4 }

/-- 0x21 (R269): b = 0. -/
def parse21 (lit : Option (BitVec 32)) (w : BitVec 32) : Parse Instr := do
  need 4 (decide (f30 w < 3))
  let rm ← rndOf (f64 w)
  let a ← vOf (fA w)
  zero5 (fB w)
  match f30 w with
  | 0 =>
    noLit lit
    return .vredadd (gOf (fD w)) a (f97 w).toFin rm
  | 1 =>
    need 5 (rm == .rne); noLit lit
    return .vredmax (gOf (fD w)) a (f97 w).toFin
  | _ =>
    need 5 (rm == .rne); noLit lit
    return .vredmin (gOf (fD w)) a (f97 w).toFin

/-- 0x22 (R270): b = 0, rm = 0 and no mask. -/
def parse22 (lit : Option (BitVec 32)) (w : BitVec 32) : Parse Instr := do
  let c ← pick [Instr.vbpack, .vbunpack] (f30 w)
  let rm ← rndOf (f64 w)
  let d ← vOf (fD w); let a ← vOf (fA w)
  zero5 (fB w); need 5 (rm == .rne); need 5 (f97 w == 0#3); noLit lit
  return c d a

/-- 0x23 (R283). -/
def parse23 (lit : Option (BitVec 32)) (w : BitVec 32) : Parse Instr := do
  let c ← pick [Instr.mmaE4m3, .mmaE5m2, .mmaE2m1, .mmaI8, .mmaC4i8, .mmaTi8, .mmaBf16, .mmaF16] (f64 w).toNat
  let d ← qOf (fD w)
  noLa (fLa w); noLit lit
  return c d (gOf (fA w)) (gOf (fB w)) (f97 w).toFin

/-- 0x24 (R278, R279, R285–R287). -/
def parse24 (lit : Option (BitVec 32)) (w : BitVec 32) : Parse Instr := do
  need 4 (decide ((f64 w).toNat < 7))
  let d ← qOf (fD w)
  match (f64 w).toNat with
  | 0 =>
    zero5 (fB w); need 5 (f97 w == 0#3); noLa (fLa w); noLit lit
    return .qacq d (gOf (fA w))
  | 1 =>
    zero5 (fA w); zero5 (fB w); need 5 (f97 w == 0#3); noLa (fLa w); noLit lit
    return .qrel d
  | 2 =>
    zero5 (fA w); zero5 (fB w); need 5 (f97 w == 0#3); noLa (fLa w); noLit lit
    return .qzero d
  | 3 =>
    zero5 (fB w); need 5 (f97 w == 0#3); noLa (fLa w); noLit lit
    return .qanchor d (gOf (fA w))
  | 4 =>
    let a ← qOf (fA w); let b ← qOf (fB w)
    need 5 (f97 w == 0#3); noLa (fLa w); noLit lit
    return .qadd d a b
  | 5 =>
    zero5 (fB w); need 5 (f97 w == 0#3); noLa (fLa w); noLit lit
    return .qaddm d (gOf (fA w))
  | _ =>
    noLa (fLa w); noLit lit
    return .qsend d (gOf (fA w)) (gOf (fB w)) (f97 w).toFin

/-- QRD, 0x25 (R284). -/
def parse25 (lit : Option (BitVec 32)) (w : BitVec 32) : Parse Instr := do
  let c ← pick [Instr.qread, .qreadSat] (w.extractLsb' 0 2).toNat
  let fmt ← tagOf (fC w)
  need 4 fmt.isQread
  let rm ← rndOf (f42 w)
  let d ← vOf (fD w); let a ← qOf (fA w)
  noLit lit
  return c d a (fB w) fmt rm

/-- MEM, 0x28 and 0x29 (R212). -/
def parse28 (lit : Option (BitVec 32)) (w : BitVec 32) : Parse Instr := do
  let ty ← ldTyOf (f64 w)
  return .ld (gOf (fD w)) (gOf (fA w)) (← immOf (w.extractLsb' 7 8) lit) ty (fLa w)
def parse29 (lit : Option (BitVec 32)) (w : BitVec 32) : Parse Instr := do
  let ty ← stTyOf (f64 w)
  noLa (fLa w)
  return .st (gOf (fD w)) (gOf (fA w)) (← immOf (w.extractLsb' 7 8) lit) ty

/-- VMEM, 0x2A, 0x2B, 0x30 and 0x31 (R213–R215). -/
def parse2A (lit : Option (BitVec 32)) (w : BitVec 32) : Parse Instr := do
  let tag ← tagOf (w.extractLsb' 4 5)
  let d ← vOf (fD w)
  return .vld d (gOf (fA w)) (← immOf (w.extractLsb' 9 6) lit) tag (fLa w)
def parse2B (lit : Option (BitVec 32)) (w : BitVec 32) : Parse Instr := do
  let tag ← tagOf (w.extractLsb' 4 5)
  let d ← vOf (fD w)
  noLa (fLa w)
  return .vst d (gOf (fA w)) (← immOf (w.extractLsb' 9 6) lit) tag
def parse30 (lit : Option (BitVec 32)) (w : BitVec 32) : Parse Instr := do
  let tag ← tagOf (w.extractLsb' 4 5)
  let d ← vOf (fD w)
  need 5 (w.extractLsb' 9 6 == 0#6); noLit lit
  return .vldp d (gOf (fA w)) tag (fLa w)
def parse31 (lit : Option (BitVec 32)) (w : BitVec 32) : Parse Instr := do
  let tag ← tagOf (w.extractLsb' 4 5)
  let d ← vOf (fD w)
  need 5 (w.extractLsb' 9 6 == 0#6); noLa (fLa w); noLit lit
  return .vstp d (gOf (fA w)) tag

/-- MEMO, 0x2C (R222). -/
def parse2C (lit : Option (BitVec 32)) (w : BitVec 32) : Parse Instr := do
  let sem ← semOf (w.extractLsb' 5 2)
  let sc ← scopeOf (w.extractLsb' 3 2)
  match (w.extractLsb' 0 3).toNat with
  | 0 =>
    let ty ← ldTyOf (f97 w)
    need 4 (sem == .acq)
    zero5 (fB w); noLit lit
    return .ldAcq (gOf (fD w)) (gOf (fA w)) ty sc
  | 1 =>
    let ty ← stTyOf (f97 w)
    need 4 (sem == .rel)
    zero5 (fB w); noLit lit
    return .stRel (gOf (fD w)) (gOf (fA w)) ty sc
  | _ => .error { check := 4 }

/-- MEMO, 0x2D (R223, R224). -/
def parse2D (lit : Option (BitVec 32)) (w : BitVec 32) : Parse Instr := do
  let sem ← semOf (w.extractLsb' 5 2)
  let sc ← scopeOf (w.extractLsb' 3 2)
  let ty ← amoTyOf false (f97 w)
  let c ← pick [Instr.amoadd, .amoand, .amoor, .amoxor, .amomax, .amomin, .amomaxu, .amominu] (w.extractLsb' 0 3).toNat
  noLit lit
  return c (gOf (fD w)) (gOf (fA w)) (gOf (fB w)) ty sem sc

/-- MEMO, 0x2E (R223, R224); ty 7 needs even d and b (check 5). -/
def parse2E (lit : Option (BitVec 32)) (w : BitVec 32) : Parse Instr := do
  let sem ← semOf (w.extractLsb' 5 2)
  let sc ← scopeOf (w.extractLsb' 3 2)
  let op := (w.extractLsb' 0 3).toNat
  if op < 2 then
    let ty ← amoTyOf true (f97 w)
    let c ← pick [Instr.amoswap, .amocas] op
    need 5 (ty.narrow || (GReg.even (gOf (fD w)) && GReg.even (gOf (fB w))))
    noLit lit
    return c (gOf (fD w)) (gOf (fA w)) (gOf (fB w)) ty sem sc
  else
    let c ← pick [Instr.amoaddF32, .amaxF32, .aminF32] (op - 2)
    need 4 (f97 w == 4#3)
    noLit lit
    return c (gOf (fD w)) (gOf (fA w)) (gOf (fB w)) sem sc

/-- MEMO, 0x2F (R225): sem, sc and d zero. -/
def parse2F (lit : Option (BitVec 32)) (w : BitVec 32) : Parse Instr := do
  need 4 (w.extractLsb' 3 4 == 0#4)
  match (w.extractLsb' 0 3).toNat with
  | 0 =>
    need 4 (f97 w == 4#3)
    zero5 (fD w); noLit lit
    return .redNF32 (gOf (fA w)) (gOf (fB w))
  | 1 =>
    let ty ← amoTyOf false (f97 w)
    zero5 (fD w); noLit lit
    return .redNAdd (gOf (fA w)) (gOf (fB w)) ty
  | 2 =>
    need 4 (f97 w == 4#3)
    zero5 (fD w); noLit lit
    return .redNMaxF32 (gOf (fA w)) (gOf (fB w))
  | _ => .error { check := 4 }

/-- 0x32 (R216). -/
def parse32 (lit : Option (BitVec 32)) (w : BitVec 32) : Parse Instr := do
  need 4 (decide (fFn w < 4))
  let d ← vOf (fD w); let b ← vOf (fB w)
  if fFn w < 2 then
    let c ← pick [Instr.vgath32, .vgath64] (fFn w)
    noLit lit
    return c d (gOf (fA w)) b (fLa w)
  else
    let c ← pick [Instr.vscat32, .vscat64] (fFn w - 2)
    noLa (fLa w); noLit lit
    return c d (gOf (fA w)) b

/-- 0x33 (R217): b = 0. -/
def parse33 (lit : Option (BitVec 32)) (w : BitVec 32) : Parse Instr := do
  need 4 (decide (fFn w < 6))
  zero5 (fB w)
  if fFn w < 2 then
    let c ← pick [Instr.ldf, .ldfe] (fFn w)
    noLit lit
    return c (gOf (fD w)) (gOf (fA w)) (fLa w)
  else if fFn w = 4 then
    zero5 (fD w); noLa (fLa w); noLit lit
    return .fempty (gOf (fA w))
  else
    let c ← pick (if fFn w < 4 then [Instr.stf, .stef] else [Instr.ftest]) (if fFn w < 4 then fFn w - 2 else 0)
    noLa (fLa w); noLit lit
    return c (gOf (fD w)) (gOf (fA w))

/-- An OP3 body of a C-class major without lookahead: the d, a and b fields that are not used are zero. -/
def op3 (d a b : Bool) (lit : Option (BitVec 32)) (w : BitVec 32) : Parse Unit := do
  need 5 ((d || fD w == 0#5) && (a || fA w == 0#5) && (b || fB w == 0#5))
  noLa (fLa w); noLit lit

/-- 0x34 (R219, R220). -/
def parse34 (lit : Option (BitVec 32)) (w : BitVec 32) : Parse Instr :=
  match fFn w with
  | 0 => do op3 true true true lit w; return .map (gOf (fD w)) (gOf (fA w)) (gOf (fB w))
  | 1 => do op3 false true false lit w; return .unmap (gOf (fA w))
  | 2 => do op3 false true false lit w; return .sflush (gOf (fA w))
  | _ => .error { check := 4 }

/-- 0x35 (R232, R233). -/
def parse35 (lit : Option (BitVec 32)) (w : BitVec 32) : Parse Instr :=
  match fFn w with
  | 0 => do
    let d ← kOf (fD w)
    op3 true true true lit w; return .pfl2 d (gOf (fA w)) (gOf (fB w))
  | 1 => do op3 true true true lit w; return .invlR (gOf (fD w)) (gOf (fA w)) (gOf (fB w))
  | 2 => do op3 false true false lit w; return .invlA (gOf (fA w))
  | 3 => do op3 false false false lit w; return .invlAll
  | _ => .error { check := 4 }

/-- 0x38 (R182–R187, R190, R191). -/
def parse38 (lit : Option (BitVec 32)) (w : BitVec 32) : Parse Instr :=
  match fFn w with
  | 0 => do op3 false false false lit w; return .cnop
  | 1 => do op3 false true false lit w; return .jr (gOf (fA w))
  | 2 => do op3 true true false lit w; return .jalr (gOf (fD w)) (gOf (fA w))
  | 3 => do op3 false false false lit w; return .yield
  | 4 => do op3 false false false lit w; return .exit
  | 5 => do op3 false false true lit w; return .trap (fB w)
  | 6 => do op3 false false false lit w; return .rft
  | _ => .error { check := 4 }

/-- BR, 0x39 (R182). -/
def parse39 (lit : Option (BitVec 32)) (w : BitVec 32) : Parse Instr := do
  let c ← pick [Instr.beq, .bne, .blt, .bge, .bltu, .bgeu] (w.extractLsb' 22 3).toNat
  return c (gOf (w.extractLsb' 17 5)) (gOf (w.extractLsb' 12 5)) (← immOf (w.extractLsb' 0 12) lit)

/-- JMP, 0x3A (R183). -/
def parse3A (lit : Option (BitVec 32)) (w : BitVec 32) : Parse Instr := do
  return .jal (gOf (fD w)) (← immOf (w.extractLsb' 0 20) lit)

/-- 0x3C (R188–R192, R206, R247). -/
def parse3C (lit : Option (BitVec 32)) (w : BitVec 32) : Parse Instr :=
  match fFn w with
  | 0 => do op3 false true false lit w; return .spawn (gOf (fA w))
  | 1 => do op3 false true false lit w; return .depdec (gOf (fA w))
  | 2 => do op3 true true false lit w; return .fpop (gOf (fD w)) (gOf (fA w))
  | 3 => do op3 false true true lit w; return .fpush (gOf (fA w)) (gOf (fB w))
  | 4 => do op3 true true true lit w; return .waitw (gOf (fD w)) (gOf (fA w)) (gOf (fB w))
  | 5 => do
    let d ← kOf (fD w)
    op3 true true false lit w; return .wlaunch d (gOf (fA w))
  | 6 => do op3 false true false lit w; return .ctabld (gOf (fA w))
  | _ => .error { check := 4 }

/-- 0x3D (R197–R203, R228). -/
def parse3D (lit : Option (BitVec 32)) (w : BitVec 32) : Parse Instr :=
  match fFn w with
  | 0 => do
    let a ← kOf (fA w)
    op3 false true false lit w; return .hwait a
  | 1 => do
    let a ← kOf (fA w)
    op3 true true false lit w; return .htest (gOf (fD w)) a
  | 2 => do op3 true true false lit w; return .hwaitany (gOf (fD w)) (gOf (fA w))
  | 3 => do
    let a ← kOf (fA w)
    op3 false true false lit w; return .hcancel a
  | 4 => do
    let a ← kOf (fA w)
    op3 true true false lit w; return .hexport (gOf (fD w)) a
  | 5 => do
    let d ← kOf (fD w)
    op3 true true false lit w; return .himport d (gOf (fA w))
  | 6 => do
    let a ← kOf (fA w)
    op3 true true false lit w; return .hstate (gOf (fD w)) a
  | 7 => do
    let d ← kOf (fD w)
    op3 true true false lit w; return .acopy d (gOf (fA w))
  | 8 => do
    let d ← kOf (fD w)
    op3 true true false lit w; return .acopy2 d (gOf (fA w))
  | _ => .error { check := 4 }

/-- 0x3E (R226, R227, R235–R243). -/
def parse3E (lit : Option (BitVec 32)) (w : BitVec 32) : Parse Instr :=
  let d := gOf (fD w)
  let a := gOf (fA w)
  let b := gOf (fB w)
  if fFn w < 12 then do
    let c ← pick [Instr.fenceRelT, .fenceRelC, .fenceRelS, .fenceAcqT, .fenceAcqC, .fenceAcqS, .fenceArT, .fenceArC, .fenceArS, .fenceScT,
      .fenceScC, .fenceScS] (fFn w)
    op3 false false false lit w; return c
  else match fFn w with
  | 12 => do op3 false true true lit w; return .fenceRelN a b
  | 13 => do op3 false true true lit w; return .fenceAcqN a b
  | 14 => do op3 false false false lit w; return .fenceN
  | 15 => do let l ← levelOf (fB w); op3 false false true lit w; return .bar l
  | 16 => do let l ← levelOf (fB w); op3 true true true lit w; return .bvote d a l
  | 17 => do let l ← levelOf (fB w); op3 true true true lit w; return .csum d a l
  | 18 => do let l ← levelOf (fB w); op3 true true true lit w; return .cmax d a l
  | 19 => do let l ← levelOf (fB w); op3 true true true lit w; return .cmin d a l
  | 20 => do op3 true true false lit w; return .eycreate d a
  | 21 => do op3 false true true lit w; return .eypostMsg0 a b
  | 22 => do op3 false true true lit w; return .eypostMsg1 a b
  | 23 => do op3 true true false lit w; return .eytake d a
  | 24 => do op3 false true false lit w; return .eywait a
  | 25 => do op3 false true false lit w; return .popenMsg0 a
  | 26 => do op3 false true false lit w; return .popenMsg1 a
  | 27 => do op3 false true true lit w; return .pput a b
  | 28 => do op3 false true true lit w; return .psend a b
  | 29 => do op3 false false false lit w; return .fenceI
  | _ => .error { check := 4 }

/-- SYS, 0x3F (R205). -/
def parse3F (lit : Option (BitVec 32)) (w : BitVec 32) : Parse Instr := do
  let d := gOf (w.extractLsb' 14 5)
  match (w.extractLsb' 19 6).toNat with
  | 0 => do
    let r ← sregOf (w.extractLsb' 0 14)
    noLit lit
    return .mfsr d r
  | 1 => do
    let r ← sregOf (w.extractLsb' 0 14)
    noLit lit
    return .mtsr r d
  | _ => .error { check := 4 }

/-- The opcode map (R157): checks 2 and 4 to 7 of one word; `lit` is word 1 of a lone instruction. -/
def parseBody (lit : Option (BitVec 32)) (w : BitVec 32) : Parse Instr :=
  match majorOf w with
  | 0x00 => parse00 lit w
  | 0x01 => parseOpi .addi lit w
  | 0x02 => parseOpi .andi lit w
  | 0x03 => parseOpi .ori lit w
  | 0x04 => parseOpi .xori lit w
  | 0x05 => parseOpi .slti lit w
  | 0x06 => parseOpi .sltiu lit w
  | 0x07 => parseShift .slli lit w
  | 0x08 => parseShift .srli lit w
  | 0x09 => parseShift .srai lit w
  | 0x0A => parseOpi .lhi lit w
  | 0x0B => parse0B lit w
  | 0x0C => parse0C lit w
  | 0x0D => parseFlt [.faddF64, .fsubF64, .fmulF64] .fdivF64 .fsqrtF64 [.fminF64, .fmaxF64] lit w
  | 0x0E => parseFlt [.faddF32, .fsubF32, .fmulF32] .fdivF32 .fsqrtF32 [.fminF32, .fmaxF32] lit w
  | 0x0F => parse0F lit w
  | 0x10 => parse10 lit w
  | 0x11 => parse11 lit w
  | 0x18 => parse18 lit w
  | 0x19 => parse19 lit w
  | 0x1A => parse1A lit w
  | 0x1B => parse1B lit w
  | 0x1C => parse1C lit w
  | 0x1D => parse1D lit w
  | 0x1E => parse1E lit w
  | 0x1F => parse1F lit w
  | 0x20 => parse20 lit w
  | 0x21 => parse21 lit w
  | 0x22 => parse22 lit w
  | 0x23 => parse23 lit w
  | 0x24 => parse24 lit w
  | 0x25 => parse25 lit w
  | 0x28 => parse28 lit w
  | 0x29 => parse29 lit w
  | 0x2A => parse2A lit w
  | 0x2B => parse2B lit w
  | 0x2C => parse2C lit w
  | 0x2D => parse2D lit w
  | 0x2E => parse2E lit w
  | 0x2F => parse2F lit w
  | 0x30 => parse30 lit w
  | 0x31 => parse31 lit w
  | 0x32 => parse32 lit w
  | 0x33 => parse33 lit w
  | 0x34 => parse34 lit w
  | 0x35 => parse35 lit w
  | 0x38 => parse38 lit w
  | 0x39 => parse39 lit w
  | 0x3A => parse3A lit w
  | 0x3C => parse3C lit w
  | 0x3D => parse3D lit w
  | 0x3E => parse3E lit w
  | 0x3F => parse3F lit w
  | _ => .error { check := 2 }

/-! ### Pairs (R147–R150, R159, R385) -/

/-- An illegal encoding: the check of R159 and the word that R385 records. -/
structure Illegal where
  check : Nat
  word1 : Bool
  deriving DecidableEq, Repr

/-- ILLENC's TINFO (R385). -/
def Illegal.tinfo (e : Illegal) (w0 w1 : BitVec 32) : Word :=
  (if e.word1 then w1 else w0) ++ 0#27 ++ BitVec.ofBool e.word1 ++ BitVec.ofNat 4 e.check

def isReservedMajor (w : BitVec 32) : Bool :=
  let m := majorOf w
  (0x12 ≤ m && m ≤ 0x17) || m == 0x26 || m == 0x27 || m == 0x36 || m == 0x37 || m == 0x3B

/-- Majors 0x28–0x3F are C-class (R148). -/
def isCMajor (w : BitVec 32) : Bool := 0x28 ≤ majorOf w

/-- Decoding of one pair: the checks of R159 in order. -/
def decodePair (w0 w1 : BitVec 32) : Except Illegal Pair :=
  if w0.getLsbD 31 then
    match parseBody (some w1) w0 with
    | .ok i => .ok (.lone i)
    | .error e => .error { check := e.check, word1 := e.lit }
  else if w1.getLsbD 31 then .error { check := 1, word1 := true }
  else if isReservedMajor w0 then .error { check := 2, word1 := false }
  else if isReservedMajor w1 then .error { check := 2, word1 := true }
  else if !isCMajor w0 then .error { check := 3, word1 := false }
  else if isCMajor w1 then .error { check := 3, word1 := true }
  else
    match parseBody none w0, parseBody none w1 with
    | .ok c, .ok a =>
      if c.writes.all (fun r => !a.writes.contains r) then .ok (.two c a) else .error { check := 8, word1 := true }
    | .error e, .ok _ => .error { check := e.check, word1 := false }
    | .ok _, .error f => .error { check := f.check, word1 := true }
    | .error e, .error f =>
      if e.check ≤ f.check then .error { check := e.check, word1 := false } else .error { check := f.check, word1 := true }

/-! ### The encoder of bodies and pairs (R154–R158) -/

def g5 (r : GReg) : BitVec 5 := BitVec.ofFin r
def v5 (r : VReg) : BitVec 5 := BitVec.ofNat 5 r.val
def m5 (r : MReg) : BitVec 5 := BitVec.ofNat 5 r.val
def k5 (r : KReg) : BitVec 5 := BitVec.ofNat 5 r.val
def q5 (r : QReg) : BitVec 5 := BitVec.ofNat 5 r.val
def m3 (r : MReg) : BitVec 3 := BitVec.ofFin r
def p3 (r : PReg) : BitVec 3 := BitVec.ofFin r

def Tag.code : Tag → BitVec 5
  | .raw => 0 | .i8 => 1 | .i16 => 2 | .i32 => 3 | .i64 => 4 | .n8 => 5 | .n16 => 6 | .n32 => 7 | .n64 => 8 | .f64 => 9 | .f32 => 10
  | .f16 => 11 | .bf16 => 12 | .e4m3 => 13 | .e5m2 => 14 | .e3m2 => 15 | .e2m3 => 16 | .e2m1 => 17 | .c4 => 18 | .tern => 19 | .i4 => 20
def Rnd.code : Rnd → BitVec 3
  | .rne => 0 | .rtz => 1 | .rup => 2 | .rdn => 3 | .sr => 4
def LdTy.code : LdTy → BitVec 3
  | .z8 => 0 | .s8 => 1 | .z16 => 2 | .s16 => 3 | .z32 => 4 | .s32 => 5 | .d64 => 6
def StTy.code : StTy → BitVec 3
  | .b8 => 0 | .b16 => 2 | .b32 => 4 | .b64 => 6
def AmoTy.code : AmoTy → BitVec 3
  | .w32 => 4 | .w64 => 6 | .w128 => 7
def Sem.code : Sem → BitVec 2
  | .none => 0 | .acq => 1 | .rel => 2 | .ar => 3
def Scope.code : Scope → BitVec 2
  | .t => 0 | .c => 1 | .s => 2
def Level.code : Level → BitVec 5
  | .tile => 0 | .column => 1 | .layer => 2 | .cube => 3 | .user => 4
def SReg.code : SReg → BitVec 14
  | .stat => 0 | .tcause => 1 | .tinfo => 2 | .taddr => 3 | .trappc => 4 | .cyc => 5 | .wdogt => 6 | .dord => 7 | .tallow => 8 | .cgrp => 9
  | .prio => 10 | .ctablo => 11 | .ctabhi => 12 | .dom => 13 | .tvec => 14 | .lfsr => 15 | .tileid => 16 | .home => 17

/-- The field of an immediate: zero where the literal word holds it. -/
def Imm.field {w : Nat} : Imm w → BitVec w
  | .fld x => x
  | .lit _ => 0

def eOp3 (major : BitVec 6) (d a b : BitVec 5) (fn : BitVec 6) (la : BitVec 4) : BitVec 31 := major ++ d ++ a ++ b ++ fn ++ la
def eOp4 (major : BitVec 6) (d a b c : BitVec 5) (fn : BitVec 5) : BitVec 31 := major ++ d ++ a ++ b ++ c ++ fn
def eOpi (major : BitVec 6) (d a : GReg) (i : Imm 15) : BitVec 31 := major ++ g5 d ++ g5 a ++ i.field
def eBfx (d a : GReg) (pos len1 : BitVec 6) (op : BitVec 3) : BitVec 31 := 0x0B#6 ++ g5 d ++ g5 a ++ pos ++ len1 ++ op
def eFlt (major : BitVec 6) (d a b : BitVec 5) (rm : BitVec 3) (fn : BitVec 3) (la : BitVec 4) : BitVec 31 :=
  major ++ d ++ a ++ b ++ rm ++ fn ++ la
def eFl4 (d a b c : GReg) (rm : Rnd) (fn : BitVec 2) : BitVec 31 := 0x0F#6 ++ g5 d ++ g5 a ++ g5 b ++ g5 c ++ rm.code ++ fn
def eVec (major : BitVec 6) (d a b : BitVec 5) (m rm : BitVec 3) (fn : BitVec 4) : BitVec 31 := major ++ d ++ a ++ b ++ m ++ rm ++ fn
def eQrd (d : VReg) (a : QReg) (row : BitVec 5) (fmt : Tag) (rm : Rnd) (fn : BitVec 2) : BitVec 31 :=
  0x25#6 ++ v5 d ++ q5 a ++ row ++ fmt.code ++ rm.code ++ fn
def eMat (major : BitVec 6) (d a b : BitVec 5) (k fn : BitVec 3) : BitVec 31 := major ++ d ++ a ++ b ++ k ++ fn ++ 0#4
def eMem (major : BitVec 6) (d a : GReg) (disp : Imm 8) (ty : BitVec 3) (la : BitVec 4) : BitVec 31 :=
  major ++ g5 d ++ g5 a ++ disp.field ++ ty ++ la
def eVmem (major : BitVec 6) (d : VReg) (a : GReg) (disp : BitVec 6) (tag : Tag) (la : BitVec 4) : BitVec 31 :=
  major ++ v5 d ++ g5 a ++ disp ++ tag.code ++ la
def eMemo (major : BitVec 6) (d a b : BitVec 5) (ty : BitVec 3) (sem sc : BitVec 2) (op : BitVec 3) : BitVec 31 :=
  major ++ d ++ a ++ b ++ ty ++ sem ++ sc ++ op
def eBr (cc : BitVec 3) (a b : GReg) (off : Imm 12) : BitVec 31 := 0x39#6 ++ cc ++ g5 a ++ g5 b ++ off.field
def eSys (fn : BitVec 6) (d : GReg) (r : SReg) : BitVec 31 := 0x3F#6 ++ fn ++ g5 d ++ r.code

/-- The 31-bit body of a Dweyryn instruction; the other constructors have none. -/
def encodeBody : Instr → Option (BitVec 31)
  | .add d a b => some (eOp3 0x00 (g5 d) (g5 a) (g5 b) 0 0)
  | .sub d a b => some (eOp3 0x00 (g5 d) (g5 a) (g5 b) 1 0)
  | .and d a b => some (eOp3 0x00 (g5 d) (g5 a) (g5 b) 2 0)
  | .or d a b => some (eOp3 0x00 (g5 d) (g5 a) (g5 b) 3 0)
  | .xor d a b => some (eOp3 0x00 (g5 d) (g5 a) (g5 b) 4 0)
  | .andn d a b => some (eOp3 0x00 (g5 d) (g5 a) (g5 b) 5 0)
  | .orn d a b => some (eOp3 0x00 (g5 d) (g5 a) (g5 b) 6 0)
  | .sll d a b => some (eOp3 0x00 (g5 d) (g5 a) (g5 b) 7 0)
  | .srl d a b => some (eOp3 0x00 (g5 d) (g5 a) (g5 b) 8 0)
  | .sra d a b => some (eOp3 0x00 (g5 d) (g5 a) (g5 b) 9 0)
  | .rol d a b => some (eOp3 0x00 (g5 d) (g5 a) (g5 b) 10 0)
  | .ror d a b => some (eOp3 0x00 (g5 d) (g5 a) (g5 b) 11 0)
  | .min d a b => some (eOp3 0x00 (g5 d) (g5 a) (g5 b) 12 0)
  | .max d a b => some (eOp3 0x00 (g5 d) (g5 a) (g5 b) 13 0)
  | .minu d a b => some (eOp3 0x00 (g5 d) (g5 a) (g5 b) 14 0)
  | .maxu d a b => some (eOp3 0x00 (g5 d) (g5 a) (g5 b) 15 0)
  | .slt d a b => some (eOp3 0x00 (g5 d) (g5 a) (g5 b) 16 0)
  | .sltu d a b => some (eOp3 0x00 (g5 d) (g5 a) (g5 b) 17 0)
  | .seq d a b => some (eOp3 0x00 (g5 d) (g5 a) (g5 b) 18 0)
  | .sne d a b => some (eOp3 0x00 (g5 d) (g5 a) (g5 b) 19 0)
  | .mul d a b => some (eOp3 0x00 (g5 d) (g5 a) (g5 b) 20 0)
  | .mulh d a b => some (eOp3 0x00 (g5 d) (g5 a) (g5 b) 21 0)
  | .mulhu d a b => some (eOp3 0x00 (g5 d) (g5 a) (g5 b) 22 0)
  | .div d a b la => some (eOp3 0x00 (g5 d) (g5 a) (g5 b) 23 la)
  | .divu d a b la => some (eOp3 0x00 (g5 d) (g5 a) (g5 b) 24 la)
  | .rem d a b la => some (eOp3 0x00 (g5 d) (g5 a) (g5 b) 25 la)
  | .remu d a b la => some (eOp3 0x00 (g5 d) (g5 a) (g5 b) 26 la)
  | .clz d a => some (eOp3 0x00 (g5 d) (g5 a) 0 27 0)
  | .ctz d a => some (eOp3 0x00 (g5 d) (g5 a) 0 28 0)
  | .popc d a => some (eOp3 0x00 (g5 d) (g5 a) 0 29 0)
  | .rev d a => some (eOp3 0x00 (g5 d) (g5 a) 0 30 0)
  | .addi d a i => some (eOpi 0x01 d a i)
  | .andi d a i => some (eOpi 0x02 d a i)
  | .ori d a i => some (eOpi 0x03 d a i)
  | .xori d a i => some (eOpi 0x04 d a i)
  | .slti d a i => some (eOpi 0x05 d a i)
  | .sltiu d a i => some (eOpi 0x06 d a i)
  | .slli d a i => some (eOpi 0x07 d a i)
  | .srli d a i => some (eOpi 0x08 d a i)
  | .srai d a i => some (eOpi 0x09 d a i)
  | .lhi d a i => some (eOpi 0x0A d a i)
  | .extu d a p l => some (eBfx d a p l 0)
  | .exts d a p l => some (eBfx d a p l 1)
  | .ins d a p l => some (eBfx d a p l 2)
  | .csel d a b c => some (eOp4 0x0C (g5 d) (g5 a) (g5 b) (g5 c) 0)
  | .madd d a b c => some (eOp4 0x0C (g5 d) (g5 a) (g5 b) (g5 c) 1)
  | .msub d a b c => some (eOp4 0x0C (g5 d) (g5 a) (g5 b) (g5 c) 2)
  | .faddF64 d a b rm => some (eFlt 0x0D (g5 d) (g5 a) (g5 b) rm.code 0 0)
  | .fsubF64 d a b rm => some (eFlt 0x0D (g5 d) (g5 a) (g5 b) rm.code 1 0)
  | .fmulF64 d a b rm => some (eFlt 0x0D (g5 d) (g5 a) (g5 b) rm.code 2 0)
  | .fdivF64 d a b rm la => some (eFlt 0x0D (g5 d) (g5 a) (g5 b) rm.code 3 la)
  | .fsqrtF64 d a rm la => some (eFlt 0x0D (g5 d) (g5 a) 0 rm.code 4 la)
  | .fminF64 d a b => some (eFlt 0x0D (g5 d) (g5 a) (g5 b) 0 5 0)
  | .fmaxF64 d a b => some (eFlt 0x0D (g5 d) (g5 a) (g5 b) 0 6 0)
  | .faddF32 d a b rm => some (eFlt 0x0E (g5 d) (g5 a) (g5 b) rm.code 0 0)
  | .fsubF32 d a b rm => some (eFlt 0x0E (g5 d) (g5 a) (g5 b) rm.code 1 0)
  | .fmulF32 d a b rm => some (eFlt 0x0E (g5 d) (g5 a) (g5 b) rm.code 2 0)
  | .fdivF32 d a b rm la => some (eFlt 0x0E (g5 d) (g5 a) (g5 b) rm.code 3 la)
  | .fsqrtF32 d a rm la => some (eFlt 0x0E (g5 d) (g5 a) 0 rm.code 4 la)
  | .fminF32 d a b => some (eFlt 0x0E (g5 d) (g5 a) (g5 b) 0 5 0)
  | .fmaxF32 d a b => some (eFlt 0x0E (g5 d) (g5 a) (g5 b) 0 6 0)
  | .fmaddF64 d a b c rm => some (eFl4 d a b c rm 0)
  | .fmaddF32 d a b c rm => some (eFl4 d a b c rm 1)
  | .fmsubF64 d a b c rm => some (eFl4 d a b c rm 2)
  | .fmsubF32 d a b c rm => some (eFl4 d a b c rm 3)
  | .feqF64 d a b => some (eOp3 0x10 (g5 d) (g5 a) (g5 b) 0 0)
  | .fltF64 d a b => some (eOp3 0x10 (g5 d) (g5 a) (g5 b) 1 0)
  | .fleF64 d a b => some (eOp3 0x10 (g5 d) (g5 a) (g5 b) 2 0)
  | .feqF32 d a b => some (eOp3 0x10 (g5 d) (g5 a) (g5 b) 3 0)
  | .fltF32 d a b => some (eOp3 0x10 (g5 d) (g5 a) (g5 b) 4 0)
  | .fleF32 d a b => some (eOp3 0x10 (g5 d) (g5 a) (g5 b) 5 0)
  | .fclassF64 d a => some (eOp3 0x10 (g5 d) (g5 a) 0 6 0)
  | .fclassF32 d a => some (eOp3 0x10 (g5 d) (g5 a) 0 7 0)
  | .fnegF64 d a => some (eOp3 0x10 (g5 d) (g5 a) 0 8 0)
  | .fnegF32 d a => some (eOp3 0x10 (g5 d) (g5 a) 0 9 0)
  | .fabsF64 d a => some (eOp3 0x10 (g5 d) (g5 a) 0 10 0)
  | .fabsF32 d a => some (eOp3 0x10 (g5 d) (g5 a) 0 11 0)
  | .cvt d a dt st rm sat => some (0x11#6 ++ g5 d ++ g5 a ++ dt.code ++ st.code ++ rm.code ++ BitVec.ofBool sat ++ 0#1)
  | .vadd d a b m rm => some (eVec 0x18 (v5 d) (v5 a) (v5 b) (m3 m) rm.code 0)
  | .vsub d a b m rm => some (eVec 0x18 (v5 d) (v5 a) (v5 b) (m3 m) rm.code 1)
  | .vmul d a b m rm => some (eVec 0x18 (v5 d) (v5 a) (v5 b) (m3 m) rm.code 2)
  | .vmin d a b m => some (eVec 0x18 (v5 d) (v5 a) (v5 b) (m3 m) 0 3)
  | .vmax d a b m => some (eVec 0x18 (v5 d) (v5 a) (v5 b) (m3 m) 0 4)
  | .vabs d a m => some (eVec 0x18 (v5 d) (v5 a) 0 (m3 m) 0 5)
  | .vneg d a m => some (eVec 0x18 (v5 d) (v5 a) 0 (m3 m) 0 6)
  | .vaddsat d a b m => some (eVec 0x18 (v5 d) (v5 a) (v5 b) (m3 m) 0 7)
  | .vsubsat d a b m => some (eVec 0x18 (v5 d) (v5 a) (v5 b) (m3 m) 0 8)
  | .vmulh d a b m => some (eVec 0x18 (v5 d) (v5 a) (v5 b) (m3 m) 0 9)
  | .vand d a b m => some (eVec 0x18 (v5 d) (v5 a) (v5 b) (m3 m) 0 10)
  | .vor d a b m => some (eVec 0x18 (v5 d) (v5 a) (v5 b) (m3 m) 0 11)
  | .vxor d a b m => some (eVec 0x18 (v5 d) (v5 a) (v5 b) (m3 m) 0 12)
  | .vsll d a b m => some (eVec 0x18 (v5 d) (v5 a) (v5 b) (m3 m) 0 13)
  | .vsrl d a b m => some (eVec 0x18 (v5 d) (v5 a) (v5 b) (m3 m) 0 14)
  | .vsra d a b m => some (eVec 0x18 (v5 d) (v5 a) (v5 b) (m3 m) 0 15)
  | .vfma d a b m rm => some (eVec 0x19 (v5 d) (v5 a) (v5 b) (m3 m) rm.code 0)
  | .vfms d a b m rm => some (eVec 0x19 (v5 d) (v5 a) (v5 b) (m3 m) rm.code 1)
  | .vfnma d a b m rm => some (eVec 0x19 (v5 d) (v5 a) (v5 b) (m3 m) rm.code 2)
  | .vdiv d a b m rm => some (eVec 0x19 (v5 d) (v5 a) (v5 b) (m3 m) rm.code 3)
  | .vsqrt d a m rm => some (eVec 0x19 (v5 d) (v5 a) 0 (m3 m) rm.code 4)
  | .vceq d a b m => some (eVec 0x1A (m5 d) (v5 a) (v5 b) (m3 m) 0 0)
  | .vcne d a b m => some (eVec 0x1A (m5 d) (v5 a) (v5 b) (m3 m) 0 1)
  | .vclt d a b m => some (eVec 0x1A (m5 d) (v5 a) (v5 b) (m3 m) 0 2)
  | .vcle d a b m => some (eVec 0x1A (m5 d) (v5 a) (v5 b) (m3 m) 0 3)
  | .vcun d a b m => some (eVec 0x1A (m5 d) (v5 a) (v5 b) (m3 m) 0 4)
  | .mand d a b => some (eVec 0x1B (m5 d) (m5 a) (m5 b) 0 0 0)
  | .mor d a b => some (eVec 0x1B (m5 d) (m5 a) (m5 b) 0 0 1)
  | .mxor d a b => some (eVec 0x1B (m5 d) (m5 a) (m5 b) 0 0 2)
  | .mandn d a b => some (eVec 0x1B (m5 d) (m5 a) (m5 b) 0 0 3)
  | .mnot d a => some (eVec 0x1B (m5 d) (m5 a) 0 0 0 4)
  | .vsel d a b m => some (eVec 0x1C (v5 d) (v5 a) (v5 b) (m3 m) 0 0)
  | .vmov d a m => some (eVec 0x1C (v5 d) (v5 a) 0 (m3 m) 0 1)
  | .vzero d m => some (eVec 0x1C (v5 d) 0 0 (m3 m) 0 2)
  | .vcvt d a tag m rm part => some (eVec 0x1D (v5 d) (v5 a) tag.code (m3 m) rm.code (0#2 ++ part))
  | .vcvtSat d a tag m rm part => some (eVec 0x1D (v5 d) (v5 a) tag.code (m3 m) rm.code (1#2 ++ part))
  | .vsettag d a tag => some (eVec 0x1D (v5 d) (v5 a) tag.code 0 0 8)
  | .vchk a tag => some (eVec 0x1D 0 (v5 a) tag.code 0 0 9)
  | .vbq d a tag rm => some (eVec 0x1E (v5 d) (v5 a) tag.code 0 rm.code 0)
  | .vbdq d a tag rm => some (eVec 0x1E (v5 d) (v5 a) tag.code 0 rm.code 1)
  | .vctab d a tag m => some (eVec 0x1E (v5 d) (v5 a) tag.code (m3 m) 0 2)
  | .vperm d a b => some (eVec 0x1F (v5 d) (v5 a) (v5 b) 0 0 0)
  | .vzipl d a b => some (eVec 0x1F (v5 d) (v5 a) (v5 b) 0 0 1)
  | .vziph d a b => some (eVec 0x1F (v5 d) (v5 a) (v5 b) 0 0 2)
  | .vunzip d a b => some (eVec 0x1F (v5 d) (v5 a) (v5 b) 0 0 3)
  | .vrotl d a b => some (eVec 0x1F (v5 d) (v5 a) (g5 b) 0 0 4)
  | .vbcast d a tag m => some (eVec 0x20 (v5 d) (g5 a) tag.code (m3 m) 0 0)
  | .vextr d a b => some (eVec 0x20 (g5 d) (v5 a) (g5 b) 0 0 1)
  | .vins d a b => some (eVec 0x20 (v5 d) (g5 a) (g5 b) 0 0 2)
  | .vredadd d a m rm => some (eVec 0x21 (g5 d) (v5 a) 0 (m3 m) rm.code 0)
  | .vredmax d a m => some (eVec 0x21 (g5 d) (v5 a) 0 (m3 m) 0 1)
  | .vredmin d a m => some (eVec 0x21 (g5 d) (v5 a) 0 (m3 m) 0 2)
  | .vbpack d a => some (eVec 0x22 (v5 d) (v5 a) 0 0 0 0)
  | .vbunpack d a => some (eVec 0x22 (v5 d) (v5 a) 0 0 0 1)
  | .mmaE4m3 d a b k => some (eMat 0x23 (q5 d) (g5 a) (g5 b) (m3 k) 0)
  | .mmaE5m2 d a b k => some (eMat 0x23 (q5 d) (g5 a) (g5 b) (m3 k) 1)
  | .mmaE2m1 d a b k => some (eMat 0x23 (q5 d) (g5 a) (g5 b) (m3 k) 2)
  | .mmaI8 d a b k => some (eMat 0x23 (q5 d) (g5 a) (g5 b) (m3 k) 3)
  | .mmaC4i8 d a b k => some (eMat 0x23 (q5 d) (g5 a) (g5 b) (m3 k) 4)
  | .mmaTi8 d a b k => some (eMat 0x23 (q5 d) (g5 a) (g5 b) (m3 k) 5)
  | .mmaBf16 d a b k => some (eMat 0x23 (q5 d) (g5 a) (g5 b) (m3 k) 6)
  | .mmaF16 d a b k => some (eMat 0x23 (q5 d) (g5 a) (g5 b) (m3 k) 7)
  | .qacq d a => some (eMat 0x24 (q5 d) (g5 a) 0 0 0)
  | .qrel d => some (eMat 0x24 (q5 d) 0 0 0 1)
  | .qzero d => some (eMat 0x24 (q5 d) 0 0 0 2)
  | .qanchor d a => some (eMat 0x24 (q5 d) (g5 a) 0 0 3)
  | .qadd d a b => some (eMat 0x24 (q5 d) (q5 a) (q5 b) 0 4)
  | .qaddm d a => some (eMat 0x24 (q5 d) (g5 a) 0 0 5)
  | .qsend d a b k => some (eMat 0x24 (q5 d) (g5 a) (g5 b) (m3 k) 6)
  | .qread d a row fmt rm => some (eQrd d a row fmt rm 0)
  | .qreadSat d a row fmt rm => some (eQrd d a row fmt rm 1)
  | .ld d a disp ty la => some (eMem 0x28 d a disp ty.code la)
  | .st d a disp ty => some (eMem 0x29 d a disp ty.code 0)
  | .vld d a disp tag la => some (eVmem 0x2A d a disp.field tag la)
  | .vst d a disp tag => some (eVmem 0x2B d a disp.field tag 0)
  | .ldAcq d a ty sc => some (eMemo 0x2C (g5 d) (g5 a) 0 ty.code 1 sc.code 0)
  | .stRel d a ty sc => some (eMemo 0x2C (g5 d) (g5 a) 0 ty.code 2 sc.code 1)
  | .amoadd d a b ty sem sc => some (eMemo 0x2D (g5 d) (g5 a) (g5 b) ty.code sem.code sc.code 0)
  | .amoand d a b ty sem sc => some (eMemo 0x2D (g5 d) (g5 a) (g5 b) ty.code sem.code sc.code 1)
  | .amoor d a b ty sem sc => some (eMemo 0x2D (g5 d) (g5 a) (g5 b) ty.code sem.code sc.code 2)
  | .amoxor d a b ty sem sc => some (eMemo 0x2D (g5 d) (g5 a) (g5 b) ty.code sem.code sc.code 3)
  | .amomax d a b ty sem sc => some (eMemo 0x2D (g5 d) (g5 a) (g5 b) ty.code sem.code sc.code 4)
  | .amomin d a b ty sem sc => some (eMemo 0x2D (g5 d) (g5 a) (g5 b) ty.code sem.code sc.code 5)
  | .amomaxu d a b ty sem sc => some (eMemo 0x2D (g5 d) (g5 a) (g5 b) ty.code sem.code sc.code 6)
  | .amominu d a b ty sem sc => some (eMemo 0x2D (g5 d) (g5 a) (g5 b) ty.code sem.code sc.code 7)
  | .amoswap d a b ty sem sc => some (eMemo 0x2E (g5 d) (g5 a) (g5 b) ty.code sem.code sc.code 0)
  | .amocas d a b ty sem sc => some (eMemo 0x2E (g5 d) (g5 a) (g5 b) ty.code sem.code sc.code 1)
  | .amoaddF32 d a b sem sc => some (eMemo 0x2E (g5 d) (g5 a) (g5 b) 4 sem.code sc.code 2)
  | .amaxF32 d a b sem sc => some (eMemo 0x2E (g5 d) (g5 a) (g5 b) 4 sem.code sc.code 3)
  | .aminF32 d a b sem sc => some (eMemo 0x2E (g5 d) (g5 a) (g5 b) 4 sem.code sc.code 4)
  | .redNF32 a b => some (eMemo 0x2F 0 (g5 a) (g5 b) 4 0 0 0)
  | .redNAdd a b ty => some (eMemo 0x2F 0 (g5 a) (g5 b) ty.code 0 0 1)
  | .redNMaxF32 a b => some (eMemo 0x2F 0 (g5 a) (g5 b) 4 0 0 2)
  | .vldp d a tag la => some (eVmem 0x30 d a 0 tag la)
  | .vstp d a tag => some (eVmem 0x31 d a 0 tag 0)
  | .vgath32 d a b la => some (eOp3 0x32 (v5 d) (g5 a) (v5 b) 0 la)
  | .vgath64 d a b la => some (eOp3 0x32 (v5 d) (g5 a) (v5 b) 1 la)
  | .vscat32 d a b => some (eOp3 0x32 (v5 d) (g5 a) (v5 b) 2 0)
  | .vscat64 d a b => some (eOp3 0x32 (v5 d) (g5 a) (v5 b) 3 0)
  | .ldf d a la => some (eOp3 0x33 (g5 d) (g5 a) 0 0 la)
  | .ldfe d a la => some (eOp3 0x33 (g5 d) (g5 a) 0 1 la)
  | .stf d a => some (eOp3 0x33 (g5 d) (g5 a) 0 2 0)
  | .stef d a => some (eOp3 0x33 (g5 d) (g5 a) 0 3 0)
  | .fempty a => some (eOp3 0x33 0 (g5 a) 0 4 0)
  | .ftest d a => some (eOp3 0x33 (g5 d) (g5 a) 0 5 0)
  | .map d a b => some (eOp3 0x34 (g5 d) (g5 a) (g5 b) 0 0)
  | .unmap a => some (eOp3 0x34 0 (g5 a) 0 1 0)
  | .sflush a => some (eOp3 0x34 0 (g5 a) 0 2 0)
  | .pfl2 d a b => some (eOp3 0x35 (k5 d) (g5 a) (g5 b) 0 0)
  | .invlR d a b => some (eOp3 0x35 (g5 d) (g5 a) (g5 b) 1 0)
  | .invlA a => some (eOp3 0x35 0 (g5 a) 0 2 0)
  | .invlAll => some (eOp3 0x35 0 0 0 3 0)
  | .cnop => some (eOp3 0x38 0 0 0 0 0)
  | .jr a => some (eOp3 0x38 0 (g5 a) 0 1 0)
  | .jalr d a => some (eOp3 0x38 (g5 d) (g5 a) 0 2 0)
  | .yield => some (eOp3 0x38 0 0 0 3 0)
  | .exit => some (eOp3 0x38 0 0 0 4 0)
  | .trap code => some (eOp3 0x38 0 0 code 5 0)
  | .rft => some (eOp3 0x38 0 0 0 6 0)
  | .beq a b off => some (eBr 0 a b off)
  | .bne a b off => some (eBr 1 a b off)
  | .blt a b off => some (eBr 2 a b off)
  | .bge a b off => some (eBr 3 a b off)
  | .bltu a b off => some (eBr 4 a b off)
  | .bgeu a b off => some (eBr 5 a b off)
  | .jal d off => some (0x3A#6 ++ g5 d ++ off.field)
  | .spawn a => some (eOp3 0x3C 0 (g5 a) 0 0 0)
  | .depdec a => some (eOp3 0x3C 0 (g5 a) 0 1 0)
  | .fpop d a => some (eOp3 0x3C (g5 d) (g5 a) 0 2 0)
  | .fpush a b => some (eOp3 0x3C 0 (g5 a) (g5 b) 3 0)
  | .waitw d a b => some (eOp3 0x3C (g5 d) (g5 a) (g5 b) 4 0)
  | .wlaunch d a => some (eOp3 0x3C (k5 d) (g5 a) 0 5 0)
  | .ctabld a => some (eOp3 0x3C 0 (g5 a) 0 6 0)
  | .hwait a => some (eOp3 0x3D 0 (k5 a) 0 0 0)
  | .htest d a => some (eOp3 0x3D (g5 d) (k5 a) 0 1 0)
  | .hwaitany d a => some (eOp3 0x3D (g5 d) (g5 a) 0 2 0)
  | .hcancel a => some (eOp3 0x3D 0 (k5 a) 0 3 0)
  | .hexport d a => some (eOp3 0x3D (g5 d) (k5 a) 0 4 0)
  | .himport d a => some (eOp3 0x3D (k5 d) (g5 a) 0 5 0)
  | .hstate d a => some (eOp3 0x3D (g5 d) (k5 a) 0 6 0)
  | .acopy d a => some (eOp3 0x3D (k5 d) (g5 a) 0 7 0)
  | .acopy2 d a => some (eOp3 0x3D (k5 d) (g5 a) 0 8 0)
  | .fenceRelT => some (eOp3 0x3E 0 0 0 0 0)
  | .fenceRelC => some (eOp3 0x3E 0 0 0 1 0)
  | .fenceRelS => some (eOp3 0x3E 0 0 0 2 0)
  | .fenceAcqT => some (eOp3 0x3E 0 0 0 3 0)
  | .fenceAcqC => some (eOp3 0x3E 0 0 0 4 0)
  | .fenceAcqS => some (eOp3 0x3E 0 0 0 5 0)
  | .fenceArT => some (eOp3 0x3E 0 0 0 6 0)
  | .fenceArC => some (eOp3 0x3E 0 0 0 7 0)
  | .fenceArS => some (eOp3 0x3E 0 0 0 8 0)
  | .fenceScT => some (eOp3 0x3E 0 0 0 9 0)
  | .fenceScC => some (eOp3 0x3E 0 0 0 10 0)
  | .fenceScS => some (eOp3 0x3E 0 0 0 11 0)
  | .fenceRelN a b => some (eOp3 0x3E 0 (g5 a) (g5 b) 12 0)
  | .fenceAcqN a b => some (eOp3 0x3E 0 (g5 a) (g5 b) 13 0)
  | .fenceN => some (eOp3 0x3E 0 0 0 14 0)
  | .bar lvl => some (eOp3 0x3E 0 0 lvl.code 15 0)
  | .bvote d a lvl => some (eOp3 0x3E (g5 d) (g5 a) lvl.code 16 0)
  | .csum d a lvl => some (eOp3 0x3E (g5 d) (g5 a) lvl.code 17 0)
  | .cmax d a lvl => some (eOp3 0x3E (g5 d) (g5 a) lvl.code 18 0)
  | .cmin d a lvl => some (eOp3 0x3E (g5 d) (g5 a) lvl.code 19 0)
  | .eycreate d a => some (eOp3 0x3E (g5 d) (g5 a) 0 20 0)
  | .eypostMsg0 a b => some (eOp3 0x3E 0 (g5 a) (g5 b) 21 0)
  | .eypostMsg1 a b => some (eOp3 0x3E 0 (g5 a) (g5 b) 22 0)
  | .eytake d a => some (eOp3 0x3E (g5 d) (g5 a) 0 23 0)
  | .eywait a => some (eOp3 0x3E 0 (g5 a) 0 24 0)
  | .popenMsg0 a => some (eOp3 0x3E 0 (g5 a) 0 25 0)
  | .popenMsg1 a => some (eOp3 0x3E 0 (g5 a) 0 26 0)
  | .pput a b => some (eOp3 0x3E 0 (g5 a) (g5 b) 27 0)
  | .psend a b => some (eOp3 0x3E 0 (g5 a) (g5 b) 28 0)
  | .fenceI => some (eOp3 0x3E 0 0 0 29 0)
  | .mfsr d sr => some (eSys 0 d sr)
  | .mtsr sr d => some (eSys 1 d sr)
  | _ => none

/-- The literal that an immediate-taking instruction carries, zero for the rest (R150). -/
def Instr.literal : Instr → BitVec 32
  | .addi _ _ (.lit l) | .andi _ _ (.lit l) | .ori _ _ (.lit l) | .xori _ _ (.lit l) | .slti _ _ (.lit l) | .sltiu _ _ (.lit l)
  | .slli _ _ (.lit l) | .srli _ _ (.lit l) | .srai _ _ (.lit l) | .lhi _ _ (.lit l) | .ld _ _ (.lit l) _ _ | .st _ _ (.lit l) _
  | .vld _ _ (.lit l) _ _ | .vst _ _ (.lit l) _ | .beq _ _ (.lit l) | .bne _ _ (.lit l) | .blt _ _ (.lit l) | .bge _ _ (.lit l)
  | .bltu _ _ (.lit l) | .bgeu _ _ (.lit l) | .jal _ (.lit l) => l
  | _ => 0

/-- The two words of a pair (R147). -/
def encodePair : Pair → Option (BitVec 32 × BitVec 32)
  | .two c a => do return (0#1 ++ (← encodeBody c), 0#1 ++ (← encodeBody a))
  | .lone i => do return (1#1 ++ (← encodeBody i), i.literal)

/-! ### Burlia words (R298, R299) -/

def wOp (w : BitVec 32) : Nat := (w.extractLsb' 26 6).toNat
def wA (w : BitVec 32) : PReg := (w.extractLsb' 23 3).toFin
def wB (w : BitVec 32) : PReg := (w.extractLsb' 20 3).toFin
def wImm (w : BitVec 32) : BitVec 23 := w.extractLsb' 0 23
def wOff (w : BitVec 32) : BitVec 20 := w.extractLsb' 0 20
def wIa (w : BitVec 32) : Bool := w.getLsbD 19
def wIb (w : BitVec 32) : Bool := w.getLsbD 18
def wFmt (w : BitVec 32) : Option Tag := Tag.table[(w.extractLsb' 13 5).toNat]?
/-- rm 0–3; 4–7 is ILLOP (R300). -/
def wRm (w : BitVec 32) : Option Rnd := [Rnd.rne, .rtz, .rup, .rdn][(w.extractLsb' 10 3).toNat]?

/-- Which fields of a word must be zero. -/
def wZero (w : BitVec 32) (hi lo : Nat) : Bool := w.extractLsb' lo (hi + 1 - lo) == 0

/-- A word of `Option`: the guard of R299. -/
def wWhen (ok : Bool) (i : Option Instr) : Option Instr := if ok then i else none

/-- A tag of the instruction's set (R299). -/
def wTag (w : BitVec 32) (ok : Tag → Bool) (k : Tag → Option Instr) : Option Instr :=
  match wFmt w with
  | some f => if ok f then k f else none
  | none => none

def wRnd (w : BitVec 32) (k : Rnd → Option Instr) : Option Instr :=
  match wRm w with
  | some r => k r
  | none => none

/-- Decoding of a Burlia word; `none` is ILLOP (R300, code 1). -/
noncomputable def decodeBurlia (w : BitVec 32) : Option Instr :=
  match wOp w with
  | 0x00 => wWhen (wZero w 25 0) (some .nop)
  | 0x01 => wWhen (wZero w 25 0) (some .halt)
  | 0x02 => wWhen (wZero w 25 20) (some (.b (wOff w)))
  | 0x03 => wWhen (wZero w 25 20) (some (.loop (wOff w)))
  | 0x04 => wWhen (wZero w 25 20) (some (.bcz (wOff w)))
  | 0x05 => wWhen (wZero w 25 20) (some (.bcl (wOff w)))
  | 0x06 => wWhen (wZero w 25 23) (some (.setc (wImm w)))
  | 0x07 => wWhen (wZero w 22 20 && wZero w 18 0) (some (.ldc (wA w) (wIa w)))
  | 0x08 => wWhen (wZero w 22 18) (some (.psets (wA w) (w.extractLsb' 0 18)))
  | 0x09 => some (.pstride (wA w) (wImm w))
  | 0x0A => some (.paddi (wA w) (wImm w))
  | 0x0B => wWhen (wZero w 18 0) (some (.pld (wA w) (wB w) (wIa w)))
  | 0x0C => wWhen (wZero w 19 0) (some (.pmov (wA w) (wB w)))
  | 0x0D => wWhen (wZero w 22 20 && wZero w 18 0) (some (.post (wA w) (wIa w)))
  | 0x0E => wWhen (wZero w 17 0) (some (.mov64 (wA w) (wB w) (wIa w) (wIb w)))
  | 0x10 => wWhen (wZero w 25 18 && wZero w 12 0) (wTag w Tag.isWeltAcc fun f => some (.azero f))
  | 0x11 => wWhen (wZero w 22 20 && wZero w 18 18 && wZero w 12 0) (wTag w Tag.isWelt fun f => some (.ald (wA w) (wIa w) f))
  | 0x12 => wWhen (wZero w 22 20 && wZero w 18 18 && wZero w 9 0) (wTag w Tag.isWelt fun f => wRnd w fun r => some (.ast (wA w) (wIa w) f r))
  | 0x13 => wWhen (wZero w 22 20 && wZero w 18 18 && wZero w 9 0) (wTag w Tag.isWelt fun f => wRnd w fun r => some (.aadd (wA w) (wIa w) f r))
  | 0x14 => wWhen (wZero w 22 20 && wZero w 18 18 && wZero w 12 0) (wTag w Tag.isWelt fun f => some (.amax (wA w) (wIa w) f))
  | 0x15 => wWhen (wZero w 22 20 && wZero w 18 18 && wZero w 12 0) (wTag w Tag.isWelt fun f => some (.amin (wA w) (wIa w) f))
  | 0x16 => wWhen (wZero w 9 0) (wTag w Tag.isWeltFloat fun f => wRnd w fun r => some (.afma (wA w) (wB w) (wIa w) (wIb w) f r))
  | 0x17 => wWhen (wZero w 22 20 && wZero w 18 13 && wZero w 9 0) (wRnd w fun r => some (.ascale (wA w) (wIa w) r))
  | 0x18 => wWhen (wZero w 25 18 && wZero w 9 0) (wTag w Tag.isWeltAcc fun f => wRnd w fun r => some (.acvt f r))
  | 0x19 => wWhen (wZero w 18 18 && wZero w 9 0) (wTag w Tag.isWelt fun f => wRnd w fun r => some (.addx (wA w) (wB w) (wIa w) f r))
  | 0x1A => wWhen (wZero w 18 18 && wZero w 12 0) (wTag w Tag.isWelt fun f => some (.maxx (wA w) (wB w) (wIa w) f))
  | 0x20 => wWhen (wZero w 22 20 && wZero w 18 13 && wZero w 9 0) (wRnd w fun r => some (.faddn (wA w) (wIa w) r))
  | 0x21 => wWhen (wZero w 22 20 && wZero w 18 0) (some (.fmaxn (wA w) (wIa w)))
  | 0x22 => wWhen (wZero w 18 13 && wZero w 9 0) (wRnd w fun r => some (.faddnx (wA w) (wB w) (wIa w) r))
  | 0x28 =>
    if wIb w then wWhen (wZero w 19 19 && wZero w 17 0) (some (.clampTwoBank (wA w) (wB w)))
    else wWhen (wZero w 22 0) (some (.clamp (wA w)))
  | 0x29 => wWhen (wZero w 25 0) (some .unclamp)
  | 0x2A => wWhen (wZero w 22 20 && wZero w 18 0) (some (.rowzero (wA w) (wIa w)))
  | 0x2B => wWhen (wZero w 17 0) (some (.rowcopy (wA w) (wB w) (wIa w) (wIb w)))
  | _ => none

def eWB (op : BitVec 6) (off : BitVec 20) : BitVec 32 := op ++ 0#6 ++ off
def eWI (op : BitVec 6) (d : BitVec 3) (imm : BitVec 23) : BitVec 32 := op ++ d ++ imm
def eWM (op : BitVec 6) (a b : BitVec 3) (ia ib : Bool) (fmt : BitVec 5) (rm : BitVec 3) : BitVec 32 :=
  op ++ a ++ b ++ BitVec.ofBool ia ++ BitVec.ofBool ib ++ fmt ++ rm ++ 0#10

/-- The word of a Burlia instruction; the other constructors have none. -/
def encodeBurlia : Instr → Option (BitVec 32)
  | .nop => some (eWB 0x00 0)
  | .halt => some (eWB 0x01 0)
  | .b off => some (eWB 0x02 off)
  | .loop off => some (eWB 0x03 off)
  | .bcz off => some (eWB 0x04 off)
  | .bcl off => some (eWB 0x05 off)
  | .setc imm => some (eWI 0x06 0 imm)
  | .ldc a ia => some (eWM 0x07 (p3 a) 0 ia false 0 0)
  | .psets d imm => some (eWI 0x08 (p3 d) (0#5 ++ imm))
  | .pstride d imm => some (eWI 0x09 (p3 d) imm)
  | .paddi d imm => some (eWI 0x0A (p3 d) imm)
  | .pld a b ia => some (eWM 0x0B (p3 a) (p3 b) ia false 0 0)
  | .pmov a b => some (eWM 0x0C (p3 a) (p3 b) false false 0 0)
  | .post a ia => some (eWM 0x0D (p3 a) 0 ia false 0 0)
  | .mov64 a b ia ib => some (eWM 0x0E (p3 a) (p3 b) ia ib 0 0)
  | .azero fmt => some (eWM 0x10 0 0 false false fmt.code 0)
  | .ald a ia fmt => some (eWM 0x11 (p3 a) 0 ia false fmt.code 0)
  | .ast a ia fmt rm => some (eWM 0x12 (p3 a) 0 ia false fmt.code rm.code)
  | .aadd a ia fmt rm => some (eWM 0x13 (p3 a) 0 ia false fmt.code rm.code)
  | .amax a ia fmt => some (eWM 0x14 (p3 a) 0 ia false fmt.code 0)
  | .amin a ia fmt => some (eWM 0x15 (p3 a) 0 ia false fmt.code 0)
  | .afma a b ia ib fmt rm => some (eWM 0x16 (p3 a) (p3 b) ia ib fmt.code rm.code)
  | .ascale a ia rm => some (eWM 0x17 (p3 a) 0 ia false 0 rm.code)
  | .acvt fmt rm => some (eWM 0x18 0 0 false false fmt.code rm.code)
  | .addx a b ia fmt rm => some (eWM 0x19 (p3 a) (p3 b) ia false fmt.code rm.code)
  | .maxx a b ia fmt => some (eWM 0x1A (p3 a) (p3 b) ia false fmt.code 0)
  | .faddn a ia rm => some (eWM 0x20 (p3 a) 0 ia false 0 rm.code)
  | .fmaxn a ia => some (eWM 0x21 (p3 a) 0 ia false 0 0)
  | .faddnx a b ia rm => some (eWM 0x22 (p3 a) (p3 b) ia false 0 rm.code)
  | .clamp a => some (eWM 0x28 (p3 a) 0 false false 0 0)
  | .clampTwoBank a b => some (eWM 0x28 (p3 a) (p3 b) false true 0 0)
  | .unclamp => some (eWB 0x29 0)
  | .rowzero a ia => some (eWM 0x2A (p3 a) 0 ia false 0 0)
  | .rowcopy a b ia ib => some (eWM 0x2B (p3 a) (p3 b) ia ib 0 0)
  | _ => none

/-! ### The opcode table's words -/

/-- An instruction of a pair whose other slot does nothing: the pair's own instruction. -/
def Pair.only : Pair → Instr
  | .lone i => i
  | .two c a => if c = .cnop then a else c

/-- What the decoder reads from `nbits` bits of the opcode table: a Burlia word of 32 bits, or a Dweyryn pair of 64 with
word 0 at the lower address; bits above `nbits` are zero. -/
noncomputable def decodeTableWord (nbits w : Nat) : Option Instr :=
  if nbits ≤ 32 then decodeBurlia (BitVec.ofNat 32 (w % 2 ^ nbits))
  else if nbits ≤ 64 then
    match decodePair (BitVec.ofNat 32 w) (BitVec.ofNat 32 (w % 2 ^ nbits / 2 ^ 32)) with
    | .ok p => some p.only
    | .error _ => none
  else none

end Sys2Proof
end

