-- ==== Sys2Proof/Config.lean ====
section
/-!
DEFINITION. What the manual fixes once for the part: sizes and windows (R21, R87, R88), and the fuse record's contents
that the model presumes.
-/

namespace Sys2Proof.Config

/-- First byte of the scratch window (R87). -/
def scratchBase : Nat := 0x00FFFFFFFFE00000
/-- The scratchpad's 2 MiB (R14). -/
def scratchSize : Nat := 0x200000
/-- First offset of the cobbler region (R363). -/
def cobblerBase : Nat := 0x1C0000
/-- First near window and the step between stacks' near windows (R88). -/
def nearBase : Nat := 0x100000000000
def nearStep : Nat := 0x1000000000
/-- The register window (R88). -/
def regBase : Nat := 0x180000000000
def regSize : Nat := 0x40000000
/-- The host window (R88). -/
def hostBase : Nat := 0x1000000000000
/-- The package offset is bits 48:0 (R88). -/
def pkgShift : Nat := 49
/-- What a byte of memory or scratchpad that nothing has written reads as. DESIGN CHOICE (unsafe): logs 2 and 5. -/
def unwritten : Byte := 0
/-- BAVAIL's fuse value. PRESUMED (unsafe): a part with all 36 banks of every channel live, log 4. -/
def fuseLive : BitVec 36 := BitVec.allOnes 36
/-- COLMAP.SPARE's fuse value: its reset value 8 (R13). PRESUMED (unsafe): log 4. -/
def fuseSpare : Nat := 8

/-! The algorithms that R336 names are other standards': uninterpreted here (log 68). -/

/-- Whether a 64 B Ed25519 signature by a key is one over image and version. -/
opaque ed25519Verifies (key image : List Byte) (version : Nat) (sig : List Byte) : Bool
/-- Whether a 3,309 B ML-DSA-65 signature by a key is one over image and version. -/
opaque mldsa65Verifies (key image : List Byte) (version : Nat) (sig : List Byte) : Bool
/-- The SHA-384 digest. -/
opaque sha384 : List Byte → BitVec 384

end Sys2Proof.Config
end

