-- ==== Sys2Proof/Machine/State.lean ====
section
/-!
DEFINITION. The state of one Gwynris C16 cube as plain data, the reasons a step can stop, and the machine right after
reset. INVENTORY.md lists every field with its rule and reset value; what the manual fixes per tile, layer, stack or core is
held sparsely: an element not listed is at its reset value.
-/

namespace Sys2Proof.Machine

/-! ### Conditions and waits -/

/-- A condition that ends an instruction (R358, R381): its code, the trap registers it writes, and for a forwarded fault the
ACC and PTE words of its record (R364). -/
structure Cond where
  code : Nat
  tinfo : Word := 0
  taddr : Word := 0
  /-- Class of R358: forwarded fault. -/
  fwd : Bool := false
  /-- Class of R358: frame fault (REASON 1). -/
  frame : Bool := false
  /-- ACC of its record: no access, at no level of a table. -/
  acc : Word := 0xF00
  pte : Word := 0
  /-- REG of R359, for ACCBUSY. -/
  reg : BitVec 4 := 0
  /-- The pair the condition names when it is not the executing one (R370). -/
  pc : Option Word := none
  deriving DecidableEq, Repr

/-- What a strand waits for. `blocking` waits count toward R37 and the watchdog (R204); the others are stalls. -/
inductive Wait
  | handle (k : BitVec 8)            -- hwait, hwaitany, R196: some named handle done
  | handles (k : BitVec 8)           -- exit: every named handle done (R185)
  | word (va : Word) (old : Word)    -- waitw (R192)
  | cell (va : Word)                 -- an imported handle's cell (R202)
  | full (off : Nat) (take : Bool)   -- ldf, ldfe (R217)
  | empty (off : Nat) (data : Word)  -- stef (R217)
  | barrier                          -- R243, mtsr DOM
  | credit (tile : Nat)              -- ENQ credit (R49)
  | deque                            -- R414
  | deferral                         -- R58
  | copies                           -- acopy (R230)
  | launches                         -- wlaunch (R247)
  | eyelet (id : Word)               -- eywait (R239)
  | ring                             -- eypost, psend held by a ring fault (R237)
  | acc                              -- qacq (R278)
  | image (off : Nat)                -- qaddm (R287)
  | invl                             -- R233
  | answer                           -- eypost, psend, spawn with DEPC, a remote package: a stall
  | unit                             -- a full unit, red.n in flight, a page with MB = 1: a stall
  | line                             -- a register line (R35) or a held result (R152): a stall
  | way (n : Nat)                    -- a set of line n whose ways are all retained (R373)
  deriving DecidableEq, Repr

/-- R37 and R204 count these waits; the others are stalls. -/
def Wait.blocking : Wait → Bool
  | .answer | .unit | .line => false
  | _ => true

/-- How the last instruction ended: with its effect, with a condition, or waiting. -/
inductive Ended
  | ok
  | cond (c : Cond)
  | wait (w : Wait)
  deriving DecidableEq, Repr

/-- What a request asks of the home of its address, or of another tile's network interface (R112, R141, R324, R424): a line for the bytes read, a
store, a write-back's dirty bytes, an atomic by its OP of R328, or an engine's bytes for a scratchpad (`asid`: the space whose regions accept them, R229;
`hold`: words in which the engine has more to write, R104;
`skip`: granules that are already there, R138). -/
inductive HomeOp
  | read (pa n : Nat)
  | write (pa n v : Nat) (va : Word)
  | back (line : Nat) (m : MaskV) (data : Line)
  | amo (pa size op : Nat) (data : List Byte)
  | put (off n v : Nat) (asid : Option (BitVec 12)) (hold skip : List Nat)
  deriving DecidableEq, Repr

/-- Its answer: done, a line with its uncorrectable bytes, an atomic's old value, an uncorrectable operand, or the first granule refused. -/
inductive HomeAns
  | done
  | data (x : Line) (bad : MaskV)
  | old (v : Nat)
  | bad
  | refused (granule : Nat)
  deriving DecidableEq, Repr

/-- An answer that a waiting instruction finds when it is executed again. -/
inductive Ans
  | asked                            -- the request is on its way
  | accepted                         -- R238, R58 slot written, R100 complete
  | stale                            -- no entry, or GEN differs
  | refused                          -- R237
  | failed                           -- R425: the fifth attempt timed out
  | placeNow (entry : Nat)           -- R58
  | full (entry : Nat)
  | got (x : Word) (c bad : Bool)    -- R218: the word that released an ldf or ldfe, its scope .c, uncorrectable
  | home (x : HomeAns)               -- R424: what a home or a tile answered to a request
  deriving DecidableEq, Repr

/-! ### Strands -/

/-- A register that a lookahead window holds back (R152). -/
inductive Dst
  | g (r : GReg)
  | v (r : VReg)
  deriving DecidableEq, Repr

/-- A held result: the words of its window still to issue, and what it will write. -/
structure Held where
  dst : Dst
  left : Nat
  val : Line
  tag : Tag
  deriving DecidableEq, Repr

/-! ### Accesses (R210) -/

/-- A translation: what it names. -/
structure Xl where
  pa : Nat
  mt : Nat
  size : Nat
  leaf : Word
  deriving DecidableEq, Repr

/-- Where the bytes of one line of an access lie. -/
inductive Place
  | scr (off : Nat)
  | stash (off : Nat) (pa : Option Xl)
  | mem (x : Xl)
  deriving DecidableEq, Repr

structure Piece where
  /-- VA and length; a piece lies in one 128 B line. -/
  va : Word
  len : Nat
  place : Place
  deriving DecidableEq, Repr

/-- A load whose data is outstanding: its pieces by address, checked when it issued, and the words of its window still to issue. `gone`: a
window word has written the destination, so that nothing will be (R152). -/
structure Late where
  i : Instr
  dst : Dst
  pieces : List (Word × List Piece)
  /-- The bit of its first byte at which a packed load begins (R215). -/
  bit : Nat
  pc : Word
  left : Nat
  gone : Bool
  deriving DecidableEq, Repr

/-- An arrival in a barrier generation (R243, R244). -/
structure Arrival where
  kind : Fin 5
  level : Level
  val : Word
  /-- 0: on its way to its own router; 1: held at router `at_`; 2: the generation is complete and the completion on its way;
  3: passed on by `at_` in its combined value, on its way to the next router (R326). -/
  stage : Nat := 0
  at_ : Nat := 0
  /-- The generation's result, once the completion has arrived. -/
  result : Option Word := none
  deriving DecidableEq, Repr

/-- A piece of the access in progress that has been performed apart from the others (R124, R133): its place in the order of the
instruction's pieces, and what it read. -/
structure Part where
  n : Nat
  val : Nat
  bad : Bool
  deriving DecidableEq, Repr

/-- What a `spawn` that waits has read and checked: the record, its affinity address and its counter cell's (R188). -/
structure Spawning where
  body : BitVec 512
  pa : Nat
  cell : Nat
  deriving DecidableEq, Repr

/-- A context frame with its strand (R26–R31), and what the tile keeps beside it. -/
structure Strand where
  key : Key
  tile : BitVec 10
  -- line 0
  pc : Word
  qheld : BitVec 16
  supv : Bool
  intrap : Bool
  state : BitVec 3
  vtag : Vector Tag 16
  ctab : BitVec 128
  cgrp : Byte
  prio : BitVec 2
  lfsr : BitVec 32
  reason : BitVec 4
  pend : BitVec 16
  frptr : Word
  dom : Word
  trappc : Word
  taddr : Word
  tinfo : Word
  tcause : BitVec 16
  tvec : Word
  home : Word
  -- lines 1–4, 8–24, 28–30
  g : Vector Word 32
  m : Vector MaskV 8
  k : Vector Word 8
  xw : Vector Word 8
  v : Vector Line 16
  save : Vector Word 16
  pword : Vector Word 8
  pkst : Word
  seq0 : BitVec 32
  seq1 : BitVec 32
  -- register cache (R33–R35, R373)
  present : BitVec 32
  dirty : BitVec 32
  retained : BitVec 32
  fresh : Bool
  /-- The lines of a fresh frame that have been created (R35). -/
  made : BitVec 32
  /-- Pool descriptor the frame came from (R47); none for a prepared frame. -/
  pool : Option Word
  -- issue
  /-- Where the strand continues when the pair in progress retires. -/
  npc : Word
  slot : Option (Fin 16)
  held : List Held
  /-- Loads whose data is outstanding, in program order (R142, R152, R211). -/
  late : List Late
  /-- Deferred data errors not yet taken, oldest first: the load's address and pair (R370). -/
  errs : List (Word × Word)
  wait : Option Wait
  blocked : Nat
  noticed : Bool
  slotCycles : Nat
  /-- Cycles that its packet has stayed open since a pre-emption reached its tile (R242, R394). -/
  pktCycles : Nat
  arrival : Option Arrival
  ans : Option Ans
  /-- Pieces of the access in progress that are already performed (R133). -/
  parts : List Part
  /-- Steps that the waiting instruction has already taken (R201, R222). -/
  did : Nat
  /-- Both slots of the pair in progress have passed their checks, and the first has begun (R149). -/
  begun : Bool
  /-- The access that it has begun, as it was checked. -/
  pieces : List (List Piece)
  /-- The first slot has been performed and the second waits, past its checks (R149). -/
  inSecond : Bool
  spawning : Option Spawning
  /-- `red.n` not yet performed (R225). -/
  redn : Nat
  /-- Line 0 became uncorrectable: its next fetch takes from memory what the hardware does not write at a park (R375). -/
  lost0 : Bool
  /-- A DELIVER set TCAUSE while parked with REASON 1 or 2 (R369). -/
  deliver : Bool
  /-- A KILL has arrived and is not yet taken (R369). -/
  killed : Bool
  /-- YIELD and EXIT take effect after the A slot (R149). -/
  leaving : Option Bool
  /-- A record (TOKEN) with a reply outstanding. -/
  tokens : List (BitVec 16 × BitVec 8)
  deriving DecidableEq, Repr

/-! ### Records and messages -/

/-- A task record with its record context (R41, R52). `hold` is 0 or an INFO of R403. -/
structure Rec where
  body : BitVec 512
  dom : Word
  asid : BitVec 12
  cgrp : Byte
  stamp : Word
  hold : Nat
  /-- Entry of the overflow area that holds it (R51, R413). -/
  spill : Option Nat
  deriving DecidableEq, Repr

/-- A host command's continuation once an answer arrives (R333). -/
structure CmdRef where
  queue : Fin 4
  done : Word
  deriving DecidableEq, Repr

/-- Who placed a counter waiter and waits for the answer: a strand's SPAWN or a LAUNCH command. -/
inductive Spawner
  | strand (key : Key)
  | command (asid : BitVec 12) (c : CmdRef)
  deriving DecidableEq, Repr

/-- A welt launch (R246, R247). -/
structure Range where
  base : Word
  len : Nat
  r : Bool
  w : Bool
  deriving DecidableEq, Repr

/-- One page of a segment list (R294): range, page VA, page bytes, stack-local address of the page, physical address, leaf rights. -/
structure Seg where
  range : Nat
  va : Nat
  bytes : Nat
  loc : Nat
  pa : Nat
  w : Bool
  deriving DecidableEq, Repr

structure Kernel where
  asid : BitVec 12
  tile : BitVec 10
  key : Key
  kreg : KReg
  seq : BitVec 16
  stack : Nat
  image : Nat
  imageEnd : Nat
  ranges : List Range
  segs : List Seg
  args : List Word
  supv : Bool
  /-- `hcancel` has reached the scheduler (R316). -/
  cancel : Bool := false
  /-- INVL found a page changed (R317). -/
  unmapped : Bool := false
  /-- The launch's RORD and SEQ, which its completion carries (R321, R323). -/
  rord : BitVec 3 := 0
  mseq : BitVec 6 := 0
  deriving DecidableEq, Repr

/-- The contents of a message (R238, R240, R51, R55, R56, R61, R225, R247, R314, R364, R367). -/
inductive Body
  | redn (key : Key) (pa : Nat) (op : Nat) (wide : Bool) (val : Word)
  | enq (r : Rec) (climb : Bool) (cmd : Option CmdRef := none)
  | eyelet (key : Key) (id : Word) (cls : Bool) (pkt : Bool) (words : List Word) (seq : BitVec 32)
  | record (w : List Word)
  | reply (w0 w1 : Word)
  | arrival (key : Key) (a : Arrival)
  | completion (key : Key) (a : Arrival) (dom : Word) (result : Word)
  /-- A router's combined value for the next router of the tree (R326): the team by one of its strands' keys and DOM. -/
  | combined (key : Key) (a : Arrival) (dom : Word)
  /-- A request to a home or to a tile (R324). `got`: its answer, once that has arrived, or none when its last attempt has timed out. -/
  | access (key : Key) (op : HomeOp) (got : Option (Option HomeAns))
  | decrement (asid : BitVec 12) (pa : Nat) (cell : Word)
  | waiter (who : Spawner) (pa : Nat) (entry : Nat)
  | release (entry : Nat)
  | probe (dir : Nat)
  | launch (k : Kernel)
  | weltEnd (k : Kernel) (status : Byte) (info : BitVec 32)
  deriving DecidableEq, Repr

/-- Where a message stands: sent, lost, performed with its answer on the way, that answer lost, or reissued after its answer was lost (R422–R424). -/
inductive MsgSt
  | sent
  | lost
  | answered (a : Ans)
  | ansLost (a : Ans)
  | dup (a : Ans)
  deriving DecidableEq, Repr

/-- Classes of R324, in the order of their codes. -/
inductive Cls
  | req | rsp | msg0 | msg1 | enq | sync
  deriving DecidableEq, Repr

/-- A message in flight: header fields of R324, attempts and hold notices (R422). Tile 1,024 stands for the sole die. -/
structure Msg where
  cls : Cls
  src : Nat
  dst : Nat
  ord : BitVec 3
  rord : BitVec 3
  esc : Bool
  /-- Hops made on the primary channel before the switch to the escape channels (R322). -/
  escAt : Nat
  det : Bool
  seq : BitVec 6
  attempt : Nat
  holds : Nat
  st : MsgSt
  body : Body
  /-- ESC, the hops before the switch, and DET of its answer. -/
  backEsc : Bool := false
  backAt : Nat := 0
  backDet : Bool := false
  deriving DecidableEq, Repr

/-- A request sent to another package and not yet answered (R328, R426). -/
structure Packet where
  key : Key
  hdr : BitVec 128
  data : List Byte
  port : Nat
  attempt : Nat
  /-- The address that the strand gave. -/
  va : Word := 0
  /-- The response: its TYPE and payload (R328). -/
  reply : Option (BitVec 4 × List Byte)
  deriving DecidableEq, Repr

/-! ### Storage -/

/-- A line of the L1 or of the stash (R106, R110). `addr` is the physical line number, or the scratchpad line for a stash. -/
structure CLine where
  addr : Nat
  asid : BitVec 12
  valid : Bool
  dirty : MaskV
  data : Line
  priv : Bool
  mt : BitVec 2
  /-- Its uncorrectable 8 B words (R375). -/
  bad : BitVec 16
  /-- The VA through which it was filled or first written, for R389's TADDR. -/
  va : Word
  deriving DecidableEq, Repr

/-- A line of the L2 (R112): present and newer than DRAM where dirty. -/
structure L2Line where
  addr : Nat
  dirty : MaskV
  data : Line
  deriving DecidableEq, Repr

/-- A cached leaf (R97): size 0 for 64 KiB, 1 for 2 MiB, 2 for 512 MiB. -/
structure Tlb where
  asid : BitVec 12
  size : Nat
  page : Nat
  leaf : Word
  deriving DecidableEq, Repr

/-- A non-leaf entry of the walker cache (R97): level and the VA bits above it. -/
structure Wentry where
  asid : BitVec 12
  level : Nat
  prefix_ : Nat
  entry : Word
  deriving DecidableEq, Repr

/-- A stash map (R105). -/
structure Stash where
  asid : BitVec 12
  base : Word
  off : Nat
  len : Nat
  deriving DecidableEq, Repr

/-! ### Engines of a tile -/

/-- A piece that a copy has read and not yet written (R137): its number, destination, the checked pieces there, and the bytes. -/
structure CopyWrite where
  n : Nat
  dst : Word
  len : Nat
  pieces : List Piece
  hold : List Nat
  val : Nat
  deriving DecidableEq, Repr

structure Copy where
  key : Key
  kreg : KReg
  seq : BitVec 16
  asid : BitVec 12
  cgrp : Byte
  supv : Bool
  src : Word
  dst : Word
  rowlen : Nat
  rows : Nat
  sstride : Word
  dstride : Word
  remote : Bool
  dtile : Nat
  /-- Next piece to issue. -/
  next : Nat
  /-- Pieces issued and not yet written. -/
  pend : List CopyWrite
  /-- STATUS and INFO once stopped. -/
  stop : Option (Byte × BitVec 32)
  deriving DecidableEq, Repr

structure Prefetch where
  key : Key
  kreg : KReg
  seq : BitVec 16
  asid : BitVec 12
  supv : Bool
  va : Word
  len : Nat
  /-- Lines behind it: filled, resident or passed over. -/
  done : Nat
  stop : Option (Byte × BitVec 32)
  deriving DecidableEq, Repr

/-- The MMA forms of R281, in the order of their function values. -/
inductive MmaForm
  | e4m3 | e5m2 | e2m1 | i8 | c4i8 | ti8 | bf16 | f16
  deriving DecidableEq, Repr

/-- An operation of the matrix unit's queue: an MMA with its form, or a `qsend`. -/
structure MatOp where
  key : Key
  kreg : KReg
  seq : BitVec 16
  q : QReg
  form : Option MmaForm
  a : Word
  b : Word
  ctab : BitVec 128
  /-- Scratchpad regions that an MMA's operands lie in (R109). -/
  uses : BitVec 32
  /-- Operand granules of an MMA already read, by offset: their 64 bytes, and whether a word was uncorrectable (R139); or granules of an image
  already written at its destination (R138). -/
  got : List (Nat × Nat × Bool)
  /-- STATUS and INFO of a `qsend` whose destination has answered. -/
  sent : Option (Byte × BitVec 32) := none
  deriving DecidableEq, Repr

/-- One accumulator element: ACC and FL (R81, R272). -/
structure Elem where
  acc : BitVec 64
  fl : BitVec 2
  deriving DecidableEq, Repr

/-- A physical accumulator (R272). An empty list is 1,024 zero elements. -/
structure Accum where
  bind : Option (Key × QReg)
  anchor : BitVec 11
  elems : List Elem
  /-- An uncorrectable element (R375). -/
  bad : Bool
  /-- Pre-emption could not drain it (R373). -/
  retained : Bool
  /-- Its save area is not yet read back (R275). -/
  restoring : Bool := false
  deriving DecidableEq, Repr

/-- A message whose payload is entering a slot (R138, R237): its header, and the words that are not yet there. -/
structure Arriving where
  slot : Nat
  hdr : Word
  left : List (Nat × Word)
  deriving DecidableEq, Repr

/-- An eyelet entry (R234–R237). -/
structure Eyelet where
  gen : BitVec 16
  live : Bool
  owner : Key
  ring : Word
  ringN : Nat
  scr : Nat
  busy : BitVec 32
  /-- Headers of the buffer's messages, oldest first. -/
  queue : List Word
  /-- Ring position of the oldest entry, and entries in use. -/
  rhead : Nat
  rcount : Nat
  last : Option (Fin 32)
  arriving : Option Arriving := none
  deriving DecidableEq, Repr

/-- An item that waits for a reply or for its space: a retained drain, a held completion or cell write, a ring access, a
spill, a deferral entry (R365, R373, R195, R407, R58). -/
inductive Item
  | handle (key : Key) (k : KReg) (w : Word)
  | cell (key : Key) (cell : Word) (w : Word) (token : BitVec 16)
  /-- A message held at the tile that it reached (R58, R237). -/
  | ring (msg : Msg) (token : BitVec 16)
  | drain (acc : Nat) (token : BitVec 16)
  | line (key : Key) (n : Nat) (token : BitVec 16)
  /-- With the LAUNCH command that waits for the record to be stored (R334). -/
  | spill (r : Rec) (cmd : Option CmdRef) (token : BitVec 16)
  | defer (key : Key) (r : Rec) (token : BitVec 16)
  | hold (r : Rec) (token : BitVec 16)
  | pump (idx : Nat) (token : BitVec 16)
  /-- A held reply; beyond 256 they lie in entries of the overflow area (R407, R413). -/
  | reply (w0 w1 : Word) (entry : Option Nat)
  /-- One whose entry could not be read back, and one whose entry could not be written (R414). -/
  | replySpill (entry : Nat) (token : BitVec 16)
  | replyStore (w0 w1 : Word) (token : BitVec 16)
  deriving DecidableEq, Repr

/-- Idle and steal state (R55): probe direction, refusals, cycles waited. -/
structure Idle where
  on : Bool
  cycles : Nat
  dir : Nat
  wait : Nat
  deriving DecidableEq, Repr

structure Tile where
  cyc : Word
  wdogt : BitVec 40
  dord : BitVec 18
  ovf : Word
  dfr : Word
  scrasid : Vector (BitVec 13) 32
  /-- Writes of SCRASID that wait for accesses accepted before them (R109): region and value. -/
  scrasidNext : List (Nat × BitVec 13)
  /-- Scratchpad bytes by offset, canonical; full words, words whose recorded scope is .c, uncorrectable words (R103, R104, R138). -/
  scratch : List Host.Cell
  full : List Nat
  scopeC : List Nat
  badw : List Nat
  l1 : List CLine
  icache : List (Nat × Line)
  tlb1 : List Tlb
  tlb2 : List Tlb
  stashes : List (Nat × Stash)
  slines : List CLine
  deque : List Rec
  d : Word
  /-- ENQ records in flight from this tile, by destination (R49). -/
  credits : List (Nat × Nat)
  /-- Deferral entries in use (R58). -/
  deferrals : List Nat
  handleCount : BitVec 16
  recordCount : BitVec 16
  accs : Vector Accum 16
  mat : List MatOp
  copies : List Copy
  prefetches : List Prefetch
  launches : Nat
  /-- Cells of exported handles still pending (R201): handle SEQ, strand, cell. -/
  exports : List (BitVec 16 × Key × Word)
  /-- Handle SEQs of exports whose done word is written and not yet acknowledged at its home (R201). -/
  exported : List (BitVec 16)
  eyelets : List (Nat × Eyelet)
  figures : List (Nat × Nat)
  idle : Idle
  out : Bool
  items : List Item
  /-- Records about items that are not answered yet: TOKEN and STRAND word (R365). -/
  owed : List (BitVec 16 × Word)
  /-- Cobbler tiles: record queue, records placed, next reply slot (R366, R367); `placed` counts the records placed. -/
  cobq : List (List Word)
  placed : Word
  reply : Nat
  /-- Patch table (R419) and failed ports (R418). -/
  patch : List (BitVec 16)
  failed : List Port
  /-- CYC of the CRC failures at each port (R418). -/
  crc : List (Port × List Word)
  /-- Messages discarded at a failed link (R421). -/
  lostMsgs : Nat
  /-- Directory of the register cache, most recent first: ASID and handle, line (R33, R34). -/
  rdir : List (Key × Nat)
  /-- Strands served by `ldfe` and `stef` in the order in which they blocked (R218). -/
  feq : List (Nat × Key)
  /-- Corrected errors by store, numbered by the rows of R375 (R376). -/
  corr : List (Nat × Nat)
  /-- The issue slot that was selected last (R40). -/
  lastSlot : Fin 16
  deriving DecidableEq, Repr

/-! ### Layers, stacks and welt cores -/

structure Layer where
  clk : BitVec 16
  allow : BitVec 16
  temp : Byte
  req : BitVec 16
  /-- Successive refreshes with ALLOW = 0, or with ALLOW ≥ 168, and the MHz lowered (R431). -/
  zeros : Nat
  highs : Nat
  lowered : Nat
  lim95 : Bool
  lim105 : Bool
  lltlb : List Tlb
  deriving DecidableEq, Repr

/-- A posted DRAM write or near atomic of a core (R307, R312): local address and bytes, or A with the operation. -/
inductive Posted
  | write (loc : Nat) (len : Nat) (data : BitVec 512)
  | faddn (loc : Nat) (a : BitVec 512) (rm : Rnd)
  | fmaxn (loc : Nat) (a : BitVec 512)
  deriving DecidableEq, Repr

structure Core where
  a : BitVec 512
  atag : Tag
  p : Vector Word 8
  c : Word
  f : Word
  pc : BitVec 18
  sram : List Host.Cell
  kern : Option Kernel
  posted : List Posted
  /-- 64 B DRAM reads performed, for INFO (R300), and 64 B granules written (R193). -/
  reads : BitVec 32
  writes : BitVec 32
  /-- Banks clamped: channel and bank (R310). -/
  clamps : List (Nat × Nat)
  /-- The kernel waits for its clamp. -/
  waiting : Bool
  /-- A condition that ends the kernel at the boundary it has reached: STATUS and INFO. -/
  ends : Option (Byte × BitVec 32)
  deriving DecidableEq, Repr

/-- A suspended kernel in its save slot (R315). -/
structure Saved where
  slot : Nat
  core : Core
  deriving DecidableEq, Repr

structure Stack where
  wsave : Word
  inService : Bool
  /-- Channels whose LIVE differs from the fuse record's (R114). -/
  bavail : List (Nat × BitVec 36)
  service : BitVec 16
  spare : Bool
  queue : List Kernel
  suspended : List Saved
  restores : List Saved
  /-- Clamp requests waiting, in arrival order: core and banks (R310). -/
  clampq : List (Nat × List (Nat × Nat))
  /-- Postponed refreshes by bank (R318). -/
  postponed : List ((Nat × Nat) × Nat)
  fast : Bool
  /-- Corrected errors by bank (R376, R427). -/
  corr : List ((Nat × Nat) × Nat)
  deriving DecidableEq, Repr

/-! ### The cube -/

/-- Who an INVL reports to (R100, R233, R333, R120). -/
inductive InvlFor
  | strand (key : Key)
  | command (c : CmdRef)
  | migrateBusy
  | migrateFlip
  | migrateUndo
  deriving DecidableEq, Repr

/-- An INVL in progress: form 0 range, 1 ASID, 2 all; receivers left: tiles 0–1,023, 1,024 the walker cache, 1,025 the welt scheduler. -/
structure Invl where
  form : BitVec 2
  asid : BitVec 12
  va : Word
  len : Word
  who : InvlFor
  left : BitVec 1026
  deriving DecidableEq, Repr

structure Queue where
  base : Word
  size : Word
  head : Word
  tail : Word
  /-- A command in progress waits for an event. -/
  busy : Bool
  deriving DecidableEq, Repr

/-- A pre-emption in progress (R63): its space, the next step, the commands that wait for it. -/
structure Preempt where
  asid : BitVec 12
  step : Nat
  who : List CmdRef
  deriving DecidableEq, Repr

/-- A migration in progress (R120). -/
structure Migration where
  va : Word
  asid : BitVec 12
  newpa : Word
  done : Word
  who : CmdRef
  leafpa : Nat
  size : Nat
  oldpa : Nat
  /-- 64 B granules already copied. -/
  next : Nat
  /-- INVL receivers of the flip that have not answered (R121). -/
  drain : Nat
  status : Nat
  deriving DecidableEq, Repr

/-- The management controller's phases (R335, R336, R431). -/
inductive Phase
  | off
  | starting (step : Fin 11)
  | recovery
  | running
  deriving DecidableEq, Repr

/-- Whose turn it is when the schedule is empty. -/
inductive Agent
  | none
  | strand (key : Key)
  | core (stack : Fin 12) (core : Fin 16)
  deriving DecidableEq, Repr

/-- A soft error or a worn cell, which comes from outside the machine (R375, R376, log 22): one that a unit corrects, or one
that leaves what it holds uncorrectable. Stores of a tile are numbered by the rows of R375: 0 its register cache, 1 the instruction
cache, 2 the scratchpad, 3 the L1, 4 the accumulators. -/
inductive Soft
  | tile (tile : BitVec 10) (store : Fin 5)
  | slice (n : Fin 64)
  | bank (stack : Fin 12) (ch : Fin 32) (bank : Fin 36)
  | regLine (key : Key) (n : Fin 32)
  | icache (tile : BitVec 10) (line : Nat)
  | scratch (tile : BitVec 10) (word : BitVec 18)
  | l1 (tile : BitVec 10) (asid : BitVec 12) (line : Nat) (word : Fin 16)
  | accum (tile : BitVec 10) (n : Fin 16)
  | granule (n : Nat)
  /-- A signal of the direction out of a router (R417); 1,024 and up: the sole die's ends of the sole links. -/
  | signal (router : Fin 2048) (port : Port)
  | configBlock
  deriving DecidableEq, Repr

/-- One entry of the schedule (log 1): an issuing strand; the slot that round robin selects at a tile among those that do not stall
(R40); an issuing strand, or an event, whose requests travel as messages and are performed where they arrive (R324, R424); one piece of the
access of a strand's next pair (R133); a copy's next piece read and not yet written, or one such piece written (R137); a welt core; an event of
the opcode table; cycles of one tile; an operand granule that the matrix unit reads, or a granule of an image that it writes (R138, R139); a message accepted
whose words enter its slot one by one, or one such word (R138); an L2 line that its slice displaces (R112); or a soft error. -/
inductive Choice
  | strand (key : Key)
  | select (tile : BitVec 10) (stalled : BitVec 16)
  | sent (key : Key)
  | sentEvent (i : Instr)
  | piece (key : Key) (n : Nat)
  | copyIssue (tile : BitVec 10)
  | copyWrite (tile : BitVec 10) (copy n : Nat)
  | mmaRead (tile : BitVec 10) (granule : BitVec 15)
  | slotOpen (msg : Nat)
  | slotWord (tile : BitVec 10) (idx : Fin 64) (word : Fin 8)
  | core (stack : Fin 12) (core : Fin 16)
  | event (i : Instr)
  | pass (tile : BitVec 10) (cycles : Nat)
  | displace (line : Nat)
  | soft (e : Soft)
  deriving DecidableEq, Repr

/-- A translation made by the pair in progress, for replay when the pair is undone (R384). -/
structure Walk where
  va : Word
  store : Bool
  fetch : Bool
  charge : Bool
  deriving DecidableEq, Repr

/-- The whole machine. -/
structure State where
  -- memory
  mem : List Host.Cell
  /-- Uncorrectable 8 B words of memory, by address / 8 (R375). -/
  bad : List Nat
  /-- Values that decrements have written to counter cells, by the COUNT's address (R59). -/
  counts : List (Nat × Word)
  l2 : List L2Line
  /-- Corrected errors by L2 slice (R376). -/
  corrL2 : List (Nat × Nat)
  sptbase : Word
  chgbase : Word
  nearsz : BitVec 7
  pkgid : BitVec 3
  spare : BitVec 4
  locked : Bool
  walker : List Wentry
  -- agents
  tiles : List (Nat × Tile)
  strands : List Strand
  layers : List (Nat × Layer)
  stks : List (Nat × Stack)
  cores : List (Nat × Core)
  msgs : List Msg
  /-- Next SEQ of each (source, destination, class) (R323). -/
  seqs : List (Nat × BitVec 6)
  invls : List Invl
  -- ports and host
  optmap : Vector (BitVec 4) 32
  packets : List Packet
  portOut : List (Nat × BitVec 128 × List Byte)
  portSeq : BitVec 16
  /-- Answers to other packages' requests, by SPKG and TAG and SEQ (R424, R426). -/
  portSeen : List (Nat × BitVec 128 × List Byte)
  queues : Vector Queue 4
  logbase : Word
  logsize : Word
  loghead : Word
  logtail : Word
  loglost : Word
  logpost : Vector Word 8
  hreply : Word
  /-- Times that MSI-X vector 0 was signalled (R377). -/
  msix : Nat
  /-- Lines that the host holds under CXL.cache (R91). -/
  cxl : List Nat
  -- spaces
  absent : List (BitVec 12)
  preempts : List Preempt
  /-- RESUME commands that wait for a pre-emption to complete (R333). -/
  resumes : List (BitVec 12 × CmdRef)
  migrating : Option Migration
  -- management controller
  phase : Phase
  startNo : BitVec 32
  record : Vector (BitVec 128) 11
  config : BitVec 128
  /-- The configuration block passes its integrity check (R335). -/
  configOk : Bool
  fuseSpare : BitVec 4
  /-- What step 3 of this start read of the fuse record and the configuration block. -/
  spareRead : BitVec 4
  configRead : BitVec 128
  /-- Firmware slots A and B (R336). -/
  fwA : Firmware
  fwB : Firmware
  /-- The fuses' digests of the two public keys, and the minimum version (R336). -/
  edDigest : BitVec 384
  mlDigest : BitVec 384
  minVersion : Nat
  /-- THERM entries in the controller's own memory: the sensor (16 the sole die) and its temperature (R431). -/
  therm : List (Nat × Nat)
  /-- Signals that have failed, by router, port and direction out of it (R417). -/
  sigs : List ((Nat × Port) × Nat)
  opticalDown : BitVec 32
  -- the model's own
  schedule : List Choice
  turn : Agent
  me : Strand
  view : Option Strand
  core : Core
  coreAt : Nat
  ended : Ended
  walkLog : List Walk
  /-- The one piece that this step performs, and the next piece's number (R133). -/
  part : Option Nat
  pieceNo : Nat
  /-- This step's requests travel as messages (R324). -/
  onLinks : Bool
  /-- The instruction has passed its checks (R149, R383). -/
  passed : Bool
  /-- Strands whose pair has performed its first slot and waits in its second, as the pair found them, and that instruction (R149). -/
  half : List (Strand × Instr)
  deriving DecidableEq, Repr

/-- Why a step stops with a fault. No instruction of the manual ends so; see `stuck`. -/
inductive Fault
  /-- Raised by `step` when the schedule is empty and no agent has the turn, or the agent named has nothing to execute. Safe:
  the machine makes no step that the hardware would not make. -/
  | idle
  /-- Raised by `step` when the controller has stopped in recovery (R336, R338) and nothing is scheduled. Safe. -/
  | recovery
  deriving DecidableEq, Repr

/-- Why an instruction has no meaning. -/
inductive Refusal
  /-- Raised by `exec`'s arm of an instruction that the model has not reached. Safe. -/
  | notModelled (mnemonic : String)
  deriving DecidableEq, Repr

/-! ### Reset -/

/-- A frame that no strand uses: all zero, tags raw. DESIGN CHOICE (unsafe), log 3. -/
def Strand.reset : Strand where
  key := ⟨0xFFF, BitVec.allOnes 45⟩
  tile := 0
  pc := 0
  qheld := 0
  supv := false
  intrap := false
  state := 0
  vtag := Vector.replicate 16 .raw
  ctab := 0
  cgrp := 0
  prio := 0
  lfsr := 0
  reason := 0
  pend := 0
  frptr := 0
  dom := 0
  trappc := 0
  taddr := 0
  tinfo := 0
  tcause := 0
  tvec := 0
  home := 0
  g := Vector.replicate 32 0
  m := Vector.replicate 8 0
  k := Vector.replicate 8 0
  xw := Vector.replicate 8 0
  v := Vector.replicate 16 0
  save := Vector.replicate 16 0
  pword := Vector.replicate 8 0
  pkst := 0
  seq0 := 0
  seq1 := 0
  present := 0
  dirty := 0
  retained := 0
  fresh := false
  made := 0
  pool := none
  npc := 0
  slot := none
  held := []
  late := []
  errs := []
  wait := none
  blocked := 0
  noticed := false
  slotCycles := 0
  pktCycles := 0
  arrival := none
  ans := none
  parts := []
  did := 0
  begun := false
  pieces := []
  inSecond := false
  spawning := none
  redn := 0
  lost0 := false
  deliver := false
  killed := false
  leaving := none
  tokens := []

/-- A free accumulator. Its contents at reset: DESIGN CHOICE 0 (unsafe), log 3. -/
def Accum.reset : Accum := { bind := none, anchor := 0, elems := [], bad := false, retained := false }

/-- A tile at tile start (R335 step 9 and the Reset columns of R204, R321, R413, R58, R229). -/
def Tile.reset : Tile where
  cyc := 0
  wdogt := 0x1000000
  dord := 0
  ovf := 0
  dfr := 0
  scrasid := Vector.replicate 32 0
  scrasidNext := []
  scratch := []
  full := []
  scopeC := []
  badw := []
  l1 := []
  icache := []
  tlb1 := []
  tlb2 := []
  stashes := []
  slines := []
  deque := []
  d := 0
  credits := []
  deferrals := []
  handleCount := 0
  recordCount := 0
  accs := Vector.replicate 16 Accum.reset
  mat := []
  copies := []
  prefetches := []
  launches := 0
  exports := []
  exported := []
  eyelets := []
  figures := []
  idle := { on := false, cycles := 0, dir := 0, wait := 0 }
  out := false
  items := []
  owed := []
  cobq := []
  placed := 0
  reply := 0
  patch := []
  failed := []
  crc := []
  lostMsgs := 0
  rdir := []
  feq := []
  corr := []
  lastSlot := 15

/-- TALLOW's reset values (R208). The requested clock: DESIGN CHOICE 2,000 (unsafe), log 3. -/
def Layer.reset : Layer where
  clk := 2000
  allow := 1680
  temp := 0
  req := 2000
  zeros := 0
  highs := 0
  lowered := 0
  lim95 := false
  lim105 := false
  lltlb := []

/-- The fuse record's stacks and cores in service: PRESUMED (unsafe), log 4. -/
def Stack.reset : Stack where
  wsave := 0
  inService := true
  bavail := []
  service := BitVec.allOnes 16
  spare := true
  queue := []
  suspended := []
  restores := []
  clampq := []
  postponed := []
  fast := false
  corr := []

/-- A core that holds no kernel (the registers as R297 starts them). -/
def Core.reset : Core where
  a := 0
  atag := .raw
  p := Vector.replicate 8 0
  c := 0
  f := 0
  pc := 0
  sram := []
  kern := none
  posted := []
  reads := 0
  writes := 0
  clamps := []
  waiting := false
  ends := none

/-- The firmware that a part ships with: signatures of R336's lengths. PRESUMED (unsafe), logs 4 and 68. -/
def Firmware.reset : Firmware :=
  { image := [], version := 0, edKey := [], edSig := List.replicate 64 0, mlKey := [], mlSig := List.replicate 3309 0 }

/-- Right after reset: power is about to be applied, tiles are in reset (R335). -/
def State.reset : State where
  mem := []
  bad := []
  counts := []
  l2 := []
  corrL2 := []
  sptbase := 0
  chgbase := 0
  nearsz := 0
  pkgid := 0
  spare := 8
  locked := false
  walker := []
  tiles := []
  strands := []
  layers := []
  stks := []
  cores := []
  msgs := []
  seqs := []
  invls := []
  optmap := Vector.replicate 32 0
  packets := []
  portOut := []
  portSeq := 0
  portSeen := []
  queues := Vector.replicate 4 { base := 0, size := 0, head := 0, tail := 0, busy := false }
  logbase := 0
  logsize := 0
  loghead := 0
  logtail := 0
  loglost := 0
  logpost := Vector.replicate 8 0
  hreply := 0
  msix := 0
  cxl := []
  absent := []
  preempts := []
  resumes := []
  migrating := none
  phase := .off
  startNo := 0
  record := Vector.replicate 11 0
  config := 0
  configOk := true
  fuseSpare := 8
  spareRead := 8
  configRead := 0
  fwA := Firmware.reset
  fwB := Firmware.reset
  edDigest := 0
  mlDigest := 0
  minVersion := 0
  therm := []
  sigs := []
  opticalDown := 0
  schedule := []
  turn := .none
  me := Strand.reset
  view := none
  core := Core.reset
  coreAt := 0
  ended := .ok
  walkLog := []
  part := none
  pieceNo := 0
  onLinks := false
  passed := false
  half := []

end Sys2Proof.Machine
end

