-- ==== Sys2Proof/Machine/Bits.lean ====
section
/-!
DEFINITION. Bit fields, byte order (R3: little-endian) and the sparse tables in which State holds repeated elements.
-/

namespace Sys2Proof.Machine

/-- Bits hi:lo of a word, as a number. -/
def bits {w : Nat} (x : BitVec w) (hi lo : Nat) : Nat := (x.extractLsb' lo (hi + 1 - lo)).toNat

/-- `x` with bits hi:lo replaced. -/
def setBits {w : Nat} (x : BitVec w) (hi lo : Nat) (v : Nat) : BitVec w :=
  BitVec.ofNat w (x.toNat - bits x hi lo * 2 ^ lo + v % 2 ^ (hi + 1 - lo) * 2 ^ lo)

/-- Sign extension of the low `n` bits of a natural number to 64 bits. -/
def sext (n x : Nat) : Word :=
  if x % 2 ^ n < 2 ^ (n - 1) then BitVec.ofNat 64 (x % 2 ^ n) else BitVec.ofInt 64 ((x % 2 ^ n : Nat) - (2 ^ n : Nat) : Int)

/-- The low `n` bits of a natural number as a signed integer. -/
def sint (n x : Nat) : Int := if x % 2 ^ n < 2 ^ (n - 1) then (x % 2 ^ n : Nat) else ((x % 2 ^ n : Nat) : Int) - (2 ^ n : Nat)

/-! ### Sparse tables sorted by key -/

def look {α : Type} (k : Nat) : List (Nat × α) → Option α
  | [] => none
  | (j, x) :: r => if j = k then some x else look k r

def put {α : Type} (k : Nat) (v : α) : List (Nat × α) → List (Nat × α)
  | [] => [(k, v)]
  | (j, x) :: r => if k < j then (k, v) :: (j, x) :: r else if k = j then (k, v) :: r else (j, x) :: put k v r

def del {α : Type} (k : Nat) (l : List (Nat × α)) : List (Nat × α) := l.filter fun e => e.1 ≠ k

/-- A set of numbers, sorted without repeats. -/
def ins (k : Nat) : List Nat → List Nat
  | [] => [k]
  | j :: r => if k < j then k :: j :: r else if k = j then j :: r else j :: ins k r

/-! ### Memory as a canonical list of bytes -/

/-- What an address reads (an unlisted one: logs 2 and 5). -/
def Mem.read (m : List Host.Cell) (a : Nat) : Byte := (look a m).getD Config.unwritten

/-- Writing keeps the canonical form: the value of an unlisted address is not listed. -/
def Mem.write (m : List Host.Cell) (a : Nat) (b : Byte) : List Host.Cell :=
  if b = Config.unwritten then del a m else put a b m

/-- The canonical form: addresses strictly rising, and no entry equal to what an unlisted address reads as. -/
def Mem.wf : List Host.Cell → Bool
  | [] => true
  | [(_, b)] => b != Config.unwritten
  | (a, b) :: (a', b') :: r => b != Config.unwritten && decide (a < a') && Mem.wf ((a', b') :: r)

/-- `n` bytes from `a`, little-endian. -/
def Mem.readN (m : List Host.Cell) (a : Nat) : Nat → Nat
  | 0 => 0
  | n + 1 => (Mem.read m a).toNat + 256 * Mem.readN m (a + 1) n

def Mem.writeN (m : List Host.Cell) (a : Nat) : Nat → Nat → List Host.Cell
  | 0, _ => m
  | n + 1, x => Mem.writeN (Mem.write m a (BitVec.ofNat 8 x)) (a + 1) n (x / 256)

/-- Writes only the bytes whose mask bit is 1. -/
def Mem.writeMasked (m : List Host.Cell) (a : Nat) (mask : Nat) : Nat → Nat → List Host.Cell
  | 0, _ => m
  | n + 1, x => Mem.writeMasked (if mask % 2 = 1 then Mem.write m a (BitVec.ofNat 8 x) else m) (a + 1) (mask / 2) n (x / 256)

/-! ### Bytes of a line -/

/-- The bit mask whose byte j is all ones where mask bit j is 1. -/
def byteMask : Nat → Nat → Nat
  | 0, _ => 0
  | n + 1, m => (if m % 2 = 1 then 255 else 0) + 256 * byteMask n (m / 2)

def spread (m : MaskV) : Line := BitVec.ofNat 1024 (byteMask 128 m.toNat)

/-- `new` in the bytes that the mask names, `old` elsewhere. -/
def mergeLine (m : MaskV) (new old : Line) : Line := (new &&& spread m) ||| (old &&& ~~~ (spread m))

/-- The mask of bytes off to off + n − 1 of a line. -/
def lineMask (off n : Nat) : MaskV := (BitVec.allOnes n).setWidth 128 <<< off

/-- `n` bytes of a line from `off`. -/
def lineBytes (x : Line) (off n : Nat) : Nat := (x.extractLsb' (8 * off) (8 * n)).toNat

/-- A value placed at byte `off` of a line. -/
def linePut (off : Nat) (v : Nat) : Line := BitVec.ofNat 1024 (v <<< (8 * off))

/-- A list of bytes as a number, the first byte lowest, and back. -/
def bytesNat : List Byte → Nat
  | [] => 0
  | b :: r => b.toNat + 256 * bytesNat r
def natBytes : Nat → Nat → List Byte
  | 0, _ => []
  | n + 1, x => BitVec.ofNat 8 x :: natBytes n (x / 256)

/-- The position of the first element that satisfies `p`. -/
def firstIdx {α : Type} (p : α → Bool) : List α → Option Nat
  | [] => none
  | x :: r => if p x then some 0 else (firstIdx p r).map (· + 1)

/-- The list without its `i`-th element. -/
def dropAt {α : Type} : Nat → List α → List α
  | _, [] => []
  | 0, _ :: r => r
  | i + 1, x :: r => x :: dropAt i r

end Sys2Proof.Machine
end

