-- ==== Sys2Proof/Machine/Numbers.lean ====
section
/-!
DEFINITION. Number formats and the arithmetic rules of R66–R85: exact values, rounding in every mode, conversions, block
scales and exact accumulation.
-/

namespace Sys2Proof.Machine

/-! ### Formats (R66–R71) -/

/-- Container bits of R66. -/
def Tag.width : Tag → Nat
  | .raw | .i8 | .n8 | .e4m3 | .e5m2 | .e3m2 | .e2m3 => 8
  | .i16 | .n16 | .f16 | .bf16 => 16
  | .i32 | .n32 | .f32 => 32
  | .i64 | .n64 | .f64 => 64
  | .e2m1 | .c4 | .i4 => 4
  | .tern => 2

/-- Memory bits of R66. -/
def Tag.memWidth : Tag → Nat
  | .e3m2 | .e2m3 => 6
  | t => Tag.width t

def Tag.lanes (t : Tag) : Nat := 1024 / Tag.width t

/-- A floating format: code bits, fraction bits, bias, the code of the largest finite magnitude, and whether it has infinities
and NaNs (R68, R69). -/
structure Fmt where
  w : Nat
  m : Nat
  bias : Nat
  maxCode : Nat
  inf : Bool
  nan : Option Nat
  deriving DecidableEq, Repr

def fmtF64 : Fmt := { w := 64, m := 52, bias := 1023, maxCode := 0x7FEFFFFFFFFFFFFF, inf := true, nan := some 0x7FF8000000000000 }
def fmtF32 : Fmt := { w := 32, m := 23, bias := 127, maxCode := 0x7F7FFFFF, inf := true, nan := some 0x7FC00000 }
def fmtF16 : Fmt := { w := 16, m := 10, bias := 15, maxCode := 0x7BFF, inf := true, nan := some 0x7E00 }
def fmtBf16 : Fmt := { w := 16, m := 7, bias := 127, maxCode := 0x7F7F, inf := true, nan := some 0x7FC0 }
def fmtE4m3 : Fmt := { w := 8, m := 3, bias := 7, maxCode := 0x7E, inf := false, nan := some 0x7F }
def fmtE5m2 : Fmt := { w := 8, m := 2, bias := 15, maxCode := 0x7B, inf := true, nan := some 0x7E }
def fmtE3m2 : Fmt := { w := 6, m := 2, bias := 3, maxCode := 0x1F, inf := false, nan := none }
def fmtE2m3 : Fmt := { w := 6, m := 3, bias := 1, maxCode := 0x1F, inf := false, nan := none }
def fmtE2m1 : Fmt := { w := 4, m := 1, bias := 1, maxCode := 0x7, inf := false, nan := none }

/-- The floating format of a tag. -/
def Tag.fmt? : Tag → Option Fmt
  | .f64 => some fmtF64
  | .f32 => some fmtF32
  | .f16 => some fmtF16
  | .bf16 => some fmtBf16
  | .e4m3 => some fmtE4m3
  | .e5m2 => some fmtE5m2
  | .e3m2 => some fmtE3m2
  | .e2m3 => some fmtE2m3
  | .e2m1 => some fmtE2m1
  | _ => none

/-- An integer format's signedness and width (R67). -/
def Tag.int? : Tag → Option (Bool × Nat)
  | .i4 => some (true, 4)
  | .i8 => some (true, 8)
  | .i16 => some (true, 16)
  | .i32 => some (true, 32)
  | .i64 => some (true, 64)
  | .n8 => some (false, 8)
  | .n16 => some (false, 16)
  | .n32 => some (false, 32)
  | .n64 => some (false, 64)
  | _ => none

/-- `Sat(fmt, x)` of R67. -/
def satInt (signed : Bool) (w : Nat) (x : Int) : Int :=
  let lo : Int := if signed then -(2 ^ (w - 1) : Nat) else 0
  let hi : Int := if signed then (2 ^ (w - 1) : Nat) - 1 else (2 ^ w : Nat) - 1
  if x < lo then lo else if hi < x then hi else x

/-- The low `w` bits of an integer. -/
def wrapInt (w : Nat) (x : Int) : Nat := (BitVec.ofInt w x).toNat

/-! ### Exact values -/

/-- An exact value: NaN, an infinity, or ±(mag + θ) × 2^exp, where θ is 0, or lies strictly between 0 and 1 when `sticky`. -/
inductive Val
  | nan
  | inf (neg : Bool)
  | fin (neg : Bool) (mag : Nat) (exp : Int) (sticky : Bool := false)
  deriving DecidableEq, Repr

/-- The value of a code (R68, R69). -/
def Fmt.val (f : Fmt) (code : Nat) : Val :=
  let neg := code / 2 ^ (f.w - 1) % 2 = 1
  let c := code % 2 ^ (f.w - 1)
  if f.maxCode < c then (if f.inf && c = f.maxCode + 1 then .inf neg else .nan)
  else
    let e := c / 2 ^ f.m
    if e = 0 then .fin neg c (1 - (f.bias : Int) - (f.m : Int))
    else .fin neg (c % 2 ^ f.m + 2 ^ f.m) ((e : Int) - (f.bias : Int) - (f.m : Int))

def Val.ofInt (x : Int) : Val := .fin (x < 0) x.natAbs 0

def Val.isNan : Val → Bool
  | .nan => true
  | _ => false

def Val.neg : Val → Val
  | .nan => .nan
  | .inf s => .inf !s
  | .fin s m e k => .fin (!s) m e k

/-- A value times 2^n. -/
def Val.scale (v : Val) (n : Int) : Val :=
  match v with
  | .fin s m e k => .fin s m (e + n) k
  | v => v

/-- CTAB entry j (R71). -/
def ctabAt (ctab : BitVec 128) (j : Nat) : Int := sint 8 (ctab.toNat / 2 ^ (8 * (j % 16)))

/-- The value of a ternary code: the reserved code reads as 0 (R71). -/
def ternVal (c : Nat) : Int := if c % 4 = 1 then 1 else if c % 4 = 3 then -1 else 0

/-- The value of an element of a tag; raw bytes read as plain numbers. -/
def elemVal (t : Tag) (ctab : BitVec 128) (code : Nat) : Val :=
  match Tag.fmt? t, Tag.int? t with
  | some f, _ => f.val (code % 2 ^ f.w)
  | _, some (true, w) => .ofInt (sint w code)
  | _, some (false, w) => .ofInt ((code % 2 ^ w : Nat) : Int)
  | _, _ =>
    match t with
    | .tern => .ofInt (ternVal code)
    | .c4 => .ofInt (ctabAt ctab code)
    | _ => .ofInt ((code % 256 : Nat) : Int)

/-! ### Rounding (R73–R75) -/

/-- One step of the LFSR (R74). -/
def lfsrStep (s : BitVec 32) : BitVec 32 :=
  (s <<< 1) ||| BitVec.ofNat 32 (Bool.xor (Bool.xor (s.getLsbD 31) (s.getLsbD 21)) (Bool.xor (s.getLsbD 1) (s.getLsbD 0))).toNat

def lfsrSteps : Nat → BitVec 32 → BitVec 32
  | 0, s => s
  | n + 1, s => lfsrSteps n (lfsrStep s)

/-- The state after one SR rounding: a zero state is never used (R74). -/
def lfsrNext (s : BitVec 32) : BitVec 32 := lfsrSteps 16 (if s = 0 then 1 else s)

/-- The state after one rounding in a mode. -/
def lfsrAfter (mode : Rnd) (s : BitVec 32) : BitVec 32 := if mode = .sr then lfsrNext s else s

/-- Whether an inexact magnitude (n + (rem + θ)/2^k) rounds away from zero. `r16` is the stepped LFSR's low half. -/
def roundsAway (mode : Rnd) (neg : Bool) (n rem k : Nat) (sticky : Bool) (r16 : Nat) : Bool :=
  match mode with
  | .rne => 2 ^ k < 2 * rem || (2 * rem = 2 ^ k && (sticky || n % 2 = 1))
  | .rtz => false
  | .rup => !neg
  | .rdn => neg
  | .sr =>
    let fl := rem * 2 ^ 16 / 2 ^ k
    let exact := rem * 2 ^ 16 % 2 ^ k = 0 && !sticky
    if neg then (2 ^ 16 - (if exact then fl else fl + 1)) + r16 < 2 ^ 16 else 2 ^ 16 ≤ fl + r16

/-- A magnitude rounded to a multiple of 2^q, as that multiple. -/
def roundQ (mode : Rnd) (r16 : Nat) (neg : Bool) (mag : Nat) (exp : Int) (sticky : Bool) (q : Int) : Nat :=
  if q ≤ exp then mag * 2 ^ (exp - q).toNat
  else
    let k := (q - exp).toNat
    let n := mag / 2 ^ k
    let rem := mag % 2 ^ k
    if rem = 0 && !sticky then n
    else if roundsAway mode neg n rem k sticky r16 then n + 1 else n

/-- The exponent of a format's smallest subnormal. -/
def Fmt.qmin (f : Fmt) : Int := 1 - (f.bias : Int) - (f.m : Int)

def Fmt.sign (f : Fmt) (neg : Bool) : Nat := if neg then 2 ^ (f.w - 1) else 0

/-- What an overflow gives (R75). -/
def Fmt.overflow (f : Fmt) (sat : Bool) (mode : Rnd) (neg : Bool) : Nat :=
  let m := f.sign neg + f.maxCode
  if sat || !f.inf then m else
  match mode with
  | .rne | .sr => m + 1
  | .rtz => m
  | .rup => if neg then m else m + 1
  | .rdn => if neg then m + 1 else m

/-- `Round(fmt, x, mode)` as a code, with overflow (R75) and special values (R76); `s` is the LFSR's state after the step. -/
def Fmt.round (f : Fmt) (sat : Bool) (mode : Rnd) (s : BitVec 32) (x : Val) : Nat :=
  match x with
  | .nan => f.nan.getD 0
  | .inf neg => if sat || !f.inf then f.sign neg + f.maxCode else f.sign neg + f.maxCode + 1
  | .fin neg mag exp sticky =>
    if mag = 0 then f.sign neg
    else
      let top : Int := exp + (Nat.log2 mag : Int)
      let q := max (top - (f.m : Int)) f.qmin
      let c := (q - f.qmin).toNat * 2 ^ f.m + roundQ mode (s.toNat % 2 ^ 16) neg mag exp sticky q
      if f.maxCode < c then f.overflow sat mode neg else f.sign neg + c

/-- A value rounded to an integer, saturated to a range; NaN is 0 (R75, R76). -/
def roundInt (signed : Bool) (w : Nat) (mode : Rnd) (s : BitVec 32) (x : Val) : Int :=
  match x with
  | .nan => 0
  | .inf neg => satInt signed w (if neg then -(2 ^ w : Nat) else (2 ^ w : Nat))
  | .fin neg mag exp sticky =>
    let n := roundQ mode (s.toNat % 2 ^ 16) neg mag exp sticky 0
    satInt signed w (if neg then -(n : Int) else n)

/-- The index of the entry nearest to v, the smallest on a tie (R76). -/
def ctabNearest (ctab : BitVec 128) (v : Int) : Nat → Nat
  | 0 => 0
  | n + 1 =>
    let best := ctabNearest ctab v n
    if (ctabAt ctab (n + 1) - v).natAbs < (ctabAt ctab best - v).natAbs then n + 1 else best

/-- A lane as an instruction that moves it writes it: bits 7:6 of e3m2 and e2m3 zero, the reserved ternary code 0 (R66, R71). -/
def cleanLane (t : Tag) (x : Nat) : Nat :=
  match t with
  | .e3m2 | .e2m3 => x % 64
  | .tern => if x % 4 = 2 then 0 else x % 4
  | _ => x % 2 ^ Tag.width t

/-- A value converted to an element of a tag (R75, R76). Bits above the format's own are zero. -/
def toElem (t : Tag) (ctab : BitVec 128) (sat : Bool) (mode : Rnd) (s : BitVec 32) (x : Val) : Nat :=
  match Tag.fmt? t, Tag.int? t with
  | some f, _ => f.round sat mode s x
  | _, some (signed, w) => wrapInt w (roundInt signed w mode s x)
  | _, _ =>
    match t with
    | .tern => let v := roundInt true 8 mode s x; if v < 0 then 3 else if 0 < v then 1 else 0
    | .c4 => ctabNearest ctab (roundInt true 8 mode s x) 15
    | _ => wrapInt 8 (roundInt false 8 mode s x)

/-- One rounding of an element: its code, and the LFSR after it. -/
def rounded (t : Tag) (ctab : BitVec 128) (sat : Bool) (mode : Rnd) (s : BitVec 32) (x : Val) : Nat × BitVec 32 :=
  (toElem t ctab sat mode (lfsrAfter mode s) x, lfsrAfter mode s)

/-! ### Exact arithmetic (R72) -/

/-- The signed integer of a finite value at exponent e, which is at most its own. -/
def atExp (neg : Bool) (mag : Nat) (exp e : Int) : Int :=
  let n : Int := (mag * 2 ^ (exp - e).toNat : Nat)
  if neg then -n else n

/-- Exact sum; a zero sum is −0 in RDN and +0 else, unless both operands are zeros of one sign (R72). -/
def Val.add (mode : Rnd) (x y : Val) : Val :=
  match x, y with
  | .nan, _ => .nan
  | _, .nan => .nan
  | .inf a, .inf b => if a = b then .inf a else .nan
  | .inf a, _ => .inf a
  | _, .inf b => .inf b
  | .fin sx mx ex _, .fin sy my ey _ =>
    if mx = 0 && my = 0 then .fin (if sx = sy then sx else mode = .rdn) 0 0
    else
      let e := min ex ey
      let n := atExp sx mx ex e + atExp sy my ey e
      if n = 0 then .fin (mode = .rdn) 0 0 else .fin (n < 0) n.natAbs e

def Val.sub (mode : Rnd) (x y : Val) : Val := x.add mode y.neg

def Val.mul (x y : Val) : Val :=
  match x, y with
  | .nan, _ => .nan
  | _, .nan => .nan
  | .inf a, .inf b => .inf (a != b)
  | .inf a, .fin b m _ _ => if m = 0 then .nan else .inf (a != b)
  | .fin a m _ _, .inf b => if m = 0 then .nan else .inf (a != b)
  | .fin a m e _, .fin b n f _ => .fin (a != b) (m * n) (e + f)

/-- Quotient, to 128 bits below the divisor's width and a sticky remainder. -/
def Val.div (x y : Val) : Val :=
  match x, y with
  | .nan, _ => .nan
  | _, .nan => .nan
  | .inf _, .inf _ => .nan
  | .inf a, .fin b _ _ _ => .inf (a != b)
  | .fin a _ _ _, .inf b => .fin (a != b) 0 0
  | .fin a m e _, .fin b n f _ =>
    if n = 0 then (if m = 0 then .nan else .inf (a != b))
    else .fin (a != b) (m * 2 ^ 128 / n) (e - f - 128) (m * 2 ^ 128 % n != 0)

/-- Integer square root, `b` bits at most. -/
def isqrt (x : Nat) : Nat → Nat → Nat
  | 0, r => r
  | b + 1, r => isqrt x b (if (r + 2 ^ b) * (r + 2 ^ b) ≤ x then r + 2 ^ b else r)

def Val.sqrt : Val → Val
  | .nan => .nan
  | .inf neg => if neg then .nan else .inf false
  | .fin neg m e _ =>
    if m = 0 then .fin neg 0 0
    else if neg then .nan
    else
      let odd := e % 2 != 0
      let x := m * 2 ^ 192 * (if odd then 2 else 1)
      let r := isqrt x 128 0
      .fin false r ((if odd then e - 1 else e) / 2 - 96) (r * r != x)

/-- Order of two values that are no NaN: −0 and +0 are equal. -/
def Val.lt (x y : Val) : Bool :=
  match x, y with
  | .inf a, .inf b => a && !b
  | .inf a, .fin _ _ _ _ => a
  | .fin _ _ _ _, .inf b => !b
  | .fin sx mx ex _, .fin sy my ey _ => let e := min ex ey; atExp sx mx ex e < atExp sy my ey e
  | _, _ => false

def Val.eq (x y : Val) : Bool := !x.isNan && !y.isNan && !x.lt y && !y.lt x

/-- Ordered, with −0 below +0 (R72). -/
def Val.below (x y : Val) : Bool :=
  x.lt y || (x.eq y && match x, y with
    | .fin sx _ _ _, .fin sy _ _ _ => sx && !sy
    | _, _ => false)

def Val.min (x y : Val) : Val := if x.isNan || y.isNan then .nan else if y.below x then y else x
def Val.max (x y : Val) : Val := if x.isNan || y.isNan then .nan else if x.below y then y else x

/-- ⌊x × 2^−anc⌋ of a finite value (R82). -/
def floorAt (neg : Bool) (mag : Nat) (exp anc : Int) : Int :=
  if anc ≤ exp then atExp neg mag exp anc
  else
    let d : Int := (2 ^ (anc - exp).toNat : Nat)
    (if neg then -(mag : Int) else (mag : Int)) / d

/-! ### Block scales (R70, R78, R79) -/

/-- A value under an E8M0 scale. -/
def blockVal (x : Nat) (v : Val) : Val := if x = 0xFF then .nan else v.scale ((x : Int) - 127)

def Fmt.emax (f : Fmt) : Int := ((f.maxCode / 2 ^ f.m : Nat) : Int) - (f.bias : Int)

/-- Exponent of a finite nonzero value's leading bit. -/
def Val.top : Val → Option Int
  | .fin _ m e _ => if m = 0 then none else some (e + (Nat.log2 m : Int))
  | _ => none

def optMax (a b : Option Int) : Option Int :=
  match a, b with
  | some x, some y => some (max x y)
  | some x, none => some x
  | none, y => y

/-- Whether a value is NaN or infinite. -/
def Val.special : Val → Bool
  | .fin _ _ _ _ => false
  | _ => true

/-- The scale exponent that a block of finite values takes (R79). -/
def blockExp (f : Fmt) (vals : List Val) : Int :=
  match vals.foldl (fun acc v => optMax acc v.top) none with
  | none => -127
  | some t => max (-127) (min 127 (t - f.emax))

/-- Codes rounded in ascending order, with the LFSR after them. -/
def roundAll (f : Fmt) (sat : Bool) (mode : Rnd) : BitVec 32 → List Val → List Nat × BitVec 32
  | s, [] => ([], s)
  | s, v :: r =>
    let s := lfsrAfter mode s
    let (l, s') := roundAll f sat mode s r
    (f.round sat mode s v :: l, s')

/-- One block quantised: its scale byte, its codes, the LFSR after it (R79). A block that holds a NaN or an infinity rounds
nothing. -/
def quantBlock (f : Fmt) (mode : Rnd) (s : BitVec 32) (vals : List Val) : Nat × List Nat × BitVec 32 :=
  if vals.any Val.special then (0xFF, vals.map fun _ => 0, s)
  else
    let sx := blockExp f vals
    let (codes, s') := roundAll f true mode s (vals.map fun v => v.scale (-sx))
    ((sx + 127).toNat, codes, s')

/-! ### Exact accumulation (R81–R84) -/

/-- An element's running sum and flags during an MMA. -/
structure Sum where
  sum : Int
  nan : Bool
  pinf : Bool
  ninf : Bool
  deriving DecidableEq, Repr

/-- One product enters the sum (R82). -/
def Sum.step (anc : Int) (a : Sum) (x y : Val) : Sum :=
  match x.mul y with
  | .nan => { a with nan := true }
  | .inf neg => if neg then { a with ninf := true } else { a with pinf := true }
  | .fin s m e _ => { a with sum := a.sum + floorAt s m e anc }

def Sum.ofElem (acc : BitVec 64) (fl : BitVec 2) : Sum :=
  { sum := acc.toInt, nan := fl = 3, pinf := fl = 1, ninf := fl = 2 }

/-- The final steps: ACC and FL (R82). -/
def Sum.close (a : Sum) : BitVec 64 × BitVec 2 :=
  let top : BitVec 64 := 0x7FFFFFFFFFFFFFFF
  let bottom : BitVec 64 := 0x8000000000000000
  if a.nan || (a.pinf && a.ninf) then (0, 3)
  else if a.pinf then (top, 1)
  else if a.ninf then (bottom, 2)
  else if (2 ^ 63 - 1 : Int) < a.sum then (top, 1)
  else if a.sum < (-(2 ^ 63) : Int) then (bottom, 2)
  else (BitVec.ofInt 64 a.sum, 0)

/-- What QREAD converts (R84). -/
def accVal (acc : BitVec 64) (fl : BitVec 2) (anc : Int) : Val :=
  match fl.toNat with
  | 0 => if acc = 0 then .fin false 0 0 else .fin (acc.toInt < 0) acc.toInt.natAbs anc
  | 1 => .inf false
  | 2 => .inf true
  | _ => .nan

end Sys2Proof.Machine
end

