-- ==== Sys2Proof/Machine/Atomics.lean ====
section
/-!
DEFINITION. What an atomic unit makes of a cell: the atomics of R223 and R224 by their OP of R328, and the return-free reductions of R225.
-/

namespace Sys2Proof.Machine

/-- Minimum and maximum on codes: the operand itself, or the canonical NaN (R72). -/
def Fmt.minCode (f : Fmt) (x y : Nat) : Nat :=
  if (f.val x).isNan || (f.val y).isNan then f.nan.getD 0 else if (f.val y).below (f.val x) then y else x
def Fmt.maxCode' (f : Fmt) (x y : Nat) : Nat :=
  if (f.val x).isNan || (f.val y).isNan then f.nan.getD 0 else if (f.val x).below (f.val y) then y else x

/-- f32 addition in RNE on codes (R224, R225). -/
def f32Add (x y : Nat) : Nat := fmtF32.round false .rne 0 ((fmtF32.val x).add .rne (fmtF32.val y))

/-- What a reduction makes of a cell: op 0 f32 addition, 1 integer addition, 2 f32 maximum (R225). -/
def rednOp (op : Nat) (wide : Bool) (old x : Nat) : Nat :=
  if op = 0 then f32Add old x
  else if op = 1 then (old + x) % (if wide then 2 ^ 64 else 2 ^ 32)
  else fmtF32.maxCode' old x

/-- What an atomic of the named major, op and ty makes of the old value; none when the operation is reserved (R157). -/
def portAtomic (major op ty n : Nat) (data : List Byte) : Option (Nat → Option Nat) :=
  let y := bytesNat (data.take n)
  let int : Bool := (ty = 4 && n = 4) || (ty = 6 && n = 8)
  let wide : Bool := int || (ty = 7 && n = 16)
  let f32 : Bool := ty = 4 && n = 4
  match major, op with
  | 0, 0 => if int then some fun x => some ((x + y) % 256 ^ n) else none
  | 0, 1 => if int then some fun x => some (x &&& y) else none
  | 0, 2 => if int then some fun x => some (x ||| y) else none
  | 0, 3 => if int then some fun x => some (x ^^^ y) else none
  | 0, 4 => if int then some fun x => some (if sint (8 * n) x < sint (8 * n) y then y else x) else none
  | 0, 5 => if int then some fun x => some (if sint (8 * n) y < sint (8 * n) x then y else x) else none
  | 0, 6 => if int then some fun x => some (Nat.max x y) else none
  | 0, 7 => if int then some fun x => some (Nat.min x y) else none
  | 1, 0 => if wide then some fun _ => some y else none
  | 1, 1 => if wide then some fun x => if x = bytesNat ((data.drop n).take n) then some y else none else none
  | 1, 2 => if f32 then some fun x => some (f32Add x y) else none
  | 1, 3 => if f32 then some fun x => some (fmtF32.maxCode' x y) else none
  | 1, 4 => if f32 then some fun x => some (fmtF32.minCode x y) else none
  | _, _ => none

/-- Whether R157 gives a `red.n` that op, ty and width. -/
def portRedn (op ty n : Nat) : Bool := (op ≤ 2 && ty = 4 && n = 4) || (op = 1 && ty = 6 && n = 8)

end Sys2Proof.Machine
end

