-- ==== Sys2Proof/Machine/Links.lean ====
section
/-!
DEFINITION. Routes of messages: dimension orders and hops (R11, R16, R320–R322), the combining trees (R326), patch-table entries
(R419, R420), and the header flit (R324).
-/

namespace Sys2Proof.Machine

/-- L2 slice of a physical address (R112); slice y × 8 + x lies under column (x, y) (R16). -/
def slice (pa : Nat) : Nat := (pa / 2 ^ 12 % 64) ^^^ (pa / 2 ^ 18 % 64) ^^^ (pa / 2 ^ 24 % 64)

/-! ### Hops (R320, R321) -/

def portNum : Port → Nat
  | .xp => 0 | .xm => 1 | .yp => 2 | .ym => 3 | .zp => 4 | .zm => 5 | .sole => 6

def Port.opposite : Port → Port
  | .xp => .xm | .xm => .xp | .yp => .ym | .ym => .yp | .zp => .zm | .zm => .zp | .sole => .sole

/-- The tile beyond a port. -/
def neighbour (t : Nat) : Port → Nat
  | .xp => t / 8 * 8 + (t + 1) % 8
  | .xm => t / 8 * 8 + (t + 7) % 8
  | .yp => t / 64 * 64 + (t + 8) % 64
  | .ym => t / 64 * 64 + (t + 56) % 64
  | .zp => (t + 64) % 1024
  | .zm => (t + 960) % 1024
  | .sole => t

/-- The hops on one ring of n, forward on a tie. -/
def ringHops (n a b : Nat) (fwd bwd : Port) : List Port :=
  let d := (b + n - a) % n
  if 2 * d ≤ n then List.replicate d fwd else List.replicate (n - d) bwd

/-- Hops of one dimension: 0 x, 1 y, 2 z. -/
def dimHops (src dst : Nat) : Nat → List Port
  | 0 => ringHops 8 (src % 8) (dst % 8) .xp .xm
  | 1 => ringHops 8 (src / 8 % 8) (dst / 8 % 8) .yp .ym
  | _ => ringHops 16 (src / 64) (dst / 64) .zp .zm

/-- The dimension orders by their codes. -/
def dimOrder (code : Nat) : List Nat :=
  match code with
  | 1 => [0, 2, 1] | 2 => [1, 0, 2] | 3 => [1, 2, 0] | 4 => [2, 0, 1] | 5 => [2, 1, 0] | _ => [0, 1, 2]

/-- Each hop with the router that it leaves. -/
def walkHops : Nat → List Port → List (Nat × Port)
  | _, [] => []
  | t, p :: r => (t, p) :: walkHops (neighbour t p) r

def route (order src dst : Nat) : List (Nat × Port) := walkHops src ((dimOrder order).flatMap (dimHops src dst))

/-- The router that a message stands at after n hops. -/
def routerAfter (src : Nat) (hops : List (Nat × Port)) : Nat :=
  match hops.getLast? with
  | some (t, p) => neighbour t p
  | none => src

/-! ### Combining trees (R326) -/

/-- The next router of the tree: −z in the column trees, then −x, then −y; for a user box counted from its ORIGIN. -/
def treeHop (lvl : Level) (dom : Word) (r : Nat) : Option Port :=
  let o := if lvl = .user then bits dom 9 0 else 0
  let dx := (r % 8 + 8 - o % 8) % 8
  let dy := (r / 8 % 8 + 8 - o / 8 % 8) % 8
  let dz := (r / 64 + 16 - o / 64) % 16
  match lvl with
  | .tile => none
  | .column => if dz = 0 then none else some .zm
  | .layer => if dx ≠ 0 then some .xm else if dy ≠ 0 then some .ym else none
  | .cube | .user => if dz ≠ 0 then some .zm else if dx ≠ 0 then some .xm else if dy ≠ 0 then some .ym else none

/-- The routers from one to its root, each with the port towards the next; a tree is at most 29 hops deep. -/
def treePath (lvl : Level) (dom : Word) : Nat → Nat → List (Nat × Port)
  | 0, _ => []
  | n + 1, r =>
    match treeHop lvl dom r with
    | none => []
    | some p => (r, p) :: treePath lvl dom n (neighbour r p)

/-- The way up from a router to its root. -/
def treeUp (lvl : Level) (dom : Word) (r : Nat) : List (Nat × Port) := treePath lvl dom 29 r
/-- The way down to it, over the same links. -/
def treeDown (lvl : Level) (dom : Word) (r : Nat) : List (Nat × Port) :=
  ((treeUp lvl dom r).map fun h => (neighbour h.1 h.2, Port.opposite h.2)).reverse
/-- Whether tile t lies in the part of the tree that router r combines. -/
def treeUnder (lvl : Level) (dom : Word) (r t : Nat) : Bool := t = r || (treeUp lvl dom t).any fun h => neighbour h.1 h.2 = r

/-! ### Messages on the links (R320–R322) -/

/-- The physical address of a request, none for one to a tile. -/
def HomeOp.pa? : HomeOp → Option Nat
  | .read pa _ | .write pa .. | .amo pa .. => some pa
  | .back line .. => some (128 * line)
  | .put .. => none

/-- The physical address that a request carries to the sole die. A launch crosses the sole link of the column of its image's home slice: the
manual names no column for the launches and completions of the scheduler (DESIGN CHOICE, log 93). -/
def Body.pa? : Body → Option Nat
  | .redn _ pa .. => some pa
  | .decrement _ pa _ => some pa
  | .waiter _ pa _ => some pa
  | .launch k => some k.image
  | .access _ op _ => op.pa?
  | _ => none

/-- The destination as SEQ counts it: a tile, or the home slice of a request's address. -/
def destOf (dst : Nat) (b : Body) : Nat := match b.pa? with
  | some pa => 1025 + slice pa
  | none => dst

/-- The ends of a message's way in the torus: the sole die stands under the column of the home slice, or of the other end. -/
def Msg.ends (m : Msg) : Nat × Nat :=
  let col := match m.body.pa? with
    | some pa => slice pa
    | none => (if m.src < 1024 then m.src else m.dst) % 64
  (if m.src < 1024 then m.src else m.dst % 64, if m.dst < 1024 then m.dst else col)

/-- The hops from a router to another in an order of dimensions, and down the sole link where the way ends at the sole die. -/
def plan (order src dst : Nat) (down : Bool) : List (Nat × Port) := route order src dst ++ if down then [(dst, .sole)] else []

/-- A way as it is planned: between which routers and in which order, whether it begins or ends on a sole link, the links of a combining tree
that stand in their place (R326), and the hops on the primary channel of a message that has switched to the escape channels (R322). -/
structure Trip where
  order : Nat
  src : Nat
  dst : Nat
  up : Bool
  down : Bool
  tree : Option (List (Nat × Port))
  switch : Option Nat

/-- Its hops in the torus: after a switch to the escape channels in the order xyz. -/
def Trip.hops (t : Trip) : List (Nat × Port) :=
  match t.tree with
  | some l => l
  | none =>
    let l := plan t.order t.src t.dst t.down
    match t.switch with
    | some n => l.take n ++ plan 0 (routerAfter t.src (l.take n)) t.dst t.down
    | none => l

/-- The way of a message. A collective's result comes down its tree, whatever DORD says (R321, R326). -/
def Msg.trip (m : Msg) : Trip :=
  { order := m.ord.toNat, src := m.ends.1, dst := m.ends.2, up := 1024 ≤ m.src, down := 1024 ≤ m.dst
    tree := match m.body with
      | .completion _ a dom _ => some (treeDown a.level dom m.dst)
      | _ => none
    switch := if m.esc then some m.escAt else none }

/-- The way of its answer. -/
def Msg.tripBack (m : Msg) : Trip :=
  { order := m.rord.toNat, src := m.ends.2, dst := m.ends.1, up := 1024 ≤ m.dst, down := 1024 ≤ m.src
    tree := match m.body with
      | .completion _ a dom _ => some (treeUp a.level dom m.dst)
      | _ => none
    switch := if m.backEsc then some m.backAt else none }

/-- Virtual channels of a class (R322). -/
inductive Channel
  | p | e0 | e1
  deriving DecidableEq, Repr

/-- A hop over a wraparound link of its ring. -/
def wraps (h : Nat × Port) : Bool :=
  match h.2 with
  | .xp => h.1 % 8 = 7 | .xm => h.1 % 8 = 0
  | .yp => h.1 / 8 % 8 = 7 | .ym => h.1 / 8 % 8 = 0
  | .zp => h.1 / 64 = 15 | .zm => h.1 / 64 = 0
  | .sole => false

/-! ### The header flit (R324) -/

def Cls.num : Cls → Nat
  | .req => 0 | .rsp => 1 | .msg0 => 2 | .msg1 => 3 | .enq => 4 | .sync => 5

/-- OP of a message; the manual names no values: the order of `Body` within its class (log 58). -/
def Body.op : Body → Nat
  | .redn _ _ op .. => op
  | .decrement .. => 3 | .waiter .. => 4 | .launch .. => 5 | .access .. => 6
  | .enq .. => 0 | .eyelet .. => 0 | .weltEnd .. => 0
  | .record .. => 0 | .reply .. => 1 | .arrival .. => 2 | .completion .. => 3 | .combined .. => 4 | .release .. => 5 | .probe .. => 6

/-- The address space that a message names. -/
def Body.asid : Body → BitVec 12
  | .redn key .. | .eyelet key .. | .arrival key _ | .completion key .. | .combined key .. | .access key .. => key.asid
  | .enq r .. => r.asid
  | .decrement asid .. => asid
  | .waiter who .. => match who with
    | .strand key => key.asid
    | .command asid _ => asid
  | .launch k => k.asid
  | .weltEnd k .. => k.asid
  | .record w => ((w.drop 1).headD 0).extractLsb' 45 12
  | .reply w0 _ => w0.extractLsb' 45 12
  | .release _ | .probe _ => 0

/-- Bytes of operands and payload. -/
def Body.bytes : Body → Nat
  | .redn _ _ _ wide _ => if wide then 8 else 4
  | .enq .. => 64 + 16
  | .eyelet _ _ _ _ words _ => 8 + 8 * words.length
  | .record w => 8 * w.length
  | .reply .. => 16
  | .launch _ => 128
  | .weltEnd .. => 16
  | .arrival .. | .completion .. | .combined .. | .waiter .. => 8
  | .access _ op _ => match op with
    | .read .. => 0
    | .write _ n .. | .put _ n .. => n
    | .back .. => 128
    | .amo _ _ _ data => data.length
  | .decrement .. | .release _ | .probe _ => 0

/-- The aligned 64 B granules that hold n bytes at an address. -/
def granulesOf (a n : Nat) : Nat := (a % 64 + n + 63) / 64

/-- NPAY: 48 bytes fit the header flit, the others take payload flits, of one aligned granule each for the bytes of a store or write-back. -/
def Body.npay (b : Body) : Nat :=
  match b with
  | .access _ (.write pa n ..) _ | .access _ (.put pa n ..) _ => if n ≤ 48 then 0 else granulesOf pa n
  | .access _ (.back _ m _) _ => (m.extractLsb' 0 64 != 0#64).toNat + (m.extractLsb' 64 64 != 0#64).toNat
  | b => (b.bytes - 48 + 63) / 64

/-- ADDR: the physical address, the eyelet ID, or the other argument of OP. -/
def Body.addr : Body → Word
  | .eyelet _ id .. => id
  | .release entry => BitVec.ofNat 64 entry
  | .probe dir => BitVec.ofNat 64 dir
  | .reply w0 _ => w0
  | .arrival _ a | .combined _ a _ | .completion _ a .. => a.val
  | .access _ (.put off ..) _ => BitVec.ofNat 64 off
  | b => BitVec.ofNat 64 ((b.pa?).getD 0)

/-- The fields of a header. The sole die has no tile ID: SRC and DST name it as tile 0 (DESIGN CHOICE, log 58). -/
def flit (cls ord : Nat) (esc det : Bool) (npay seq src dst asid op rord : Nat) (addr : Word) : BitVec 128 :=
  BitVec.ofNat 128 (cls * 2 ^ 125 + ord * 2 ^ 122 + esc.toNat * 2 ^ 121 + det.toNat * 2 ^ 120 + npay * 2 ^ 112 + seq * 2 ^ 106 +
    src % 1024 * 2 ^ 96 + dst % 1024 * 2 ^ 86 + asid * 2 ^ 74 + op * 2 ^ 67 + rord * 2 ^ 64 + addr.toNat)

/-- The 16 B header. -/
def Msg.header (m : Msg) : BitVec 128 :=
  flit m.cls.num m.ord.toNat m.esc m.det m.body.npay m.seq.toNat m.src m.dst m.body.asid.toNat m.body.op m.rord.toNat m.body.addr

/-- OP and NPAY of an answer; the manual names no values for OP: the order of `Ans` and `HomeAns` (log 58). -/
def Ans.op : Ans → Nat
  | .asked => 0 | .accepted => 1 | .stale => 2 | .refused => 3 | .failed => 4 | .placeNow _ => 5 | .full _ => 6 | .got .. => 7
  | .home x => match x with
    | .done => 8 | .data .. => 9 | .old _ => 10 | .bad => 11 | .refused _ => 12
def Ans.npay (b : Body) : Ans → Nat
  | .home (.data ..) => match b with
    | .access _ (.read pa n) _ => granulesOf pa n
    | _ => 0
  | _ => 0

/-- The header of its answer: class RSP, the message's SEQ and address, and the order of its RORD (R321, R323). -/
def Msg.answerHeader (m : Msg) (a : Ans) : BitVec 128 :=
  flit 1 m.rord.toNat m.backEsc m.backDet (a.npay m.body) m.seq.toNat m.dst m.src m.body.asid.toNat a.op 0 m.body.addr

/-! ### Patch tables (R419, R420) -/

def portOf : Nat → Port
  | 0 => .xp | 1 => .xm | 2 => .yp | 3 => .ym | 4 => .zp | 5 => .zm | _ => .sole

def Tile.patched (t : Tile) (p : Port) : Bool := t.patch.any fun e => e.getLsbD 15 && bits e 14 12 = portNum p
/-- SIDE of the valid entry that names a port. -/
def Tile.sideOf (t : Tile) (p : Port) : Option Port :=
  (t.patch.find? fun e => e.getLsbD 15 && bits e 14 12 = portNum p).map fun e => portOf (bits e 11 9)

/-- A hop as it is made: the router and its port, the virtual channel, and whether a patch entry has led there. -/
structure Hop where
  router : Nat
  port : Port
  chan : Channel
  det : Bool
  deriving DecidableEq, Repr

/-- The hops that are made of planned ones. Where a valid entry names the port that a message is due to leave by, it makes R420's three hops on
channel E1 and continues in the order xyz from the router that it would have reached, or, in a combining tree, along the tree; at a patched sole
link N's stands for it. On the escape channels a hop is on E0, and on E1 from a wraparound link to the end of its ring (R322). `side` reads the
patch tables; `left` counts the hops to the switch. -/
def follow (side : Nat → Port → Option Port) (t : Trip) : Nat → Option Nat → Option Port → Bool → List (Nat × Port) → List Hop
  | 0, _, _, _, _ => []
  | _, _, _, _, [] => []
  | n + 1, left, last, wrapped, h :: r =>
    match side h.1 h.2 with
    | some d =>
      let nb := neighbour h.1 d
      let three : List Hop := [⟨h.1, d, .e1, true⟩, ⟨nb, h.2, .e1, true⟩]
      if h.2 = .sole then three
      else three ++ ⟨neighbour nb h.2, Port.opposite d, .e1, true⟩ ::
        follow side t n (some 0) none false (if t.tree.isSome then r else plan 0 (neighbour h.1 h.2) t.dst t.down)
    | none =>
      let esc := left = some 0
      let w := esc && ((last = some h.2 && wrapped) || wraps h)
      ⟨h.1, h.2, if !esc then .p else if w then .e1 else .e0, false⟩ :: follow side t n (left.map (· - 1)) (if esc then some h.2 else none) w r

/-- A message from the sole die comes up its column's sole link; where an entry names that link, up N's and back over the entry's SIDE: R420's
hops the other way (DEDUCED, log 30). -/
def upHops (side : Nat → Port → Option Port) (c : Nat) : List Hop :=
  match side c .sole with
  | some d => [⟨neighbour c d, .sole, .e1, true⟩, ⟨neighbour c d, Port.opposite d, .e1, true⟩]
  | none => [⟨c, .sole, .p, false⟩]

end Sys2Proof.Machine
end

