-- ==== Sys2Proof/Machine/Ops.lean ====
section
/-!
DEFINITION. The shared operations of the machine: registers, tiles, homes, the error log, records and messages, taking a
condition and returning from one (R358–R369), translation and charges (R87–R100, R117–R119), and the levels of memory
(R103–R112). Every instruction's meaning is written over these.
-/

namespace Sys2Proof.Machine

/-! ### The instruction monad -/

/-- Why an instruction ends without its effect: a condition (R358) or a wait. -/
inductive Stop
  | cond (c : Cond)
  | wait (w : Wait)
  deriving DecidableEq, Repr

/-- A meaning's run; `run` discards what a meaning did before it stopped in a condition, but for what R384 keeps. -/
abbrev M := EStateM Stop State

def trapIf (b : Bool) (c : Cond) : M Unit := if b then throw (.cond c) else pure ()
def waitIf (b : Bool) (w : Wait) : M Unit := if b then throw (.wait w) else pure ()

/-! ### Elements held sparsely -/

def State.tile (s : State) (t : Nat) : Tile := (look t s.tiles).getD Tile.reset
def State.setTile (s : State) (t : Nat) (x : Tile) : State := { s with tiles := put t x s.tiles }
def State.modTile (s : State) (t : Nat) (f : Tile → Tile) : State := s.setTile t (f (s.tile t))
def State.layer (s : State) (z : Nat) : Layer := (look z s.layers).getD Layer.reset
def State.setLayer (s : State) (z : Nat) (x : Layer) : State := { s with layers := put z x s.layers }
def State.stack (s : State) (n : Nat) : Stack := (look n s.stks).getD Stack.reset
def State.setStack (s : State) (n : Nat) (x : Stack) : State := { s with stks := put n x s.stks }
def State.coreOf (s : State) (n : Nat) : Core := (look n s.cores).getD Core.reset
def State.setCore (s : State) (n : Nat) (x : Core) : State := { s with cores := put n x s.cores }

/-- The tile of the strand being stepped. -/
def State.here (s : State) : Nat := s.me.tile.toNat
def State.myTile (s : State) : Tile := s.tile s.here
def State.modMyTile (s : State) (f : Tile → Tile) : State := s.modTile s.here f

def State.strand? (s : State) (key : Key) : Option Strand := s.strands.find? fun t => t.key = key
/-- Replaces the strand of that key, or adds it. -/
def State.putStrand (s : State) (t : Strand) : State :=
  if (s.strand? t.key).isSome then { s with strands := s.strands.map fun u => if u.key = t.key then t else u }
  else { s with strands := s.strands ++ [t] }
def State.dropStrand (s : State) (key : Key) : State := { s with strands := s.strands.filter fun t => t.key ≠ key }
/-- Strand `key`, wherever it is: the one being stepped, or one of the table. -/
def State.theStrand? (s : State) (key : Key) : Option Strand := if s.me.key = key then some s.me else s.strand? key
def State.modStrand (s : State) (key : Key) (f : Strand → Strand) : State :=
  if s.me.key = key then { s with me := f s.me } else
  match s.strand? key with
  | some t => s.putStrand (f t)
  | none => s

/-! ### Registers of the strand being stepped (R27, R31, R149)

Reads see the registers as they stood before the pair (`view`), writes go to the strand. -/

/-- Frame line of g, m, k, v registers (R27). -/
def lineBit (n : Nat) : BitVec 32 := BitVec.ofNat 32 (2 ^ n)
def gLine (r : GReg) : Nat := if r.val < 16 then 1 else 2
def vLine (r : VReg) : Nat := 8 + r.val

def State.src (s : State) : Strand := s.view.getD s.me
def State.g (s : State) (r : GReg) : Word := if r.val = 0 then 0 else s.src.g[r]
def State.m (s : State) (r : MReg) : MaskV := if r.val = 0 then BitVec.allOnes 128 else s.src.m[r]
def State.v (s : State) (r : VReg) : Line := s.src.v[r]
def State.tag (s : State) (r : VReg) : Tag := s.src.vtag[r]
def State.k (s : State) (r : KReg) : Word := s.src.k[r]

/-- A word that writes the destination of an outstanding load discards what the load will bring (R152). -/
def Late.writes (l : Late) (d : Dst) : Late := if l.dst = d then { l with gone := true } else l

def Strand.setG (t : Strand) (r : GReg) (x : Word) : Strand :=
  if r.val = 0 then t else
  { t with g := t.g.set r x, dirty := t.dirty ||| lineBit (gLine r), held := t.held.filter fun h => h.dst ≠ .g r,
           late := t.late.map (·.writes (.g r)) }
def Strand.setM (t : Strand) (r : MReg) (x : MaskV) : Strand :=
  if r.val = 0 then t else { t with m := t.m.set r x, dirty := t.dirty ||| lineBit 3 }
def Strand.setV (t : Strand) (r : VReg) (x : Line) (tag : Tag) : Strand :=
  { t with v := t.v.set r x, vtag := t.vtag.set r tag, dirty := t.dirty ||| lineBit (vLine r) ||| lineBit 0,
           held := t.held.filter fun h => h.dst ≠ .v r, late := t.late.map (·.writes (.v r)) }
def Strand.setK (t : Strand) (r : KReg) (x : Word) : Strand := { t with k := t.k.set r x, dirty := t.dirty ||| lineBit 4 }

def State.setG (s : State) (r : GReg) (x : Word) : State := { s with me := s.me.setG r x }
def State.setM (s : State) (r : MReg) (x : MaskV) : State := { s with me := s.me.setM r x }
def State.setV (s : State) (r : VReg) (x : Line) (tag : Tag) : State := { s with me := s.me.setV r x tag }
def State.setK (s : State) (r : KReg) (x : Word) : State := { s with me := s.me.setK r x }

/-- Writes a held result (R152). -/
def Strand.deliverHeld (t : Strand) (h : Held) : Strand :=
  match h.dst with
  | .g r => t.setG r (h.val.setWidth 64)
  | .v r => t.setV r h.val h.tag

/-- Every held result is written at once, as though its window had issued (R39); an outstanding load's window has issued too. -/
def Strand.flushHeld (t : Strand) : Strand :=
  let u := t.held.foldl Strand.deliverHeld t
  { u with held := [], late := u.late.map fun l => { l with left := 0 } }

/-- The result of a long-latency instruction with lookahead n: written at once for n = 0, else held (R152). -/
def Strand.result (t : Strand) (h : Held) : Strand :=
  if h.left = 0 then t.deliverHeld h else
  match h.dst with
  | .g r => if r.val = 0 then t else
    { t with held := t.held.filter (fun o => o.dst ≠ h.dst) ++ [h], late := t.late.map (·.writes h.dst) }
  | .v _ => { t with held := t.held.filter (fun o => o.dst ≠ h.dst) ++ [h], late := t.late.map (·.writes h.dst) }
def State.setGLa (s : State) (r : GReg) (la : La) (x : Word) : State :=
  { s with me := s.me.result { dst := .g r, left := la.toNat, val := x.setWidth 1024, tag := .raw } }
def State.setVLa (s : State) (r : VReg) (la : La) (x : Line) (tag : Tag) : State :=
  { s with me := s.me.result { dst := .v r, left := la.toNat, val := x, tag := tag } }

/-! ### How an instruction ends -/

/-- The instruction completed. -/
def done (s : State) : Host.Outcome State Fault Refusal := .next { s with ended := .ok }

/-! ### Physical memory (R88, R90, R113) -/

inductive Win
  | inter
  | near (stack : Nat) (o : Nat)
  | reg (off : Nat)
  | host
  | remote (pkg : Nat)
  | none
  deriving DecidableEq, Repr

/-- The window of a package offset (R88). -/
def State.offsetWin (s : State) (off : Nat) : Win :=
  let nsz := s.nearsz.toNat * 2 ^ 30
  if off < 12 * (64 * 2 ^ 30 - nsz) then .inter
  else if Config.hostBase ≤ off then .host
  else if Config.regBase ≤ off && off < Config.regBase + Config.regSize then .reg (off - Config.regBase)
  else if Config.nearBase ≤ off && (off - Config.nearBase) / Config.nearStep < 12 && (off - Config.nearBase) % Config.nearStep < nsz then
    .near ((off - Config.nearBase) / Config.nearStep) ((off - Config.nearBase) % Config.nearStep)
  else .none

def State.win (s : State) (pa : Nat) : Win :=
  if pa / 2 ^ Config.pkgShift ≠ s.pkgid.toNat then .remote (pa / 2 ^ Config.pkgShift) else s.offsetWin (pa % 2 ^ Config.pkgShift)

/-- Stack and stack-local address of device memory (R113). -/
def State.place (s : State) (pa : Nat) : Option (Nat × Nat) :=
  let a := pa % 2 ^ Config.pkgShift
  match s.win pa with
  | .inter => some (a / 4096 % 12, a / 4096 / 12 * 4096 + a % 4096)
  | .near st o => some (st, (64 - s.nearsz.toNat) * 2 ^ 30 + o)
  | _ => none

/-- The physical address of a stack-local address: R113 read the other way. -/
def State.unplace (s : State) (stack loc : Nat) : Nat :=
  let near := (64 - s.nearsz.toNat) * 2 ^ 30
  s.pkgid.toNat * 2 ^ Config.pkgShift +
    (if loc < near then (loc / 4096 * 12 + stack) * 4096 + loc % 4096 else Config.nearBase + stack * Config.nearStep + (loc - near))

/-- LIVE of a channel (R114). -/
def Stack.live (k : Stack) (ch : Nat) : BitVec 36 := (look ch k.bavail).getD Config.fuseLive

/-- Position of the (n + 1)-th set bit, from bit `i` upward. -/
def nthSet (x : BitVec 36) : Nat → Nat → Nat → Nat
  | 0, i, _ => i
  | fuel + 1, i, n => if x.getLsbD i then (if n = 0 then i else nthSet x fuel (i + 1) (n - 1)) else nthSet x fuel (i + 1) n

/-- Channel and bank of a stack-local address (R113). -/
def State.bank (s : State) (stack loc : Nat) : Nat × Nat :=
  let u := loc / 4096
  (u % 32, nthSet ((s.stack stack).live (u % 32)) 36 0 (u / 32 % 32))

/-- The address inside the bank (R113). -/
def inbank (loc : Nat) : Nat := loc / 4096 / 1024 * 4096 + loc % 4096

/-- Whether the stack of a physical address is out of service (R429). -/
def State.outAt (s : State) (pa : Nat) : Bool :=
  match s.place pa with
  | some (st, _) => !(s.stack st).inService
  | none => false

/-- Whether a home answers an access to `n` bytes with an error: one lies in an uncorrectable word (R375), or in a stack that is out
of service (R429). -/
def State.badIn (s : State) (pa n : Nat) : Bool :=
  (s.bad.any fun w => decide (pa < 8 * w + 8) && decide (8 * w < pa + n)) || s.outAt pa || s.outAt (pa + n - 1)
def State.badAt (s : State) (pa : Nat) : Bool := s.badIn pa 1

/-- The bytes of a line that lie in uncorrectable words. -/
def State.badMask (s : State) (line : Nat) : MaskV :=
  if s.outAt (line * 128) then BitVec.allOnes 128 else
  (s.bad.filter fun w => w / 16 = line).foldl (fun m w => m ||| lineMask (8 * (w % 16)) 8) 0

/-! ### The L2 homes (R112) -/

def State.dramLine (s : State) (line : Nat) : Line := BitVec.ofNat 1024 (Mem.readN s.mem (line * 128) 128)

/-- A line as its home serves it. -/
def State.homeLine (s : State) (line : Nat) : Line :=
  match s.l2.find? fun e => e.addr = line with
  | some e => e.data
  | none => s.dramLine line

/-- The home fills the line from DRAM on a read (R112). -/
def State.homeFill (s : State) (line : Nat) : State :=
  if (s.l2.find? fun e => e.addr = line).isSome then s
  else { s with l2 := { addr := line, dirty := 0, data := s.dramLine line } :: s.l2 }

/-- The 64 B granules that hold bytes of a mask. -/
def granules (m : MaskV) : MaskV :=
  (if m.extractLsb' 0 64 = 0#64 then 0 else lineMask 0 64) ||| (if m.extractLsb' 64 64 = 0#64 then 0 else lineMask 64 64)

/-- The home takes the bytes that the mask names, and their granules are dirty (R140, R307); a copy that the host holds is
back-invalidated first (R330). -/
def State.homeWriteLine (s : State) (line : Nat) (m : MaskV) (x : Line) : State :=
  let s := s.homeFill line
  { s with cxl := s.cxl.filter fun n => n ≠ line, l2 := s.l2.map fun e => if e.addr = line then { e with dirty := e.dirty ||| granules m, data := mergeLine m x e.data } else e }

/-- The slice writes a line's dirty bytes to DRAM, keeping or dropping the line (R112, R227). -/
def State.homeClean (s : State) (line : Nat) (keep : Bool) : State :=
  match s.l2.find? fun e => e.addr = line with
  | none => s
  | some e =>
    { s with
      mem := Mem.writeMasked s.mem (line * 128) e.dirty.toNat 128 e.data.toNat
      l2 := if keep then s.l2.map fun f => if f.addr = line then { f with dirty := 0 } else f else s.l2.filter fun f => f.addr ≠ line }

/-- `n` ≤ 128 bytes at a physical address, as the homes serve them; they may lie in two lines. -/
def State.homeRead (s : State) (pa n : Nat) : Nat :=
  if pa % 128 + n ≤ 128 then lineBytes (s.homeLine (pa / 128)) (pa % 128) n
  else
    let a := 128 - pa % 128
    lineBytes (s.homeLine (pa / 128)) (pa % 128) a + 256 ^ a * lineBytes (s.homeLine (pa / 128 + 1)) 0 (n - a)

def State.homeWrite (s : State) (pa n v : Nat) : State :=
  if pa % 128 + n ≤ 128 then s.homeWriteLine (pa / 128) (lineMask (pa % 128) n) (linePut (pa % 128) (v % 256 ^ n))
  else
    let a := 128 - pa % 128
    (s.homeWriteLine (pa / 128) (lineMask (pa % 128) a) (linePut (pa % 128) (v % 256 ^ a))).homeWriteLine
      (pa / 128 + 1) (lineMask 0 (n - a)) (linePut 0 (v / 256 ^ a % 256 ^ (n - a)))

/-- Whether a welt core clamps the bank of a physical address (R142, R310). -/
def State.clamped (s : State) (pa : Nat) : Bool :=
  match s.place pa with
  | none => false
  | some (st, loc) => s.cores.any fun e => e.1 / 16 = st && e.2.clamps.contains (s.bank st loc)

/-- A home cannot fill the line of an address: a welt core clamps its bank (R142). -/
def State.heldAtHome (s : State) (pa : Nat) : Bool := (s.l2.find? fun e => e.addr = pa / 128).isNone && s.clamped pa

/-- A host physical address as this package's host window names it (R88). -/
def State.hostPa (s : State) (h : Nat) : Nat := s.pkgid.toNat * 2 ^ Config.pkgShift + Config.hostBase + h % 2 ^ 48

/-! ### The error log (R377, R378) -/

/-- Posts one entry: KIND, SOURCE and seven words of DETAIL. -/
def State.logEntry (s : State) (kind source : Nat) (detail : List Word) : State :=
  let size := s.logsize.toNat
  let next := (s.logtail.toNat + 1) % (if size = 0 then 1 else size)
  if s.logbase = 0 || next = s.loghead.toNat || size = 0 then { s with loglost := s.loglost + 1 }
  else
    let pa := s.hostPa (s.logbase.toNat + 64 * s.logtail.toNat)
    let words := BitVec.ofNat 64 (kind + source * 2 ^ 16) :: (detail ++ List.replicate 7 0).take 7
    let v := words.foldr (fun w acc => w.toNat + 2 ^ 64 * acc) 0
    { s.homeWrite pa 64 v with
      logtail := BitVec.ofNat 64 next
      msix := s.msix + (if s.logtail = s.loghead then 1 else 0) }

/-- UNCORR: the physical address, the store by its row of R375 (3 the L1, 5 the L2 and HBM), and the bytes affected (R375, R378). -/
def State.logUncorr (s : State) (source pa store : Nat) (bytes : MaskV) : State :=
  s.logEntry 3 source [BitVec.ofNat 64 pa, BitVec.ofNat 64 store, bytes.extractLsb' 0 64, bytes.extractLsb' 64 64]

/-! ### Writes that meet uncorrectable words (R362, R375) -/

/-- A write-back to a home: bad words stay as they were, and the bytes they lose are logged (R375). -/
def State.homeMerge (s : State) (source line : Nat) (m : MaskV) (x : Line) : State :=
  let lost := m &&& s.badMask line
  let s1 := if lost = 0 then s else s.logUncorr source (line * 128) 5 lost
  if m &&& ~~~ lost = 0 then s1 else s1.homeWriteLine line (m &&& ~~~ lost) x

/-- A store at a home: a bad word written whole is good again (R362); one written in part stays as it was, and is logged (R375). That a
store, unlike a write-back, rewrites a word is the model's choice: log 59. -/
def State.homeStore (s : State) (source pa n v : Nat) : State :=
  let whole (w : Nat) : Bool := decide (pa ≤ 8 * w) && decide (8 * w + 8 ≤ pa + n)
  let s1 : State := if s.bad.isEmpty then s else { s with bad := s.bad.filter fun w => !whole w }
  if pa % 128 + n ≤ 128 then s1.homeMerge source (pa / 128) (lineMask (pa % 128) n) (linePut (pa % 128) (v % 256 ^ n))
  else
    let a := 128 - pa % 128
    (s1.homeMerge source (pa / 128) (lineMask (pa % 128) a) (linePut (pa % 128) (v % 256 ^ a))).homeMerge source
      (pa / 128 + 1) (lineMask 0 (n - a)) (linePut 0 (v / 256 ^ a % 256 ^ (n - a)))

/-! ### Areas that a tile uses by physical address (R51, R58, R413) -/

/-- Why an access to 128 B of an overflow or deferral area fails: its address lies in no window of this package's memory, or it is
uncorrectable. -/
def State.areaFault (s : State) (pa : Nat) : Option Nat :=
  match s.win pa with
  | .inter | .near .. | .host => if s.badIn pa 128 then some 24 else none
  | _ => some 35

/-! ### Messages (R320–R325) -/

/-- DORD's field for a class (R321). -/
def Tile.order (t : Tile) (c : Cls) : BitVec 3 := t.dord.extractLsb' (3 * c.num) 3

/-- A source has 32 messages of one class in flight to one destination: its next one stalls (R323). An agent's 33rd waits in `msgs`
(`Msg.windowed`). -/
def State.crowdedFrom (s : State) (c : Cls) (src dst : Nat) : Bool :=
  decide (32 ≤ (s.msgs.filter fun m => m.src = src && destOf m.dst m.body = dst && m.cls = c).length)
def State.crowded (s : State) (c : Cls) (dst : Nat) : Bool := s.crowdedFrom c s.here dst

/-- A message that is still to be performed. -/
def Msg.pending (m : Msg) : Bool := m.st = .sent || m.st = .lost

/-- An earlier message of a class between the same ends is still to be performed, so that a new one waits for it there (R323). -/
def State.queued (s : State) (c : Cls) (src dst : Nat) : Bool :=
  s.msgs.any fun n => n.cls = c && n.src = src && destOf n.dst n.body = dst && n.pending

/-- Where the SEQ of a source, destination and class is counted. -/
def seqId (c : Cls) (src dst : Nat) (b : Body) : Nat := (src * 1100 + destOf dst b) * 8 + c.num
def State.nextSeq (s : State) (c : Cls) (src dst : Nat) (b : Body) : BitVec 6 := (look (seqId c src dst b) s.seqs).getD 0

/-- Sends a message: its SEQ counts for its source, destination and class (R323), its order is the injecting tile's (R321). -/
def State.send (s : State) (c : Cls) (src dst : Nat) (b : Body) : State :=
  let q := s.nextSeq c src dst b
  { s with
    seqs := put (seqId c src dst b) (q + 1) s.seqs
    msgs := s.msgs ++ [{ cls := c, src := src, dst := dst, ord := (s.tile src).order c, rord := if c = .req then (s.tile src).order .rsp else 0,
                         esc := false, escAt := 0, det := false, seq := q, attempt := 0, holds := 0, st := .sent, body := b }] }

/-- A welt completion answers its launch: class RSP, with the launch's SEQ, in the order that the launch's RORD names (R321, R323). -/
def State.sendEnd (s : State) (k : Kernel) (status : Byte) (info : BitVec 32) : State :=
  { s with msgs := s.msgs ++ [{ cls := .rsp, src := 1024, dst := k.tile.toNat, ord := k.rord, rord := 0, esc := false, escAt := 0, det := false,
                                seq := k.mseq, attempt := 0, holds := 0, st := .sent, body := .weltEnd k status info }] }

/-! ### The links that a message takes (R418–R421) -/

/-- The hops that a way takes with the patch tables as they stand: up a sole link, and through the torus. -/
def State.ups (s : State) (t : Trip) : List Hop := if t.up then upHops (fun r => (s.tile r).sideOf) t.src else []
def State.path (s : State) (t : Trip) : List Hop :=
  follow (fun r => (s.tile r).sideOf) t 64 (if (s.ups t).any (·.det) then some 0 else t.switch) none false t.hops
def State.course (s : State) (t : Trip) : List Hop := s.ups t ++ s.path t

/-- A hop leads over a failed link. -/
def State.lostAt (s : State) (h : Hop) : Bool := (s.tile h.router).failed.contains h.port

/-- The router at which a message is discarded, when its way leads over a failed link (R421). -/
def State.lostOn (s : State) (t : Trip) : Option Nat :=
  if s.tiles.all fun e => e.2.failed.isEmpty then none else ((s.course t).find? s.lostAt).map (·.router)

/-- It is counted there. -/
def State.countLost (s : State) (router : Nat) : State := s.modTile router fun t => { t with lostMsgs := t.lostMsgs + 1 }

/-- Header fields as a message arrives, DET, ESC and the hops before the switch, and those of its answer. -/
def State.stamp (s : State) (m : Msg) : Msg :=
  let l := s.path m.trip
  { m with det := (s.course m.trip).any (·.det), esc := l.any fun h => h.chan ≠ .p, escAt := (l.takeWhile fun h => h.chan = .p).length }
def State.stampBack (s : State) (m : Msg) : Msg :=
  let l := s.path m.tripBack
  { m with backDet := (s.course m.tripBack).any (·.det), backEsc := l.any fun h => h.chan ≠ .p, backAt := (l.takeWhile fun h => h.chan = .p).length }

/-- A request of a tile as it would now be sent. -/
def State.request (s : State) (key : Key) (src dst : Nat) (op : HomeOp) : Msg :=
  { cls := .req, src := src, dst := dst, ord := (s.tile src).order .req, rord := (s.tile src).order .rsp, esc := false, escAt := 0, det := false,
    seq := 0, attempt := 0, holds := 0, st := .sent, body := .access key op none }

/-- Where a request, or its answer, is discarded. -/
def State.breaks (s : State) (m : Msg) : Option Nat := match s.lostOn m.trip with
  | some r => some r
  | none => s.lostOn m.tripBack

/-- Whether a tile's request now fails to reach the home of an address, or its answer the tile. -/
def State.cutOff (s : State) (src pa : Nat) : Bool :=
  !(s.tiles.all fun e => e.2.failed.isEmpty) && (s.breaks (s.request ⟨0, 0⟩ src 1024 (.read pa 1))).isSome

/-- A tile's access to a home cannot be made now: a clamp holds the bank (R142), no way leads there (R421), or an earlier request of the tile to
that home is still on its way (R323). -/
def State.barred (s : State) (tile pa : Nat) : Bool := s.heldAtHome pa || s.cutOff tile pa || s.queued .req tile (1025 + slice pa)

/-- The cobbler tile that serves a tile's layer (R363); a tile out of service hands its layer to the next (R436). -/
def State.cobbler (s : State) (t : Nat) : Nat :=
  let z := t / 64
  if (s.tile (z * 64 + 63)).out then (z + 1) % 16 * 64 + 63 else z * 64 + 63

def isCobbler (t : Nat) : Bool := t % 64 = 63

/-- What a record says beside KIND, TOKEN and TILE (R364). -/
structure RecInfo where
  code : BitVec 16 := 0
  asid : BitVec 12 := 0
  handle : BitVec 45 := 0
  pc : Word := 0
  addr : Word := 0
  info : Word := 0
  /-- No access, at no level of a table. -/
  acc : Word := 0xF00
  pte : Word := 0

/-- Words 0–6 of a record; the cobbler tile adds word 7 (R364). -/
def RecInfo.words (r : RecInfo) (kind : Nat) (token : BitVec 16) (tile : Nat) : List Word :=
  [BitVec.ofNat 64 (kind * 2 ^ 56 + token.toNat * 2 ^ 32 + tile % 1024 * 2 ^ 16 + r.code.toNat),
   BitVec.ofNat 64 (r.asid.toNat * 2 ^ 45 + r.handle.toNat), r.pc, r.addr, r.info, r.acc, r.pte]

/-- A tile sends a record that names no strand's state (R361 last paragraph, R365), and the token it carries. -/
def State.sendItem (s : State) (tile kind : Nat) (r : RecInfo) : State × BitVec 16 :=
  let token := (s.tile tile).recordCount
  let owes := if kind = 5 || kind = 7 then [] else [(token, BitVec.ofNat 64 (r.asid.toNat * 2 ^ 45 + r.handle.toNat))]
  ((s.modTile tile fun t => { t with recordCount := t.recordCount + 1, owed := t.owed ++ owes }).send .sync tile (s.cobbler tile)
    (.record (r.words kind token tile)), token)

/-- A record about a strand: sent to the cobbler tile, or for a supervisor strand posted to the log (R361, R364). -/
def State.sendStrand (s : State) (t : Strand) (kind : Nat) (r : RecInfo) : State × Strand :=
  let tile := t.tile.toNat
  let token := (s.tile tile).recordCount
  let r := { r with asid := t.key.asid, handle := t.key.handle }
  let s1 := s.modTile tile fun u => { u with recordCount := u.recordCount + 1 }
  let t1 := { t with tokens := t.tokens ++ [(token, BitVec.ofNat 8 kind)], dirty := t.dirty ||| lineBit 0 }
  if t.supv then (s1.logEntry 2 tile (r.words kind token tile), t1)
  else (s1.send .sync tile (s.cobbler tile) (.record (r.words kind token tile)),
        { t1 with frptr := BitVec.ofNat 64 (tile * 2 ^ 48 + token.toNat * 2 ^ 32) })

/-! ### Taking a condition (R359–R361, R368) and returning from one (R187) -/

/-- TCAUSE's value for a condition (R359). -/
def Cond.tcause (c : Cond) : BitVec 16 := c.reg ++ BitVec.ofNat 12 c.code

/-- The trap registers of R359. -/
def Strand.writeTrap (t : Strand) (c : Cond) (cause : BitVec 16) : Strand :=
  { t with trappc := c.pc.getD t.pc, tcause := cause, tinfo := c.tinfo, taddr := c.taddr, dirty := t.dirty ||| lineBit 0 }

/-- Parks a strand for a fault: it leaves its slot, and one reply is outstanding (R368). -/
def Strand.park (t : Strand) (reason : BitVec 4) : Strand :=
  { t.flushHeld with
    state := 3, reason := reason, pend := t.pend + 1, slot := none, wait := none, blocked := 0, noticed := false, slotCycles := 0,
    deliver := false, ans := none, parts := [], did := 0, begun := false, pieces := [], inSecond := false, spawning := none,
    leaving := none, dirty := t.flushHeld.dirty ||| lineBit 0 }

/-- Whether a strand's handler can take a trap (R360). -/
def Strand.canHandle (t : Strand) : Bool := t.tvec != 0 && !t.intrap && !t.supv

/-- Handler entry: INTRAP is set and the strand continues at TVEC (R360). -/
def Strand.enterHandler (t : Strand) (c : Cond) : Strand :=
  { t.flushHeld.writeTrap c c.tcause with
    intrap := true, pc := t.tvec, npc := t.tvec, wait := none, blocked := 0, noticed := false, ans := none, parts := [], did := 0, begun := false,
    pieces := [], inSecond := false, spawning := none, leaving := none }

/-- A strand that no longer waits on a scratchpad word leaves the words' queues (R218). -/
def State.leaveQueues (s : State) (key : Key) : State :=
  if s.myTile.feq.any fun e => e.2 = key then s.modMyTile fun t => { t with feq := t.feq.filter fun e => e.2 ≠ key } else s

/-- Taking a condition at the strand being stepped: its handler, or a park with a record to the cobbler tile or the log. -/
def State.takeCond (s0 : State) (c : Cond) : State :=
  let s := s0.leaveQueues s0.me.key
  let t := s.me
  let info : RecInfo := { code := c.tcause, pc := c.pc.getD t.pc, addr := c.taddr, info := c.tinfo, acc := c.acc, pte := c.pte }
  if c.frame then
    let (s1, t1) := s.sendStrand t 1 info
    { s1 with me := { t1.park 1 with tcause := if t.intrap then t.tcause else 0 }, ended := .cond c }
  else if !c.fwd && t.canHandle then { s with me := t.enterHandler c, ended := .cond c }
  else
    let (s1, t1) := s.sendStrand t (if c.fwd then 2 else 3) info
    let t2 := if t.intrap then t1 else t1.writeTrap c 0
    { s1 with me := t2.park 2, ended := .cond c }

/-- `rft` (R187): back to TRAPPC with INTRAP clear. -/
def Strand.leaveHandler (t : Strand) : Strand := { t with npc := t.trappc, intrap := false, dirty := t.dirty ||| lineBit 0 }

/-- The strand waits: it keeps its slot and issues nothing (R37). -/
def State.enterWait (s : State) (w : Wait) : State :=
  let s1 := { s with me := { s.me with wait := some w }, ended := .wait w }
  let join (n : Nat) : State :=
    s1.modMyTile fun t => if t.feq.contains (n, s.me.key) then t else { t with feq := t.feq ++ [(n, s.me.key)] }
  match w with
  | .full off take => join (3 * (off / 8) + take.toNat)
  | .empty off _ => join (3 * (off / 8) + 2)
  | _ => s1

/-! ### Condition codes (R381) -/

def ILLENC : Nat := 1
def ILLSTATE : Nat := 2
def TAGCHK : Nat := 3
def MISALIGN : Nat := 4
def RANGE : Nat := 5
def PRIV : Nat := 6
def ANCHOR : Nat := 7
def BADREC : Nat := 8
def BADDESC : Nat := 9
def STASH : Nat := 10
def NOHANDLE : Nat := 11
def ADDRFORM : Nat := 12
def USERTRAP : Nat := 13
def ACCBUSY : Nat := 16
def WAITFULL : Nat := 17
def EYELET : Nat := 18
def PKTLOST : Nat := 19
def QUOTA : Nat := 20
def DATAERR : Nat := 24
def NOTPRESENT : Nat := 32
def MALFORMED : Nat := 33
def PERM : Nat := 34
def WINDOW : Nat := 35
def KILLED : Nat := 63

/-! ### Translation (R87–R99, R117–R119) -/

/-- On whose behalf, and how, an access translates. `acc` is the access kind of R364; `charge` the group charged (R119). -/
structure Who where
  asid : BitVec 12
  supv : Bool
  tile : Nat
  store : Bool := false
  fetch : Bool := false
  /-- A register-line fetch: the page must be writable, but the access reads (R102, R408). -/
  reads : Bool := false
  acc : Nat := 0
  charge : Option Byte := none

/-- The strand being stepped, for a load, store or fetch. -/
def State.whoLoad (s : State) : Who := { asid := s.me.key.asid, supv := s.me.supv, tile := s.here, charge := some s.me.cgrp }
def State.whoStore (s : State) : Who := { s.whoLoad with store := true, acc := 1 }
def State.whoFetch (s : State) : Who := { s.whoLoad with fetch := true, acc := 2 }

/-- Bits 63:57 equal bit 56 (R87). -/
def canon (a : Word) : Bool := a.extractLsb' 56 8 == 0#8 || a.extractLsb' 56 8 == 0xFF#8

def isScratch (a : Nat) : Bool := Config.scratchBase ≤ a && a < Config.scratchBase + Config.scratchSize

def sizeShift : Nat → Nat
  | 0 => 16
  | 1 => 21
  | _ => 29
/-- Page units of R118. -/
def sizeUnits (n : Nat) : Nat := 2 ^ (sizeShift n - 12)

def va57 (a : Word) : Nat := a.toNat % 2 ^ 57

/-- A fault of a walk: code, level and entry (R95, R399). -/
structure WalkFault where
  code : Nat
  level : Nat
  pte : Word
  deriving DecidableEq, Repr

/-- A fault or a wait of a translation. -/
inductive XErr
  | fault (f : WalkFault)
  | quota (size : Nat) (group : Byte)
  | dataErr
  | busy
  deriving DecidableEq, Repr

/-- Lowest VA bit that level n indexes, and how many bits (R93). -/
def lvlShift : Nat → Nat
  | 0 => 16 | 1 => 21 | 2 => 29 | 3 => 39 | _ => 48
def lvlBits : Nat → Nat
  | 0 => 5 | 1 => 8 | 2 => 10 | _ => 9

/-- A legal leaf: its reserved fields, its frame's alignment, and the memory type that its window allows. R332 names no fault for an MT 3 leaf with
S = 0: such a leaf is legal, and strands without SUPV reach the register window through it (DESIGN CHOICE, log 91). -/
def leafOk (s : State) (level : Nat) (e : Word) : Bool :=
  level ≤ 2 && bits e 63 59 = 0 && bits e 57 52 = 0 &&
  (bits e 51 16 * 2 ^ 16) % 2 ^ lvlShift level = 0 &&
  (let mt := bits e 7 6
   match s.win (bits e 51 16 * 2 ^ 16) with
   | .inter | .near _ _ => mt = 0 || mt = 1
   | .host => mt = 0 || mt = 2
   | .reg _ => mt = 3
   | .remote _ => mt = 0 || mt = 1
   | .none => true)

def nodeOk (level : Nat) (e : Word) : Bool :=
  level ≥ 1 && bits e 63 52 = 0 && bits e 7 2 = 0 && (bits e 51 8 * 2 ^ 8) % 2 ^ (lvlBits (level - 1) + 3) = 0

/-- The levels below `level`: the leaf's size, entry and address, with the non-leaf entries read on the way. -/
def walkFrom (s : State) (asid : BitVec 12) (va : Nat) : Nat → Nat → List Wentry → Except XErr (Nat × Word × Nat × List Wentry)
  | level, table, seen =>
    let idx := va / 2 ^ lvlShift level % 2 ^ lvlBits level
    let pa := table + 8 * idx
    let cached := s.walker.find? fun w => w.asid = asid && w.level = level && w.prefix_ = va / 2 ^ lvlShift level
    if cached.isNone && s.badIn pa 8 then .error .dataErr else
    if cached.isNone && s.heldAtHome pa then .error .busy else
    let e := match cached with
      | some w => w.entry
      | none => BitVec.ofNat 64 (s.homeRead pa 8)
    if !e.getLsbD 0 then .error (.fault ⟨NOTPRESENT, level, e⟩)
    else if e.getLsbD 1 then
      if leafOk s level e then .ok (level, e, pa, seen) else .error (.fault ⟨MALFORMED, level, e⟩)
    else if !nodeOk level e then .error (.fault ⟨MALFORMED, level, e⟩)
    else match level with
      | 0 => .error (.fault ⟨MALFORMED, 0, e⟩)
      | n + 1 => walkFrom s asid va n (bits e 51 8 * 2 ^ 8) ({ asid := asid, level := n + 1, prefix_ := va / 2 ^ lvlShift (n + 1), entry := e } :: seen)

/-- A walk from the space table (R92, R93, R99). A space-table entry that breaks its reserved bits is reported with level 5, as R399 has it
for V = 0 (DESIGN CHOICE, log 60); a read of a bank that a welt core clamps waits (R142). -/
def walk (s : State) (asid : BitVec 12) (va : Nat) : Except XErr (Nat × Word × Nat × List Wentry) :=
  let spa := bits s.sptbase 51 16 * 2 ^ 16 + asid.toNat * 16
  if s.badIn spa 16 then .error .dataErr else
  if s.heldAtHome spa then .error .busy else
  let root := BitVec.ofNat 64 (s.homeRead spa 8)
  if !root.getLsbD 0 then .error (.fault ⟨NOTPRESENT, 5, root⟩)
  else if bits root 63 52 ≠ 0 || bits root 11 1 ≠ 0 || s.homeRead (spa + 8) 8 ≠ 0 then .error (.fault ⟨MALFORMED, 5, root⟩)
  else walkFrom s asid va 4 (bits root 51 12 * 2 ^ 12) []

/-- Least-recently-used: `x` to the front, at most `n` entries. -/
def toFront {α : Type} (same : α → Bool) (n : Nat) (x : α) (l : List α) : List α := (x :: l.filter fun y => !same y).take n

def Tlb.hit (asid : BitVec 12) (va : Nat) (e : Tlb) : Bool := e.asid = asid && e.page = va / 2 ^ sizeShift e.size

def Tlb.same (x y : Tlb) : Bool := x.asid = y.asid && x.size = y.size && x.page = y.page

/-- The set of the L2 TLB (R97). -/
def Tlb.set (e : Tlb) : Nat := e.page % 128

/-- The bank of the LLTLB (R97): for a 512 MiB page the VA bits that vary inside it count as 0 (DESIGN CHOICE, log 61). -/
def Tlb.bank (e : Tlb) : Nat :=
  let va := e.page * 2 ^ sizeShift e.size
  (va / 2 ^ 29 % 64) ^^^ (va / 2 ^ 21 % 64)

/-- At most `n` entries of a class, least recent dropped. -/
def toFrontIn (cls : Tlb → Nat) (n : Nat) (x : Tlb) (l : List Tlb) : List Tlb :=
  let l1 := l.filter fun y => !x.same y
  let mine := (l1.filter fun y => cls y = cls x).take (n - 1)
  x :: l1.filter fun y => cls y ≠ cls x || mine.contains y

/-- A completed walk fills the three levels (R97). -/
def State.fillTlb (s : State) (tile : Nat) (e : Tlb) : State :=
  let s := s.modTile tile fun t => { t with tlb1 := toFront e.same 32 e t.tlb1, tlb2 := toFrontIn Tlb.set 4 e t.tlb2 }
  let y := s.layer (tile / 64)
  s.setLayer (tile / 64) { y with lltlb := toFrontIn Tlb.bank 256 e y.lltlb }

/-- The cached leaf that serves an access, nearest level first, and the state in which that level's entry is most recent and the
nearer levels hold it too. -/
def State.cachedLeaf (s : State) (tile : Nat) (asid : BitVec 12) (va : Nat) : Option (Tlb × State) :=
  let t := s.tile tile
  match t.tlb1.find? (Tlb.hit asid va) with
  | some e => some (e, s.setTile tile { t with tlb1 := toFront e.same 32 e t.tlb1 })
  | none =>
    match t.tlb2.find? (Tlb.hit asid va) with
    | some e => some (e, s.setTile tile { t with tlb1 := toFront e.same 32 e t.tlb1, tlb2 := toFrontIn Tlb.set 4 e t.tlb2 })
    | none =>
      match (s.layer (tile / 64)).lltlb.find? (Tlb.hit asid va) with
      | some e => some (e, s.fillTlb tile e)
      | none => none

/-- The leaf allows the access (R96). -/
def leafAllows (w : Who) (e : Word) : Bool :=
  (!w.store || e.getLsbD 2) && (!w.fetch || e.getLsbD 3) && (w.supv || !e.getLsbD 4)

def chgOn (s : State) : Bool := s.chgbase.getLsbD 0
/-- Address of a charge entry (R117). -/
def chgEntry (s : State) (asid : BitVec 12) (group : Byte) : Nat := bits s.chgbase 51 24 * 2 ^ 24 + (asid.toNat * 256 + group.toNat) * 16
def chgUsed (s : State) (pa : Nat) : Nat := s.homeRead pa 8 % 2 ^ 40
def chgLimit (s : State) (pa : Nat) : Nat := s.homeRead (pa + 8) 8 % 2 ^ 40
/-- Writes USED, and nothing else of the entry (R411). -/
def State.setUsed (s : State) (pa used : Nat) : State := s.homeWrite pa 8 (s.homeRead pa 8 / 2 ^ 40 * 2 ^ 40 + used % 2 ^ 40)
/-- USED := Max(0, USED − n) (R191); an uncorrectable entry is logged and stays as it was (R375, R379). -/
def State.uncharge (s : State) (source : Nat) (asid : BitVec 12) (group : Byte) (n : Nat) : State :=
  if !chgOn s then s else
  let pa := chgEntry s asid group
  if s.badIn pa 16 then s.logUncorr source pa 5 (lineMask (pa % 128) 16) else s.setUsed pa (chgUsed s pa - n)

/-- Steps 1–3 of R118 on a leaf just walked. -/
def chargeLeaf (s : State) (w : Who) (size : Nat) (leaf : Word) (leafpa : Nat) : Except XErr (Word × State) :=
  match w.charge with
  | none => .ok (leaf, s)
  | some c =>
    if !chgOn s || leaf.getLsbD 5 then .ok (leaf, s)
    else
      let pa := chgEntry s w.asid c
      if s.heldAtHome pa || s.heldAtHome leafpa then .error .busy
      else if s.badIn pa 16 then .error .dataErr
      else if chgUsed s pa + sizeUnits size > chgLimit s pa then .error (.quota size c)
      else
        let leaf := setBits (setBits leaf 5 5 1) 15 8 c.toNat
        .ok (leaf, (s.setUsed pa (chgUsed s pa + sizeUnits size)).homeWrite leafpa 8 leaf.toNat)

/-- Translation of a canonical address outside the scratch window, with the second walk of R99 and the charge of R118. -/
def translate (s : State) (w : Who) (va : Nat) : Except XErr (Xl × State) :=
  let ans (e : Tlb) (s : State) : Xl × State :=
    ({ pa := bits e.leaf 51 16 * 2 ^ 16 + va % 2 ^ sizeShift e.size, mt := bits e.leaf 7 6, size := e.size, leaf := e.leaf }, s)
  let fresh : Except XErr (Xl × State) :=
    match walk s w.asid va with
    | .error e => .error e
    | .ok (size, leaf, leafpa, seen) =>
      let s1 := { s with walker := seen.foldl (fun l x => toFront (fun y => y.asid = x.asid && y.level = x.level && y.prefix_ = x.prefix_) 1024 x l) s.walker }
      if w.store && !w.reads && leaf.getLsbD 58 then .error .busy
      else if !leafAllows w leaf then .error (.fault ⟨PERM, 15, leaf⟩)
      else match chargeLeaf s1 w size leaf leafpa with
        | .error e => .error e
        | .ok (leaf, s2) =>
          let e : Tlb := { asid := w.asid, size := size, page := va / 2 ^ sizeShift size, leaf := leaf }
          .ok (ans e (s2.fillTlb w.tile e))
  match s.cachedLeaf w.tile w.asid va with
  | some (e, s1) =>
    if leafAllows w e.leaf && !(w.store && !w.reads && e.leaf.getLsbD 58) && (e.leaf.getLsbD 5 || w.charge.isNone || !chgOn s) then .ok (ans e s1) else fresh
  | none => fresh

/-- A fresh walk that denies an access replaces the cached entries, as one that allows it does (R400). -/
def State.denied (s : State) (w : Who) (va : Nat) : State :=
  match walk s w.asid va with
  | .ok (size, leaf, _, _) =>
    if leafAllows w leaf then s else s.fillTlb w.tile { asid := w.asid, size := size, page := va / 2 ^ sizeShift size, leaf := leaf }
  | .error _ => s

/-- TINFO of a translation fault and ACC of its record (R381, R364). -/
def faultInfo (acc level : Nat) : Word := BitVec.ofNat 64 (acc + level * 2 ^ 8)

/-- TINFO of QUOTA classes 0 and 1 (R410). -/
def quotaInfo (cls size : Nat) (group : Byte) (need : Nat) : Word :=
  BitVec.ofNat 64 (cls * 2 ^ 62 + size * 2 ^ 56 + group.toNat * 2 ^ 48 + need)

/-- The condition or wait of a strand's failed translation (R399). -/
def XErr.stop (e : XErr) (w : Who) (a : Word) (pc : Word) : Stop :=
  match e with
  | .fault f => .cond { code := f.code, tinfo := faultInfo w.acc f.level, taddr := a, fwd := true, acc := faultInfo w.acc f.level, pte := f.pte }
  | .quota size c => .cond { code := QUOTA, tinfo := quotaInfo 0 size c (sizeUnits size), taddr := a }
  | .dataErr => .cond { code := DATAERR, tinfo := pc, taddr := a }
  | .busy => .wait .unit

/-- Translation in a meaning: what R384 keeps of it is noted for replay. -/
def xlate (w : Who) (a : Word) : M Xl := do
  let s ← get
  let s : State := { s with walkLog := s.walkLog ++ [{ va := a, store := w.store, fetch := w.fetch, charge := w.charge.isSome }] }
  set s
  match translate s w (va57 a) with
  | .ok (x, s') => set s'; pure x
  | .error e =>
    set (s.denied w (va57 a))
    throw (e.stop w a s.me.pc)

/-- Replays the translations of an undone pair: their fills and charges stand (R384). -/
def State.replay (s : State) (l : List Walk) : State :=
  l.foldl (fun s e =>
    let w := if e.fetch then s.whoFetch else if e.store then s.whoStore else s.whoLoad
    let w := { w with charge := if e.charge then w.charge else none }
    match translate s w (va57 e.va) with
    | .ok (_, s') => s'
    | .error _ => s.denied w (va57 e.va)) s

/-- What stands of an execution that ended in a condition: its translations with their fills and charges (R384), and answers that it
took (requests to other packages and to homes that are answered are not asked again). -/
def State.keep (s s' : State) : State :=
  { s.replay (s'.walkLog.drop s.walkLog.length) with
    packets := s.packets.filter fun p => s'.packets.contains p
    msgs := s.msgs.filter fun m => s'.msgs.contains m || (match m.body with | .access .. => false | _ => true)
    walkLog := s'.walkLog }

/-- Runs a meaning: its effect, the condition it ends in with no effect but R384's, or its wait. -/
def run (m : M Unit) (s : State) : Host.Outcome State Fault Refusal :=
  match m s with
  | .ok _ s' => .next { s' with ended := .ok }
  | .error (.cond c) s' => .next ((s.keep s').takeCond c)
  | .error (.wait w) s' => .next (s'.enterWait w)

/-! ### Scratchpad (R103, R104, R109, R363) -/

/-- The first byte from `off` that the strand may not use, with its PRIV reason (R109, R363). -/
def ownerFail (s : State) (tile : Nat) (asid : BitVec 12) (supv : Bool) (off n : Nat) : Option (Nat × Nat) :=
  if supv || n = 0 then none else
  let owned (r : Nat) : Bool := match (s.tile tile).scrasid.toList[r]? with
    | some w => w.getLsbD 12 && w.extractLsb' 0 12 == asid
    | none => false
  let cob := isCobbler tile && Config.cobblerBase < off + n
  let cobOff := max off Config.cobblerBase
  match (List.range (((off + n - 1) / 65536) + 1)).find? (fun r => off / 65536 ≤ r && !owned r) with
  | some r =>
    let o := max off (r * 65536)
    if cob && cobOff ≤ o then some (cobOff, 0x200) else some (o, 0x300)
  | none => if cob then some (cobOff, 0x200) else none

def scrVA (off : Nat) : Word := BitVec.ofNat 64 (Config.scratchBase + off)

/-- PRIV when the strand may not use the bytes (R109). -/
def checkOwner (off n : Nat) : M Unit := do
  let s ← get
  match ownerFail s s.here s.me.key.asid s.me.supv off n with
  | some (o, why) => throw (.cond { code := PRIV, tinfo := BitVec.ofNat 64 why, taddr := scrVA o })
  | none => pure ()

def Tile.scrRead (t : Tile) (off n : Nat) : Nat := Mem.readN t.scratch off n
def Tile.scrWrite (t : Tile) (off n v : Nat) : Tile :=
  { t with
    scratch := Mem.writeN t.scratch off n v
    badw := t.badw.filter fun w => !(off ≤ 8 * w && 8 * w + 8 ≤ off + n) }
/-- Whether a word among the bytes is uncorrectable (R375). -/
def Tile.scrBad (t : Tile) (off n : Nat) : Bool := t.badw.any fun w => off < 8 * w + 8 && 8 * w < off + n
/-- The uncorrectable words of the 128 B at an offset. -/
def Tile.badWords (t : Tile) (off : Nat) : BitVec 16 :=
  if t.badw.isEmpty then 0 else
  BitVec.ofNat 16 ((List.range 16).foldl (fun x i => if t.badw.contains (off / 8 + i) then x + 2 ^ i else x) 0)
def Tile.isFull (t : Tile) (off : Nat) : Bool := t.full.contains (off / 8)
def Tile.setFull (t : Tile) (off : Nat) (scopeC : Bool) : Tile :=
  { t with full := ins (off / 8) t.full, scopeC := if scopeC then ins (off / 8) t.scopeC else t.scopeC.filter fun w => w ≠ off / 8 }
/-- Setting a word empty sets its recorded scope to .t (R138). -/
def Tile.setEmpty (t : Tile) (off : Nat) : Tile :=
  { t with full := t.full.filter fun w => w ≠ off / 8, scopeC := t.scopeC.filter fun w => w ≠ off / 8 }

/-- An engine's write: the bytes, then every word they touch set full with the scope it records (R104, R138), but for words in which the
engine has more to write. -/
def Tile.engineWrite (t : Tile) (off n v : Nat) (scopeC : Bool) (more : Nat → Bool := fun _ => false) : Tile :=
  let t := t.scrWrite off n v
  if n = 0 then t else
  (List.range ((off + n - 1) / 8 - off / 8 + 1)).foldl (fun t i => if more (off / 8 + i) then t else t.setFull (8 * (off / 8 + i)) scopeC) t

/-! ### Waiters on a scratchpad word (R218)

`feq` queues the blocked strands of a tile: word w has the `ldf` under 3w, the `ldfe` under 3w + 1 and the `stef` under
3w + 2, each in the order in which they blocked. -/

def Tile.waiter (t : Tile) (n : Nat) : Option Key := (t.feq.find? fun e => e.1 = n).map (·.2)
def Tile.unqueue (t : Tile) (key : Key) : Tile := { t with feq := t.feq.filter fun e => e.2 ≠ key }

/-- The strand leaves the queue with its answer and is blocked no longer. -/
def State.serveOne (s : State) (tile : Nat) (key : Key) (a : Ans) : State :=
  (s.modTile tile fun t => t.unqueue key).modStrand key fun t => { t with ans := some a, blocked := 0, noticed := false }

/-- A full word releases every `ldf` and one `ldfe`, which empties it; an empty word releases one `stef`, which fills it. -/
def State.serveN : Nat → Nat → Nat → State → State
  | 0, _, _, s => s
  | n + 1, tile, w, s =>
    let t := s.tile tile
    let off := 8 * w
    if t.isFull off then
      let a := Ans.got (BitVec.ofNat 64 (t.scrRead off 8)) (t.scopeC.contains w) (t.scrBad off 8)
      match t.waiter (3 * w), t.waiter (3 * w + 1) with
      | some key, _ => State.serveN n tile w (s.serveOne tile key a)
      | none, some key => State.serveN n tile w ((s.serveOne tile key a).modTile tile fun t => t.setEmpty off)
      | none, none => s
    else match t.waiter (3 * w + 2) with
      | none => s
      | some key => match (s.strand? key).bind (·.wait) with
        | some (Wait.empty _ x) =>
          State.serveN n tile w ((s.serveOne tile key .accepted).modTile tile fun t => (t.scrWrite off 8 x.toNat).setFull off false)
        | _ => s

/-- The waiters of the words among the bytes. -/
def State.serve (s : State) (tile off n : Nat) : State :=
  if (s.tile tile).feq.isEmpty then s else
  (List.range ((off % 8 + n + 7) / 8)).foldl (fun s i => State.serveN ((s.tile tile).feq.length) tile (off / 8 + i) s) s

/-- An engine's write to tile `tile`, and the waiters it releases. -/
def State.engineWrite (s : State) (tile off n v : Nat) (scopeC : Bool) (more : Nat → Bool := fun _ => false) : State :=
  (s.modTile tile fun t => t.engineWrite off n v scopeC more).serve tile off n

/-! ### Requests to the homes and to other tiles (R112, R141, R324, R422–R425) -/

/-- The first 64 B granule of an image that its destination does not accept (R109, R229, R363). -/
def Tile.refuses (t : Tile) (tile : Nat) (asid : BitVec 12) (off n : Nat) : Option Nat :=
  let owned (r : Nat) : Bool := match t.scrasid.toList[r]? with
    | some w => w.getLsbD 12 && w.extractLsb' 0 12 == asid
    | none => false
  firstIdx (fun i =>
    let a := off / 64 * 64 + 64 * i
    !owned (a / 65536) || (isCobbler tile && Config.cobblerBase < min (a + 64) (off + n)))
    (List.range (granulesOf off n))

/-- The bytes of granule i of `n` bytes at an offset: where they begin among them, and how many they are. -/
def granuleAt (off n i : Nat) : Nat × Nat :=
  let lo := if i = 0 then 0 else 64 * i - off % 64
  (lo, min n (64 * (i + 1) - off % 64) - lo)

/-- One granule of an engine's bytes enters a scratchpad. -/
def State.putGranule (s : State) (tile off n v : Nat) (scopeC : Bool) (hold : List Nat) (i : Nat) : State :=
  let (lo, k) := granuleAt off n i
  s.engineWrite tile (off + lo) k (v / 256 ^ lo % 256 ^ k) scopeC fun w => hold.contains w

/-- The granules of an engine's bytes but for those that are already there. -/
def State.putGranules (s : State) (tile off n v : Nat) (scopeC : Bool) (hold skip : List Nat) : State :=
  (List.range (granulesOf off n)).foldl (fun s i => if skip.contains i then s else s.putGranule tile off n v scopeC hold i) s

/-- A read or an atomic that a stack out of service cannot serve is logged (R429). -/
def State.logOut (s : State) (source pa n : Nat) : State := if s.outAt pa then s.logUncorr source pa 5 (lineMask (pa % 128) n) else s

/-- A home, or a tile's network interface, performs a request; none while a welt core's clamp holds it (R112, R141, R142, R229). -/
def State.served (s : State) (src dst : Nat) (op : HomeOp) : Option (HomeAns × State) :=
  if op.pa?.any s.heldAtHome then none else
  match op with
  | .read pa n => some (.data (s.homeLine (pa / 128)) (s.badMask (pa / 128)), (s.logOut src pa n).homeFill (pa / 128))
  | .write pa n v _ => some (.done, s.homeStore src pa n v)
  | .back line m x => some (.done, s.homeMerge src line m x)
  | .amo pa n op data =>
    if s.badIn pa n then some (.bad, s.logOut src pa n) else
    let old := s.homeRead pa n
    some (.old old, match (portAtomic (op / 64) (op / 8 % 8) (op % 8) n data).bind fun f => f old with
      | some new => s.homeWrite pa n new
      | none => s.homeFill (pa / 128))
  | .put off n v asid hold skip =>
    match asid.bind fun a => (s.tile dst).refuses dst a off n with
    | some g => some (.refused g, s)
    | none => some (.done, s.putGranules dst off n v true hold skip)

/-- What becomes of a request: its answer, with the request as it was made; it waits; or it has failed for good (R425). -/
inductive Reach
  | got (op : HomeOp) (a : HomeAns) (s : State)
  | waits (w : Wait) (s : State)
  | failed (s : State)

/-- The same request, made again while an earlier attempt is on its way: a write-back of one line carries what was then dirty. -/
def HomeOp.like (x y : HomeOp) : Bool :=
  match x, y with
  | .back a m _, .back b n _ => a = b && (m &&& n) != 0
  | .put a n v .., .put b m w .. => a = b && n = m && v = w
  | x, y => x = y

/-- The request of an agent that is on its way. -/
def Msg.asks (m : Msg) (key : Key) (src dst : Nat) (op : HomeOp) : Bool :=
  m.src = src && m.dst = dst && match m.body with
    | .access k o _ => k = key && o.like op
    | _ => false

/-- A request must travel as a message: this step's do, an earlier one to the same end is still to be performed (R323), or its way is broken. -/
def State.travels (s : State) (m : Msg) : Bool := s.onLinks || s.queued .req m.src (destOf m.dst m.body) || (s.breaks m).isSome

/-- A request leaves; on a broken way it is lost, and counted where (R421). -/
def State.sendRequest (s : State) (key : Key) (src dst : Nat) (op : HomeOp) : State :=
  match s.breaks (s.request key src dst op) with
  | none => s.send .req src dst (.access key op none)
  | some r =>
    let s1 := s.send .req src dst (.access key op none)
    ({ s1 with msgs := s1.msgs.modify (s1.msgs.length - 1) fun m => { m with st := .lost } } : State).countLost r

/-- A request of an agent of tile `src` to a home, or to tile `dst`: performed in this step where it may be, or sent as a message that its
receiver performs when it arrives, and answered (R422–R425). -/
def State.ask (s : State) (key : Key) (src dst : Nat) (op : HomeOp) : Reach :=
  match s.msgs.find? fun m => m.asks key src dst op with
  | some { body := .access _ sent (some a), .. } =>
    let s1 : State := { s with msgs := s.msgs.filter fun m => !m.asks key src dst op }
    match a with
    | some x => .got sent x s1
    | none => .failed s1
  | some _ => .waits .answer s
  | none =>
    let m := s.request key src dst op
    if s.crowdedFrom .req src (destOf dst m.body) then .waits .unit s
    else if s.travels m then .waits .answer (s.sendRequest key src dst op)
    else match s.served src dst op with
      | some (a, s1) => .got op a s1
      | none => .waits .unit s

/-- A request of the strand being stepped, as it was made, and its answer; none when it has failed for good. -/
def asked (op : HomeOp) : M (Option (HomeOp × HomeAns)) := do
  let s ← get
  match s.ask s.me.key s.here 1024 op with
  | .got sent a s1 =>
    set s1
    return some (sent, a)
  | .failed s1 =>
    set s1
    return none
  | .waits w s1 =>
    set s1
    throw (.wait w)

/-- A store of the strand being stepped to a home: it is not waited for (R111, R424). -/
def posted (op : HomeOp) : M Unit := do
  let s ← get
  let m := s.request s.me.key s.here 1024 op
  waitIf (s.crowdedFrom .req s.here (destOf 1024 m.body)) .unit
  if s.travels m then set (s.sendRequest s.me.key s.here 1024 op)
  else match s.served s.here 1024 op with
    | some (_, s1) => set s1
    | none => throw (.wait .unit)

/-- A posted store that is still on its way, or that has failed for good. -/
def Msg.isPosted (m : Msg) (key : Key) : Bool := match m.body with
  | .access k (.write ..) _ => k = key
  | _ => false
def Msg.hasFailed (m : Msg) : Bool := match m.body with
  | .access _ _ (some none) => true
  | _ => false

/-! ### Requests to other packages (R327–R329) -/

/-- The enabled ports whose far end is P, in ascending order (R329). -/
def State.portsTo (s : State) (p : Nat) : List Nat :=
  (List.range 32).filter fun i => match s.optmap.toList[i]? with
    | some w => w.getLsbD 3 && (w.extractLsb' 0 3).toNat = p
    | none => false

def State.portFor (s : State) (p pa : Nat) : Option Nat :=
  let l := s.portsTo p
  if l.isEmpty then none else l[slice pa % l.length]?

/-- A port packet's header (R328). -/
def portHdr (type spkg dpkg size seq tag op sc sem off : Nat) : BitVec 128 :=
  BitVec.ofNat 128 (type * 2 ^ 124 + spkg * 2 ^ 121 + dpkg * 2 ^ 118 + size * 2 ^ 112 + seq * 2 ^ 96 + tag * 2 ^ 80 + op * 2 ^ 72 + sc * 2 ^ 70 + sem * 2 ^ 68 + off)

/-- Eight steps of the IEEE 802.3 polynomial, least significant bit first. -/
def crcStep : Nat → BitVec 32 → BitVec 32
  | 0, x => x
  | n + 1, x => crcStep n (if x.getLsbD 0 then (x >>> 1) ^^^ 0xEDB88320#32 else x >>> 1)

def crcBytes : List Byte → BitVec 32 → BitVec 32
  | [], x => x
  | b :: r, x => crcBytes r (crcStep 8 (x ^^^ b.setWidth 32))

/-- The CRC-32 of a packet, over header and payload (R328). -/
def portCrc (h : BitVec 128) (data : List Byte) : BitVec 32 := ~~~ (crcBytes (natBytes 16 h.toNat ++ data) (BitVec.allOnes 32))

/-- What follows the header on a port: the payload and the CRC. -/
def wire (h : BitVec 128) (data : List Byte) : List Byte := data ++ natBytes 4 (portCrc h data).toNat

/-- TAG of a new request of a tile: its ID, and the lowest index that none of its outstanding requests holds (R328). -/
def State.freeTag (s : State) (tile : Nat) : Option Nat :=
  ((List.range 64).find? fun i => !(s.packets.any fun p => bits p.hdr 95 80 = tile * 64 + i)).map fun i => tile * 64 + i

/-- A packet goes out on its port with its CRC, unless its way to the sole die by the tile above its slice leads over a failed link (R329, R421). -/
def State.leavePort (s : State) (tile off port : Nat) (hdr : BitVec 128) (data : List Byte) (s1 : State) : State :=
  match s.lostOn (s.request ⟨0, 0⟩ tile 1024 (.read off 1)).trip with
  | some r => s1.countLost r
  | none => { s1 with portOut := s1.portOut ++ [(port, hdr, wire hdr data)] }

/-- A packet leaves: it is outstanding. -/
def State.sendPacket (s : State) (key : Key) (port : Nat) (hdr : BitVec 128) (data : List Byte) (va : Word := 0) : State :=
  s.leavePort (bits hdr 95 86) (bits hdr 48 0) port hdr data { s with
    packets := s.packets ++ [{ key := key, hdr := hdr, data := data, port := port, attempt := 0, va := va, reply := none }]
    portSeq := s.portSeq + 1 }

/-- Runs of bytes that a mask names in the 64 B granule from `lo`: offset and length. -/
def maskRuns (m : MaskV) (lo : Nat) : List (Nat × Nat) :=
  (List.range 64).foldl (fun l i =>
    if m.getLsbD (lo + i) then
      match l.getLast? with
      | some (a, n) => if a + n = lo + i then l.dropLast ++ [(a, n + 1)] else l ++ [(lo + i, 1)]
      | none => [(lo + i, 1)]
    else l) []

/-- The writes that carry bytes of a line: one for each run, so that a whole granule travels as one (R324, R133). -/
def lineRuns (m : MaskV) : List (Nat × Nat) := maskRuns m 0 ++ maskRuns m 64

/-- Who sends a line that no strand's release names: its response ends it. -/
def tileKey (asid : BitVec 12) : Key := { asid := asid, handle := BitVec.allOnes 45 }

/-- An agent of a tile that awaits its own answers: the tile's write-backs (0), or the write of the export cell of handle SEQ n − 1. -/
def agentKey (asid : BitVec 12) (n : Nat) : Key := { asid := asid, handle := BitVec.allOnes 45 - BitVec.ofNat 45 (n + 1) }

/-- Indexes of TAG that no outstanding request of a tile holds. -/
def State.tagsFree (s : State) (tile : Nat) : Nat :=
  ((List.range 64).filter fun i => !(s.packets.any fun p => bits p.hdr 95 80 = tile * 64 + i)).length

/-- Bytes of a line leave as writes for another package, each with a TAG of its own (R328, R329); a caller sees that so many are free. -/
def State.postLine (s : State) (key : Key) (tile pkg line : Nat) (m : MaskV) (x : Line) (va : Word := 0) : State :=
  match s.portFor pkg (line * 128) with
  | none => s
  | some port =>
    (lineRuns m).foldl (fun s r =>
      match s.freeTag tile with
      | none => s
      | some tag =>
        s.sendPacket key port (portHdr 1 s.pkgid.toNat pkg (r.2 - 1) s.portSeq.toNat tag 0 0 0 ((line * 128 + r.1) % 2 ^ Config.pkgShift))
          (natBytes r.2 (lineBytes x r.1 r.2)) va) s

/-! ### L1 (R110, R111) and stash (R105–R108) -/

def CLine.covers (e : CLine) (m : MaskV) : Bool := e.valid || (m &&& ~~~ e.dirty) == 0

def CLine.blank (addr : Nat) (asid : BitVec 12) (mt : Nat) (priv : Bool) (va : Word := 0) : CLine :=
  { addr := addr, asid := asid, valid := false, dirty := 0, data := 0, priv := priv, mt := BitVec.ofNat 2 mt, bad := 0, va := va }

/-- The bytes of a line's uncorrectable words. -/
def CLine.badMask (e : CLine) : MaskV :=
  BitVec.ofNat 128 ((List.range 16).foldl (fun x i => if e.bad.getLsbD i then x + 255 * 256 ^ i else x) 0)
/-- The words of a line that lie whole among the bytes. -/
def wholeWords (m : MaskV) : BitVec 16 :=
  BitVec.ofNat 16 ((List.range 16).foldl (fun x i => if m.extractLsb' (8 * i) 8 == 255 then x + 2 ^ i else x) 0)
/-- Whether a word among the bytes is uncorrectable. -/
def CLine.badAt (e : CLine) (off n : Nat) : Bool := e.bad != 0 && (List.range 16).any fun i => e.bad.getLsbD i && off < 8 * i + 8 && 8 * i < off + n

/-- A fill keeps the dirty bytes (R106). -/
def CLine.fill (e : CLine) (x : Line) : CLine := { e with valid := true, data := mergeLine e.dirty e.data x }
/-- A word written whole is good again (R375). -/
def CLine.store (e : CLine) (m : MaskV) (x : Line) : CLine :=
  { e with dirty := e.dirty ||| m, data := mergeLine m x e.data, bad := if e.bad = 0 then 0 else e.bad &&& ~~~ (wholeWords m) }
/-- Bytes are home: clean, and what was uncorrectable is fetched again. -/
def CLine.wrote (e : CLine) (m : MaskV) : CLine :=
  { e with dirty := e.dirty &&& ~~~ m, valid := e.valid && e.bad == 0, bad := if e.dirty &&& ~~~ m = 0 then 0 else e.bad }

def Tile.l1Find (t : Tile) (line : Nat) (asid : BitVec 12) : Option CLine := t.l1.find? fun e => e.addr = line && e.asid = asid
def Tile.l1Map (t : Tile) (line : Nat) (asid : BitVec 12) (f : CLine → CLine) : Tile :=
  { t with l1 := t.l1.map fun e => if e.addr = line && e.asid = asid then f e else e }

/-- An uncorrectable word is left out of a write-back and logged, by its store's row of R375. -/
def State.leaveBad (s : State) (tile store : Nat) (e : CLine) : State × MaskV :=
  if e.bad = 0 then (s, e.dirty)
  else if e.dirty &&& e.badMask = 0 then (s, e.dirty)
  else (s.logUncorr tile (e.addr * 128) store (e.dirty &&& e.badMask), e.dirty &&& ~~~ e.badMask)

/-- The good dirty bytes of a line go to its home (R110, R375), or to another package (R329). `store` is 3 for the L1, 2 for a stash. -/
def State.writeBack (s0 : State) (tile : Nat) (e : CLine) (store : Nat := 3) : State :=
  if e.dirty = 0 then s0 else
  let (s, m) := s0.leaveBad tile store e
  match s.win (e.addr * 128) with
  | .remote pkg => s.postLine (tileKey e.asid) tile pkg e.addr m e.data e.va
  | _ => s.homeMerge tile e.addr m e.data

/-- A dirty line that cannot go home now: its home cannot be reached (`State.barred`), or no port leads there (R329) or no TAG is free (R328). -/
def State.stuck (s : State) (tile : Nat) (e : CLine) : Bool :=
  e.dirty != 0 &&
  match s.win (e.addr * 128) with
  | .remote pkg => (s.portsTo pkg).isEmpty || decide (s.tagsFree tile < (lineRuns e.dirty).length)
  | _ => s.barred tile (e.addr * 128)

/-- The lines of a line's set, most recent first, but the line itself. -/
def Tile.l1Others (t : Tile) (line : Nat) (asid : BitVec 12) : List CLine :=
  t.l1.filter fun y => y.addr % 512 = line % 512 && !(y.addr = line && y.asid = asid)

/-- The least recent line of a full set that can leave it. -/
def State.l1Victim (s : State) (tile : Nat) (line : Nat) (asid : BitVec 12) : Option CLine :=
  ((s.tile tile).l1Others line asid).reverse.find? fun e => !s.stuck tile e

/-- A line has no way in its set: all ten hold dirty bytes that cannot leave, and the access waits. -/
def State.l1Full (s : State) (tile : Nat) (line : Nat) (asid : BitVec 12) : Bool :=
  decide (10 ≤ ((s.tile tile).l1Others line asid).length) && (s.l1Victim tile line asid).isNone

/-- Puts a line at the front of its set; the least recent of a full set is evicted and written back (R110). -/
def State.l1Put (s : State) (tile : Nat) (e : CLine) : State :=
  let t := s.tile tile
  let rest := t.l1.filter fun y => !(y.addr = e.addr && y.asid = e.asid)
  if (t.l1Others e.addr e.asid).length < 10 then s.setTile tile { t with l1 := e :: rest } else
  match s.l1Victim tile e.addr e.asid with
  | none => s.setTile tile { t with l1 := e :: rest }
  | some old => (s.setTile tile { t with l1 := e :: rest.filter fun y => !(y.addr = old.addr && y.asid = old.asid) }).writeBack tile old

def State.stashFind (s : State) (tile : Nat) (asid : BitVec 12) (va : Nat) : Option Stash :=
  ((s.tile tile).stashes.map (·.2)).find? fun m => m.asid = asid && m.base.toNat % 2 ^ 57 ≤ va && va < m.base.toNat % 2 ^ 57 + m.len

def Tile.slineFind (t : Tile) (n : Nat) : CLine := (t.slines.find? fun e => e.addr = n).getD (CLine.blank n 0 0 false)
/-- The bytes of a stash line lie in the scratchpad; `slines` holds its valid bit and mask (R106). -/
def Tile.slinePut (t : Tile) (e : CLine) : Tile := { t with slines := e :: t.slines.filter fun y => y.addr ≠ e.addr }

/-- A fill of a stash line keeps its dirty bytes, and what of them is uncorrectable (R106, R375). -/
def Tile.stashFill (t : Tile) (n : Nat) (fresh : Line) (valid : Bool) : Tile :=
  let e := t.slineFind n
  let data := mergeLine e.dirty (BitVec.ofNat 1024 (t.scrRead (n * 128) 128)) fresh
  let kept (w : Nat) : Bool := w / 16 = n && (e.dirty &&& lineMask (8 * (w % 16)) 8) != 0
  let t1 := (t.scrWrite (n * 128) 128 data.toNat).slinePut { e with valid := valid }
  if t.badw.isEmpty then t1 else { t1 with badw := t.badw.filter fun w => w / 16 ≠ n || kept w }

/-! ### Requests of the strand being stepped -/

/-- WINDOW on an address (R88, R90, R329). -/
def windowCond (w : Who) (a : Word) : Cond :=
  { code := WINDOW, tinfo := faultInfo w.acc 15, taddr := a, fwd := true, acc := faultInfo w.acc 15 }

/-- An address in no window, or in a package to which no port leads (R88, R329). -/
def State.noWindow (s : State) (pa : Nat) : Bool :=
  match s.win pa with
  | .none => true
  | .remote pkg => (s.portsTo pkg).isEmpty
  | _ => false

/-- What a read returned: the bytes, and whether some were uncorrectable. -/
structure Got where
  val : Nat
  bad : Bool := false
  deriving DecidableEq, Repr

/-- A request to another package: sends it, waits for its response, and takes the response when the instruction is executed
again. A write or `red.n` (posted) is sent and not waited for. A request that failed for good (R425) answers uncorrectable data. -/
def remote (w : Who) (a : Word) (type pa n op sc sem : Nat) (data : List Byte) (posted : Bool) : M Got := do
  let s ← get
  let pkg := pa / 2 ^ Config.pkgShift
  match s.portFor pkg pa with
  | none => throw (.cond (windowCond w a))
  | some port =>
    let off := pa % 2 ^ Config.pkgShift
    let match_ (p : Packet) : Bool := p.key = s.me.key && bits p.hdr 127 124 = type && bits p.hdr 48 0 = off && bits p.hdr 117 112 = n - 1 && !posted
    match s.packets.find? match_ with
    | some p =>
      match p.reply with
      | none => throw (.wait .answer)
      | some (t, d) =>
        set ({ s with packets := s.packets.filter fun q => !(match_ q) } : State)
        let bad := t = 12 || (t = 11 && d.head? = some 24)
        if t = 11 && !bad then throw (.cond (windowCond w a)) else pure { val := bytesNat d, bad := bad }
    | none =>
      match s.freeTag s.here with
      | none => throw (.wait .unit)
      | some tag =>
        set (s.sendPacket s.me.key port (portHdr type s.pkgid.toNat pkg (n - 1) s.portSeq.toNat tag op sc sem off) data a)
        if posted then pure { val := 0 } else throw (.wait .answer)

/-- A line from its home for `n` bytes at an address, with its uncorrectable bytes: all of them when the request has failed for good (R112, R425). -/
def homeGet (pa n : Nat) : M (Line × MaskV) := do
  match ← asked (.read pa n) with
  | some (_, .data x bad) => return (x, bad)
  | _ => return (0, BitVec.allOnes 128)

/-- The L1 has a way for a line, or the access waits. -/
def l1Room (tile line : Nat) (asid : BitVec 12) : M Unit := do waitIf ((← get).l1Full tile line asid) .unit

/-! ### One access of a strand (R210) -/

def alignCond (a : Word) (n : Nat) : Cond := { code := MISALIGN, tinfo := BitVec.ofNat 64 n, taddr := a }
/-- MISALIGN for a memory type (R381). -/
def typeCond (a : Word) : Cond := { code := MISALIGN, tinfo := 0x100000000, taddr := a }

/-- Checks of one piece outside the scratch window: translation, window, memory type (R210, R91). A stash fill reads a whole line (R106). -/
def checkPiece (w : Who) (a : Word) (n : Nat) (whole : Nat) : M Piece := do
  let s ← get
  trapIf (!canon a) { code := ADDRFORM, taddr := a }
  trapIf (isScratch a.toNat) { code := RANGE, tinfo := 8, taddr := a }
  let va := va57 a
  match s.stashFind w.tile w.asid va with
  | some m =>
    let off := m.off + (va - m.base.toNat % 2 ^ 57)
    let e := (s.tile w.tile).slineFind (off / 128)
    if w.store || e.covers (lineMask (off % 128) n) then pure { va := a, len := n, place := .stash off none }
    else
      let x ← xlate w a
      trapIf ((← get).noWindow x.pa) (windowCond w a)
      trapIf (x.mt == 3) (typeCond a)
      pure { va := a, len := n, place := .stash off (some x) }
  | none =>
    let x ← xlate w a
    let s ← get
    trapIf (s.noWindow x.pa) (windowCond w a)
    trapIf (x.mt == 3 && !((whole == 4 || whole == 8) && a.toNat % whole == 0)) (typeCond a)
    pure { va := a, len := n, place := .mem x }

/-- Pieces of an access, cut at 128 B boundaries, checked in ascending order. -/
def checkPieces (w : Who) (whole : Nat) : Nat → Word → Nat → M (List Piece)
  | 0, _, _ => pure []
  | fuel + 1, a, n =>
    if n = 0 then pure [] else do
      let k := min n (128 - a.toNat % 128)
      let p ← checkPiece w a k whole
      return p :: (← checkPieces w whole fuel (a + BitVec.ofNat 64 k) (n - k))

/-- The checks of R210 on `n` bytes at `a`; `align` is the alignment that the instruction requires. -/
def check (w : Who) (a : Word) (n : Nat) (align : Nat := 1) : M (List Piece) := do
  trapIf (!canon a) { code := ADDRFORM, taddr := a }
  trapIf (a.toNat % align != 0) (alignCond a align)
  if isScratch a.toNat then
    let off := a.toNat - Config.scratchBase
    trapIf (off + n > Config.scratchSize) { code := ADDRFORM, taddr := 0x0100000000000000 }
    checkOwner off n
    return [{ va := a, len := n, place := .scr off }]
  else checkPieces w n (n / 128 + 2) a n

/-- R91: only plain loads and stores may use MT 3. -/
def noOrdered (l : List Piece) : M Unit :=
  match l.find? fun p => match p.place with | .mem x => x.mt == 3 | _ => false with
  | some p => throw (.cond (typeCond p.va))
  | none => pure ()

/-- Where R111's line of a remote page is filled: 64 B requests to its package. -/
def remoteLine (w : Who) (a : Word) (line : Nat) : M (Line × Bool) := do
  let lo ← remote w a 0 (line * 128) 64 0 0 0 [] false
  let hi ← remote w a 0 (line * 128 + 64) 64 0 0 0 [] false
  return (BitVec.ofNat 1024 (lo.val + 2 ^ 512 * hi.val), lo.bad || hi.bad)

/-- A line of this package's memory from its home, or of another package; whether it came back uncorrectable. -/
def anyLine (w : Who) (a : Word) (line : Nat) : M (Line × Bool) := do
  match (← get).win (line * 128) with
  | .remote _ => remoteLine w a line
  | _ =>
    let (x, bad) ← homeGet (line * 128) 128
    return (x, bad != 0)

/-- Reads of the register window, filled in by `Machine/Regs.lean`'s map through this hook of one argument. -/
abbrev RegMap := State → Nat → Word

/-- Reading one piece (R106, R110, R91). -/
def loadPiece (regs : RegMap) (w : Who) (p : Piece) : M Got := do
  let s ← get
  match p.place with
  | .scr off => return { val := (s.tile w.tile).scrRead off p.len, bad := (s.tile w.tile).scrBad off p.len }
  | .stash off none => return { val := (s.tile w.tile).scrRead off p.len, bad := (s.tile w.tile).scrBad off p.len }
  | .stash off (some x) =>
    let base := off / 128 * 128
    let line := (x.pa - off % 128) / 128
    let (fresh, bad) ← anyLine w p.va line
    modify fun s => s.modTile w.tile fun t => t.stashFill (off / 128) fresh !bad
    let t := (← get).tile w.tile
    return { val := lineBytes (BitVec.ofNat 1024 (t.scrRead base 128)) (off % 128) p.len, bad := bad || t.scrBad off p.len }
  | .mem x =>
    let line := x.pa / 128
    let off := x.pa % 128
    match s.win x.pa with
    | .reg o => return { val := (regs s (o / 8 * 8)).toNat / 256 ^ (o % 8) % 256 ^ p.len }
    | win =>
      let isRemote := match win with | .remote _ => true | _ => false
      if x.mt = 1 then
        if isRemote then
          if p.len ≤ 64 then remote w p.va 0 x.pa p.len 0 0 0 [] false
          else
            let lo ← remote w p.va 0 x.pa 64 0 0 0 [] false
            let hi ← remote w p.va 0 (x.pa + 64) (p.len - 64) 0 0 0 [] false
            return { val := lo.val + 256 ^ 64 * hi.val, bad := lo.bad || hi.bad }
        else
          let (fresh, bad) ← homeGet x.pa p.len
          return { val := lineBytes fresh off p.len, bad := bad &&& lineMask off p.len != 0 }
      else
        match (s.tile w.tile).l1Find line w.asid with
        | some e =>
          if e.covers (lineMask off p.len) then
            set (s.l1Put w.tile e)
            return { val := lineBytes e.data off p.len, bad := e.badAt off p.len }
          else
            let (fresh, bad) ← anyLine w p.va line
            if !bad then modify fun s => s.l1Put w.tile (e.fill fresh)
            return { val := lineBytes (e.fill fresh).data off p.len, bad := bad || e.badAt off p.len }
        | none =>
          l1Room w.tile line w.asid
          let (fresh, bad) ← anyLine w p.va line
          if !bad then modify fun s => s.l1Put w.tile ((CLine.blank line w.asid x.mt false (p.va - BitVec.ofNat 64 off)).fill fresh)
          return { val := lineBytes fresh off p.len, bad := bad }

/-- Writes of the register window, through a hook as for reads. -/
abbrev RegWrite := State → Nat → Word → Bool → Nat → State

/-- Writing one piece (R106, R110, R91). A store that writes a scratchpad word which is full leaves the word's recorded scope as it was: R138
names no scope for it (DESIGN CHOICE, log 71). -/
def storePiece (regw : RegWrite) (regs : RegMap) (w : Who) (p : Piece) (v : Nat) : M Unit := do
  let s ← get
  match p.place with
  | .scr off => set (s.modTile w.tile fun t => t.scrWrite off p.len v)
  | .stash off _ =>
    set (s.modTile w.tile fun t =>
      let e := t.slineFind (off / 128)
      (t.scrWrite off p.len v).slinePut { e with dirty := e.dirty ||| lineMask (off % 128) p.len })
  | .mem x =>
    let line := x.pa / 128
    let off := x.pa % 128
    match s.win x.pa with
    | .reg o =>
      let old := (regs s (o / 8 * 8)).toNat
      let sh := 256 ^ (o % 8)
      let new := old % sh + sh * (v % 256 ^ p.len) + old / (sh * 256 ^ p.len) * (sh * 256 ^ p.len)
      set (regw s (o / 8 * 8) (BitVec.ofNat 64 new) w.supv w.tile)
    | win =>
      if x.mt = 1 then
        match win with
        | .remote _ =>
          let _ ← remote w p.va 1 x.pa (min p.len 64) 0 0 0 (natBytes (min p.len 64) v) true
          if p.len > 64 then
            let _ ← remote w p.va 1 (x.pa + 64) (p.len - 64) 0 0 0 (natBytes (p.len - 64) (v / 256 ^ 64)) true
        | _ =>
          posted (.write x.pa p.len (v % 256 ^ p.len) p.va)
      else
        l1Room w.tile line w.asid
        let e := ((s.tile w.tile).l1Find line w.asid).getD (CLine.blank line w.asid x.mt false (p.va - BitVec.ofNat 64 off))
        modify fun s => s.l1Put w.tile (e.store (lineMask off p.len) (linePut off (v % 256 ^ p.len)))

/-! ### Pieces of an access (R124, R133) -/

/-- Bytes `i` to `i + n − 1` of a piece. -/
def Piece.sub (p : Piece) (i n : Nat) : Piece :=
  { va := p.va + BitVec.ofNat 64 i, len := n,
    place := match p.place with
      | .scr off => .scr (off + i)
      | .stash off x => .stash (off + i) (x.map fun x => { x with pa := x.pa + i })
      | .mem x => .mem { x with pa := x.pa + i } }

/-- The single-copy atomic pieces of a piece (R133): cut at 64 B granules; whole granules and pieces of an access that is aligned to
its own size stay whole, any other piece falls into bytes. -/
def Piece.atoms (aligned : Bool) (p : Piece) : List Piece :=
  let o := p.va.toNat % 64
  (List.range ((o + p.len + 63) / 64)).flatMap fun g =>
    let lo := if g = 0 then 0 else 64 * g - o
    let n := min p.len (64 * (g + 1) - o) - lo
    if n = 64 || aligned then [p.sub lo n] else (List.range n).map fun i => p.sub (lo + i) 1

/-- The pieces of an access as R133 cuts it. -/
def atomsOf (l : List Piece) : List Piece :=
  let n := (l.map (·.len)).sum
  let a := (l.head?.map (·.va.toNat)).getD 0
  l.flatMap (Piece.atoms (a % n = 0 && [1, 2, 4, 8, 16, 32, 64, 96, 128].contains n))

/-- One piece in its turn: the one that this step performs, or one of a step that performs them all; a piece already performed is not
performed again. -/
def onePiece (m : M Got) : M Got := do
  let s ← get
  let n := s.pieceNo
  set ({ s with pieceNo := n + 1 } : State)
  match s.me.parts.find? fun q => q.n = n with
  | some q => return { val := q.val, bad := q.bad }
  | none =>
    if s.part.any fun k => k ≠ n then return { val := 0 }
    else
      let x ← m
      if s.part.isSome then
        modify fun (s : State) => { s with me := { s.me with parts := s.me.parts ++ [{ n := n, val := x.val, bad := x.bad }] } }
      return x

/-- Whether the access is performed piece by piece. -/
def State.piecewise (s : State) : Bool := s.part.isSome || !s.me.parts.isEmpty

/-- A step that performs one piece ends there, unless every piece of the access is performed. -/
def afterPieces (n : Nat) : M Unit := do
  let s ← get
  waitIf (s.part.isSome && !((List.range (s.pieceNo - n)).all fun i => s.me.parts.any fun q => q.n = n + i)) .unit

def loadEach (regs : RegMap) (w : Who) : List Piece → M Got
  | [] => pure { val := 0 }
  | p :: r => do
    let x ← onePiece (loadPiece regs w p)
    let y ← loadEach regs w r
    return { val := x.val + 256 ^ p.len * y.val, bad := x.bad || y.bad }

def loadAll (regs : RegMap) (w : Who) : List Piece → M Got
  | [] => pure { val := 0 }
  | p :: r => do
    let x ← loadPiece regs w p
    let y ← loadAll regs w r
    return { val := x.val + 256 ^ p.len * y.val, bad := x.bad || y.bad }

/-- Reading a checked access: its bytes in address order. Its pieces are events of their own when the schedule names one of them; else
they all happen in this step. -/
def loadSome (regs : RegMap) (w : Who) (l : List Piece) : M Got := do
  if (← get).piecewise then loadEach regs w (atomsOf l) else loadAll regs w l

def loadPieces (regs : RegMap) (w : Who) (l : List Piece) : M Got := do
  let s ← get
  let x ← loadSome regs w l
  afterPieces s.pieceNo
  return x

def storeEach (regw : RegWrite) (regs : RegMap) (w : Who) : List Piece → Nat → M Unit
  | [], _ => pure ()
  | p :: r, v => do
    let _ ← onePiece (do storePiece regw regs w p (v % 256 ^ p.len); return { val := 0 })
    storeEach regw regs w r (v / 256 ^ p.len)

def storeAll (regw : RegWrite) (regs : RegMap) (w : Who) : List Piece → Nat → M Unit
  | [], _ => pure ()
  | p :: r, v => do
    storePiece regw regs w p (v % 256 ^ p.len)
    storeAll regw regs w r (v / 256 ^ p.len)

/-- Writing a checked access, as `loadPieces` reads one. -/
def storeSome (regw : RegWrite) (regs : RegMap) (w : Who) (l : List Piece) (v : Nat) : M Unit := do
  if (← get).piecewise then storeEach regw regs w (atomsOf l) v else storeAll regw regs w l v

def storePieces (regw : RegWrite) (regs : RegMap) (w : Who) (l : List Piece) (v : Nat) : M Unit := do
  let s ← get
  storeSome regw regs w l v
  afterPieces s.pieceNo

/-! ### A pair's checks (R149, R383) -/

/-- The instruction has passed its checks, and what it does now may be seen by others. -/
def checked : M Unit := modify fun (s : State) => { s with passed := true }

/-- The checks of an instruction that then begins an access: the pieces of an access that has begun are not checked again (R149). -/
def toBegin (m : M (List (List Piece))) : M (List (List Piece)) := do
  let s ← get
  if s.me.begun then checked; return s.me.pieces
  else
    let l ← m
    modify fun (s : State) => { s with me := { s.me with pieces := l } }
    checked
    return l

/-! ### Releases and acquires at the tile (R107, R111, R161) -/

def dataErrAt (s : State) (a : Word) : Cond := { code := DATAERR, tinfo := s.me.pc, taddr := a }

/-- The writes of a strand to one line of another package that it has not yet taken note of. -/
def State.lineWrites (s : State) (tile line : Nat) : List Packet :=
  s.packets.filter fun p => p.key = s.me.key && bits p.hdr 127 124 = 1 && bits p.hdr 95 86 = tile && bits p.hdr 120 118 = line * 128 / 2 ^ Config.pkgShift &&
    bits p.hdr 48 0 / 128 = line * 128 % 2 ^ Config.pkgShift / 128

/-- The bytes of a line that a write carried and that still hold what it carried. -/
def CLine.carried (e : CLine) (p : Packet) : MaskV :=
  let off := bits p.hdr 48 0 % 128
  ((List.range p.data.length).filter fun i => lineBytes e.data (off + i) 1 = ((p.data[i]?).getD 0).toNat).foldl (fun m i => m ||| lineMask (off + i) 1) 0

/-- The bytes of a write-back that the line still holds as it carried them. -/
def CLine.agrees (e : CLine) (m : MaskV) (x : Line) : MaskV :=
  if x = e.data then m else
  ((List.range 128).filter fun i => m.getLsbD i && lineBytes e.data i 1 = lineBytes x i 1).foldl (fun m i => m ||| lineMask i 1) 0

/-- The condition of a write that another package answers with an error response: a window fault, or a DATAERR (R90, R328, R389). -/
def refusal (s : State) (l : List Packet) (a : Word) : Option Cond :=
  if l.any fun p => p.reply.any fun r => r.1 = 11 && r.2.head? ≠ some 24 then some (windowCond s.whoStore a)
  else if l.any fun p => p.reply.any fun r => r.1 ≠ 9 then some (dataErrAt s a) else none

/-- The dirty bytes of a line go to their home and are acknowledged there: the bytes that are now home. A home that cannot be reached is a
DATAERR, a package that refuses them a window fault, and the line stays dirty (R107, R389, R425). -/
def lineHomeNow (tile : Nat) (e : CLine) (store : Nat) : M MaskV := do
  let s ← get
  match s.win (e.addr * 128) with
  | .remote pkg =>
    match s.lineWrites tile e.addr with
    | [] =>
      let (s1, m) := s.leaveBad tile store e
      trapIf (s1.portsTo pkg).isEmpty (windowCond s.whoStore e.va)
      if m = 0 then
        set s1
        return e.dirty
      else
        waitIf (decide (s.tagsFree tile < (lineRuns m).length)) .unit
        set (s1.postLine s.me.key tile pkg e.addr m e.data e.va)
        throw (.wait .answer)
    | l =>
      waitIf (l.any fun p => p.reply.isNone) .answer
      set ({ s with packets := s.packets.filter fun p => !(l.contains p) } : State)
      match refusal s l e.va with
      | some c => throw (.cond c)
      | none => return (l.foldl (fun m p => m ||| e.carried p) e.badMask)
  | _ =>
    let m := (s.leaveBad tile store e).2
    if m = 0 then
      set (s.leaveBad tile store e).1
      return e.dirty
    else match ← asked (.back e.addr m e.data) with
      | some (.back _ sent x, _) =>
        modify fun s => (s.leaveBad tile store e).1
        return e.agrees sent x ||| (e.dirty &&& e.badMask)
      | _ => throw (.cond (dataErrAt (← get) e.va))

/-- Dirty L1 lines go home one after another and stay, clean (R111). -/
def l1LinesOut (tile : Nat) : List CLine → M Unit
  | [] => pure ()
  | e :: r => do
    let m ← lineHomeNow tile e 3
    modify fun s => s.modTile tile fun t => t.l1Map e.addr e.asid fun e => e.wrote m
    waitIf (e.dirty &&& ~~~ m != 0) .unit
    l1LinesOut tile r

/-- The lines that a release at .c or .s writes back. R111's row for .c names MT 0 and its row for .s adds the host's acknowledgement of MT 2
writes; at .c too a prior write must be visible to every agent of the package (R125, R130), so lines of MT 2 go to their homes as well
(DEDUCED, log 84). -/
def Tile.l1Releases (t : Tile) (asid : BitVec 12) : List CLine := t.l1.filter fun e => e.asid = asid && !e.priv && e.dirty != 0

/-- Every dirty line of a space goes home without a strand that could report a failure (R369). -/
def State.l1Release (s : State) (tile : Nat) (asid : BitVec 12) : State :=
  let mine (e : CLine) : Bool := e.asid = asid && !e.priv && e.dirty != 0 && !s.stuck tile e
  let s1 := ((s.tile tile).l1.filter mine).foldl (fun s e => s.writeBack tile e) s
  s1.modTile tile fun t => { t with l1 := t.l1.map fun e => if mine e then e.wrote e.dirty else e }

/-- One stash line's dirty bytes go home (R107): translated now, as a store. With `fill` the line is then valid and clean: bytes that it lacks
come first from its home (DEDUCED, log 62). -/
def stashLineOut (w : Who) (m : Stash) (n : Nat) (fill : Bool := true) : M Unit := do
  let s ← get
  if ((s.tile w.tile).slineFind n).dirty = 0 then pure () else
  let va := m.base + BitVec.ofNat 64 (n * 128 - m.off)
  let x ← xlate w va
  let s ← get
  trapIf (s.noWindow x.pa) (windowCond w va)
  trapIf (x.mt == 3) (typeCond va)
  if fill && !((s.tile w.tile).slineFind n).valid then
    let (fresh, bad) ← anyLine w va (x.pa / 128)
    if !bad then modify fun s => s.modTile w.tile fun t => t.stashFill n fresh true
  let t := (← get).tile w.tile
  let e := { t.slineFind n with addr := x.pa / 128, asid := m.asid, data := BitVec.ofNat 1024 (t.scrRead (n * 128) 128), bad := t.badWords (n * 128), va := va }
  let out ← lineHomeNow w.tile e 2
  modify fun s => s.modTile w.tile fun t => t.slinePut { t.slineFind n with dirty := e.dirty &&& ~~~ out }
  waitIf (e.dirty &&& ~~~ out != 0) .unit

def stashLinesOut (w : Who) (m : Stash) (fill : Bool) : List Nat → M Unit
  | [] => pure ()
  | n :: r => do stashLineOut w m n fill; stashLinesOut w m fill r

/-- The dirty lines of a map, in ascending order. -/
def Tile.dirtyLines (t : Tile) (m : Stash) : List Nat :=
  (List.range (m.len / 128)).filterMap fun i =>
    let n := m.off / 128 + i
    if (t.slineFind n).dirty != 0 then some n else none

def stashOut (w : Who) (m : Stash) (fill : Bool := true) : M Unit := do
  let s ← get
  stashLinesOut w m fill ((s.tile w.tile).dirtyLines m)

def stashesOut (w : Who) : List Stash → M Unit
  | [] => pure ()
  | m :: r => do stashOut w m; stashesOut w r

/-- Release at .c or .s by the strand being stepped (R107, R111); a release at .t does nothing here. -/
def release (sc : Scope) : M Unit := do
  if sc = .t then pure () else
  let s ← get
  let maps := (s.myTile.stashes.map (·.2)).filter fun m => m.asid = s.me.key.asid
  stashesOut s.whoStore maps
  l1LinesOut s.here ((← get).myTile.l1Releases s.me.key.asid)
  let s ← get
  -- the strand's uncached stores are awaited, and the space's evicted lines on their way to another package (R111)
  let post (m : Msg) : Bool := m.isPosted s.me.key
  waitIf (s.msgs.any fun m => post m && !m.hasFailed) .answer
  match s.msgs.find? post with
  | some { body := .access _ (.write _ _ _ va) _, .. } =>
    set ({ s with msgs := s.msgs.filter fun m => !post m } : State)
    throw (.cond (dataErrAt s va))
  | _ => pure ()
  let ours (p : Packet) : Bool := p.key.asid = s.me.key.asid && bits p.hdr 95 86 = s.here && bits p.hdr 127 124 = 1
  let mine (p : Packet) : Bool := ours p && p.key = s.me.key
  waitIf (s.packets.any fun p => ours p && p.reply.isNone) .answer
  let done := s.packets.filter mine
  set ({ s with packets := s.packets.filter fun p => !(mine p) } : State)
  match refusal s done (((done.find? fun p => p.reply.any fun r => r.1 ≠ 9).map (·.va)).getD 0) with
  | some c => throw (.cond c)
  | none => pure ()

/-- Acquire at .c or .s at a tile for a space: valid bits go, dirty bytes stay (R107, R111). Translations cached from a leaf with MB = 1 go
too, so that a read ordered after a store to the new frame finds it there (R122, log 63). -/
def State.acquireAt (s : State) (tile : Nat) (asid : BitVec 12) : State :=
  let isRemote (e : CLine) : Bool := match s.win (e.addr * 128) with | .remote _ => true | _ => false
  let moving (e : Tlb) : Bool := e.asid = asid && e.leaf.getLsbD 58
  let s1 := s.modTile tile fun t =>
    { t with
      tlb1 := t.tlb1.filter fun e => !moving e
      tlb2 := t.tlb2.filter fun e => !moving e
      l1 := (t.l1.map fun e => if (e.asid = asid && !e.priv) || isRemote e then { e with valid := false } else e).filter fun e => e.valid || e.dirty != 0
      slines := (t.slines.map fun e =>
        if (t.stashes.map (·.2)).any fun m => m.asid = asid && m.off ≤ e.addr * 128 && e.addr * 128 < m.off + m.len
        then { e with valid := false } else e).filter fun e => e.valid || e.dirty != 0 }
  let y := s1.layer (tile / 64)
  if y.lltlb.any moving then s1.setLayer (tile / 64) { y with lltlb := y.lltlb.filter fun e => !moving e } else s1

def State.acquire (s : State) (sc : Scope) : State := if sc = .t then s else s.acquireAt s.here s.me.key.asid

end Sys2Proof.Machine
end

