-- ==== Sys2Proof/Machine/Frames.lean ====
section
/-!
DEFINITION. Context frames and the register cache (R26–R36, R102), the ready deque and its records (R41–R55, R413), leaving
the active state (R38, R39, R44), and the end of a strand by a KILL (R369).
-/

namespace Sys2Proof.Machine

/-! ### A frame's lines (R27–R31, R240, R273) -/

/-- DOM without its reserved bits 47:20 (R60). -/
def domMask : Word := 0xFFFF0000000FFFFF
/-- A handle word without its reserved bits 58:57 (R193). -/
def handleMask : Word := 0xF9FFFFFFFFFFFFFF
/-- A save slot without its reserved bits 63:57 and 12:11 (R273). -/
def saveMask : Word := 0x01FFFFFFFFFFE7FF
/-- PKST without its reserved bits 56:48 (R240). -/
def pkstMask : Word := 0xFE00FFFFFFFFFFFF

def Strand.stat (t : Strand) : Word :=
  BitVec.ofNat 64 (t.qheld.toNat * 2 ^ 16 + t.supv.toNat * 2 ^ 7 + t.intrap.toNat * 2 ^ 6 + t.state.toNat)

def Strand.park' (t : Strand) : Word := BitVec.ofNat 64 (t.key.asid.toNat * 2 ^ 52 + t.reason.toNat * 2 ^ 48 + t.pend.toNat * 2 ^ 16)

/-- A tag's value (R66). -/
def tagNum : Tag → Nat
  | .raw => 0 | .i8 => 1 | .i16 => 2 | .i32 => 3 | .i64 => 4 | .n8 => 5 | .n16 => 6 | .n32 => 7 | .n64 => 8 | .f64 => 9 | .f32 => 10
  | .f16 => 11 | .bf16 => 12 | .e4m3 => 13 | .e5m2 => 14 | .e3m2 => 15 | .e2m3 => 16 | .e2m1 => 17 | .c4 => 18 | .tern => 19 | .i4 => 20

def tagList : List Tag :=
  [.raw, .i8, .i16, .i32, .i64, .n8, .n16, .n32, .n64, .f64, .f32, .f16, .bf16, .e4m3, .e5m2, .e3m2, .e2m3, .e2m1, .c4, .tern, .i4]

/-- A VTAG byte: 21–31 reads as raw, bits 7:5 are reserved (R31). -/
def numTag (n : Nat) : Tag := (tagList[n % 32]?).getD .raw

/-- Numbers laid out upward from bit 0, each `w` bits wide. -/
def packN (w : Nat) : List Nat → Nat
  | [] => 0
  | x :: r => x % 2 ^ w + 2 ^ w * packN w r

def unpackN (w : Nat) : Nat → Nat → List Nat
  | 0, _ => []
  | n + 1, x => x % 2 ^ w :: unpackN w n (x / 2 ^ w)

def wordsOf (l : List Word) : Line := BitVec.ofNat 1024 (packN 64 (l.map (·.toNat)))
def vecOf {α : Type} {n : Nat} (l : List α) (d : α) : Vector α n := Vector.ofFn fun i => (l[i.val]?).getD d

def Strand.line0 (t : Strand) : Line :=
  BitVec.ofNat 1024 (packN 64
    [t.pc.toNat, t.stat.toNat,
     packN 8 ((t.vtag.toList.take 8).map tagNum), packN 8 ((t.vtag.toList.drop 8).map tagNum),
     t.ctab.toNat, t.ctab.toNat / 2 ^ 64,
     t.cgrp.toNat + t.prio.toNat * 2 ^ 8 + t.lfsr.toNat * 2 ^ 32, t.park'.toNat,
     t.frptr.toNat, t.dom.toNat, t.trappc.toNat, t.taddr.toNat, t.tinfo.toNat, t.tcause.toNat, t.tvec.toNat, t.home.toNat])

/-- Line n as the hardware writes it: g0 zero, m0 all ones, reserved fields zero (R31). Line 3 of a fresh frame that was never created is
written with the m0 slot all ones too, where R35 says zeros (DESIGN CHOICE, log 64). -/
def Strand.line (t : Strand) (n : Nat) : Line :=
  if n = 0 then t.line0
  else if n = 1 then wordsOf (0 :: (t.g.toList.take 16).drop 1)
  else if n = 2 then wordsOf (t.g.toList.drop 16)
  else if n = 3 then BitVec.ofNat 1024 (packN 128 ((2 ^ 128 - 1) :: (t.m.toList.drop 1).map (·.toNat)))
  else if n = 4 then wordsOf (t.k.toList ++ t.xw.toList)
  else if 8 ≤ n && n < 24 then (t.v.toList[n - 8]?).getD 0
  else if n = 24 then wordsOf t.save.toList
  else if n = 28 then wordsOf t.pword.toList
  else if n = 29 then wordsOf [t.pkst]
  else if n = 30 then BitVec.ofNat 1024 (t.seq0.toNat + 2 ^ 32 * t.seq1.toNat)
  else 0

def lineWords (x : Line) : List Word := (unpackN 64 16 x.toNat).map (BitVec.ofNat 64)

def wordAt (x : Line) (i : Nat) : Word := x.extractLsb' (64 * i) 64

/-- A line fetched from memory (R31, R35). The key and the tile are the hardware's own. -/
def Strand.setLine (t : Strand) (n : Nat) (x : Line) : Strand :=
  let w := lineWords x
  if n = 0 then
    { t with
      pc := wordAt x 0 &&& ~~~ 7
      qheld := (wordAt x 1).extractLsb' 16 16
      supv := (wordAt x 1).getLsbD 7
      intrap := (wordAt x 1).getLsbD 6
      state := (wordAt x 1).extractLsb' 0 3
      vtag := vecOf (((unpackN 8 16 (x.extractLsb' 128 128).toNat)).map numTag) .raw
      ctab := x.extractLsb' 256 128
      cgrp := x.extractLsb' 384 8
      prio := x.extractLsb' 392 2
      lfsr := x.extractLsb' 416 32
      reason := (wordAt x 7).extractLsb' 48 4
      pend := (wordAt x 7).extractLsb' 16 16
      frptr := wordAt x 8
      dom := wordAt x 9 &&& domMask
      trappc := wordAt x 10
      taddr := wordAt x 11
      tinfo := wordAt x 12
      tcause := (wordAt x 13).extractLsb' 0 16
      tvec := wordAt x 14 &&& ~~~ 7
      home := wordAt x 15 &&& ~~~ 63 }
  else if n = 1 then { t with g := vecOf ((0 :: w.drop 1) ++ t.g.toList.drop 16) 0 }
  else if n = 2 then { t with g := vecOf (t.g.toList.take 16 ++ w) 0 }
  else if n = 3 then { t with m := vecOf ((unpackN 128 8 x.toNat).map (BitVec.ofNat 128)) 0 }
  else if n = 4 then { t with k := vecOf ((w.take 8).map (· &&& handleMask)) 0, xw := vecOf (w.drop 8) 0 }
  else if 8 ≤ n && n < 24 then { t with v := t.v.setIfInBounds (n - 8) x }
  else if n = 24 then { t with save := vecOf (w.map (· &&& saveMask)) 0 }
  else if n = 28 then { t with pword := vecOf (w.take 8) 0 }
  else if n = 29 then { t with pkst := wordAt x 0 &&& pkstMask }
  else if n = 30 then { t with seq0 := x.extractLsb' 0 32, seq1 := x.extractLsb' 32 32 }
  else t

def Key.frame (k : Key) : Word := (k.handle.setWidth 64) <<< 12
/-- A frame VA in canonical form (R26, R87). -/
def frameVA (k : Key) : Word := sext 57 (k.handle.toNat * 4096)
def lineVA (k : Key) (n : Nat) : Word := frameVA k + BitVec.ofNat 64 (128 * n)

/-- Register lines that an instruction names: line numbers of registers (R27). -/
def wregLine : WReg → Nat
  | .g r => gLine r
  | .v r => vLine r
  | .m _ => 3
  | .k _ => 4
  | .lfsr => 0

/-- Register-cache set of line n of a frame (R33). -/
def rset (k : Key) (n : Nat) : Nat := n * 16 + ((k.handle.toNat % 16) ^^^ (k.handle.toNat / 16 % 16))

/-! ### Frame accesses: register-line fetches and write-backs (R34–R36, R102) -/

/-- The access of a register line: MT 0, writable, never charged (R102, R119). -/
def frameWho (t : Strand) (acc : Nat) : Who :=
  { asid := t.key.asid, supv := t.supv, tile := t.tile.toNat, store := true, reads := acc = 3, acc := acc }

/-- The condition of a frame access that fails (R102). -/
def frameCond (acc : Nat) (e : XErr) (a : Word) : Cond :=
  match e with
  | .fault f => { code := f.code, tinfo := faultInfo acc f.level, taddr := a, frame := true, acc := faultInfo acc f.level, pte := f.pte }
  | _ => { code := DATAERR, tinfo := faultInfo acc 15, taddr := a, frame := true, acc := faultInfo acc 15 }

/-- Why a frame access does not complete: it waits, with what it has asked for, or a condition, with the translation entries that its walk has
replaced (R400). -/
inductive FrameErr
  | wait (s : State)
  | cond (c : Cond) (s : State)

/-- The cached entries of an address are left out, so that the next translation walks. -/
def State.dropLeaf (s : State) (tile : Nat) (asid : BitVec 12) (va : Nat) : State :=
  let s1 := s.modTile tile fun t => { t with tlb1 := t.tlb1.filter fun e => !e.hit asid va, tlb2 := t.tlb2.filter fun e => !e.hit asid va }
  let y := s1.layer (tile / 64)
  s1.setLayer (tile / 64) { y with lltlb := y.lltlb.filter fun e => !e.hit asid va }

/-- Translates a line of a strand's frame. A page that is not MT 0 is a permission failure, which a fresh walk has to confirm (R102, R400). -/
def frameXl (s : State) (t : Strand) (a : Word) (acc : Nat) : Except FrameErr (Xl × State) :=
  let c (code : Nat) (pte : Word) : Cond := { code := code, tinfo := faultInfo acc 15, taddr := a, frame := true, acc := faultInfo acc 15, pte := pte }
  if !canon a || isScratch a.toNat then .error (.cond { code := ADDRFORM, taddr := a, frame := true, acc := faultInfo acc 15 } s) else
  let w := frameWho t acc
  let settle (r : Except XErr (Xl × State)) : Except FrameErr (Xl × State) :=
    match r with
    | .error .busy => .error (.wait s)
    | .error e => .error (.cond (frameCond acc e a) (s.denied w (va57 a)))
    | .ok (x, s') =>
      if s'.noWindow x.pa then .error (.cond (c WINDOW 0) s')
      else if x.mt ≠ 0 then .error (.cond (c PERM x.leaf) s')
      else .ok (x, s')
  match translate s w (va57 a) with
  | .ok (x, s') =>
    if x.mt ≠ 0 then settle (translate (s.dropLeaf w.tile w.asid (va57 a)) w (va57 a)) else settle (.ok (x, s'))
  | e => settle e

/-- An uncorrectable register line (R375). -/
def badFrame (t : Strand) (n : Nat) : Cond :=
  { code := DATAERR, tinfo := faultInfo 3 15, taddr := lineVA t.key n, frame := true, acc := faultInfo 3 15 }

/-- Runs requests for a strand that need not be the one being stepped. -/
def State.onBehalf {α : Type} (s : State) (t : Strand) (m : M α) : EStateM.Result Stop State α :=
  let back (s1 : State) : State := { s1 with me := s.me, view := s.view, walkLog := s.walkLog, part := s.part, pieceNo := s.pieceNo, passed := s.passed }
  match m { s with me := { t with parts := [], begun := false, pieces := [] }, view := none, part := none } with
  | .ok x s1 => .ok x (back s1)
  | .error e s1 => .error e (back s1)

/-- A line that the L1 lacks comes from its home or from another package. -/
def frameFill (s : State) (t : Strand) (n line : Nat) : Except FrameErr (Line × State) :=
  match s.onBehalf t (anyLine (frameWho t 3) (lineVA t.key n) line) with
  | .ok (x, false) s1 => .ok (x, s1)
  | .ok (_, true) s1 => .error (.cond (badFrame t n) s1)
  | .error (.wait _) s1 => .error (.wait s1)
  | .error (.cond c) s1 => .error (.cond { c with fwd := false, frame := true } s1)

/-- Reads a frame line through the L1, whose copy becomes private (R34, R102). -/
def frameRead (s : State) (t : Strand) (n : Nat) : Except FrameErr (Line × State) :=
  match frameXl s t (lineVA t.key n) 3 with
  | .error e => .error e
  | .ok (x, s) =>
    let tile := t.tile.toNat
    let line := x.pa / 128
    let found := (s.tile tile).l1Find line t.key.asid
    let e := found.getD (CLine.blank line t.key.asid 0 true (lineVA t.key n))
    if e.bad != 0 then .error (.cond (badFrame t n) s)
    else if e.covers (BitVec.allOnes 128) then .ok (e.data, s.l1Put tile { e with priv := true })
    else if found.isNone && s.l1Full tile line t.key.asid then .error (.wait s)
    else match frameFill s t n line with
      | .error e => .error e
      | .ok (fresh, s1) => .ok ((e.fill fresh).data, s1.l1Put tile { e.fill fresh with priv := true })

/-- Writes a frame line back to the L1, dirty and private (R34). -/
def frameWrite (s : State) (t : Strand) (n : Nat) : Except FrameErr State :=
  match frameXl s t (lineVA t.key n) 4 with
  | .error e => .error e
  | .ok (x, s) =>
    let line := x.pa / 128
    if s.l1Full t.tile.toNat line t.key.asid then .error (.wait s)
    else .ok (s.l1Put t.tile.toNat
      { CLine.blank line t.key.asid 0 true (lineVA t.key n) with valid := true, dirty := BitVec.allOnes 128, data := t.line n })

/-- A line is no longer in the register cache. -/
def State.dropLine (s : State) (tile : Nat) (key : Key) (n : Nat) : State :=
  (s.modTile tile fun u => { u with rdir := u.rdir.filter fun e => e ≠ (key, n) }).modStrand key fun t =>
    { t with present := t.present &&& ~~~ (lineBit n), dirty := t.dirty &&& ~~~ (lineBit n), retained := t.retained &&& ~~~ (lineBit n) }

/-- A strand is parked for its register cache: a FRAME record and REASON 1 (R368, R375, R402). -/
def State.parkFrame (s : State) (key : Key) (t : Strand) (c : Cond) : State :=
  let (s1, t1) := s.sendStrand t 1 { code := BitVec.ofNat 16 c.code, pc := t.pc, addr := c.taddr, info := c.tinfo, acc := c.acc, pte := c.pte }
  s1.modStrand key fun _ => { t1.park 1 with tcause := if t.intrap then t.tcause else 0 }

/-- A line that leaves the register cache: written back when dirty; a write-back that faults keeps it retained and parks the
strand (R34, R402); one that must wait leaves it where it is. Until then memory holds the older bytes, which is what a load of the frame of
a ready or parked strand returns (R32 calls them defined and R34 leaves the lines in the cache: DESIGN CHOICE, log 65). -/
def State.evict (s : State) (key : Key) (n : Nat) : State :=
  match s.theStrand? key with
  | none => s.modTile s.here fun u => { u with rdir := u.rdir.filter fun e => e ≠ (key, n) }
  | some t =>
    let tile := t.tile.toNat
    if !t.dirty.getLsbD n then s.dropLine tile key n else
    match frameWrite s t n with
    | .ok s => s.dropLine tile key n
    | .error (.wait _) => s
    | .error (.cond c s1) => s1.parkFrame key { t with retained := t.retained ||| lineBit n } c

/-- The lines of the set of line n of a frame, most recent first. -/
def Tile.regSet (u : Tile) (key : Key) (n : Nat) : List (Key × Nat) :=
  u.rdir.filter fun e => e.2 = n && rset e.1 e.2 = rset key n && e ≠ (key, n)

/-- A line that may leave: neither pinned nor retained, and of no active strand whose pair has begun. -/
def State.mayLeave (s : State) (e : Key × Nat) : Bool :=
  match s.theStrand? e.1 with
  | some t => !(t.state = 1 && (e.2 = 0 || t.begun || t.inSecond)) && !t.retained.getLsbD e.2
  | none => true

/-- Evicts, least recent first, until one line has left. -/
def State.evictOne (s : State) (tile : Nat) : List (Key × Nat) → State
  | [] => s
  | e :: r =>
    let s1 := s.evict e.1 e.2
    if (s1.tile tile).rdir.contains e then s1.evictOne tile r else s1

/-- A full set loses its least recent line that may leave (R33, R34). -/
def State.makeWay (s : State) (tile : Nat) (key : Key) (n : Nat) : State :=
  let mine := (s.tile tile).regSet key n
  if mine.length < 16 then s else s.evictOne tile (mine.reverse.filter s.mayLeave)

def State.hasWay (s : State) (tile : Nat) (key : Key) (n : Nat) : Bool := decide (((s.tile tile).regSet key n).length < 16)

/-- A line enters the cache, most recent of its set. -/
def State.install (s : State) (tile : Nat) (key : Key) (n : Nat) : State :=
  s.modTile tile fun u => { u with rdir := (key, n) :: u.rdir.filter fun e => e ≠ (key, n) }

/-- Line 0 of a fetch: as memory has it, but for what the hardware has written since it left the cache. After an uncorrectable line 0 that is
only what a park and its replies write (R368, R369, R375). -/
def Strand.setLine0 (t : Strand) (x : Line) : Strand :=
  if !t.dirty.getLsbD 0 then t.setLine 0 x
  else if !t.lost0 then t
  else
    { t.setLine 0 x with
      state := t.state, reason := t.reason, pend := t.pend, qheld := t.qheld, supv := t.supv, intrap := t.intrap,
      tcause := if t.intrap then ((t.setLine 0 x).tcause) else t.tcause, lost0 := false }

/-- A fetched line. -/
def Strand.fetched (t : Strand) (n : Nat) (x : Line) : Strand :=
  if n = 0 then t.setLine0 x else if t.dirty.getLsbD n then t else t.setLine n x

/-- Fetches one absent line of a strand (R35); a line of a fresh frame is created as zero. A line that the hardware has written
since it left the cache keeps what it wrote. A fetch into a set without a way waits (R373). -/
def State.fetchLine (s0 : State) (t : Strand) (n : Nat) : Except FrameErr (State × Strand) :=
  if t.present.getLsbD n then .ok (s0, t) else
  let s := s0.makeWay t.tile.toNat t.key n
  if !s.hasWay t.tile.toNat t.key n then .error (.wait s)
  else if t.fresh && !t.made.getLsbD n then
    .ok (s.install t.tile.toNat t.key n,
      { (if t.dirty.getLsbD n then t else t.setLine n 0) with
        present := t.present ||| lineBit n, dirty := t.dirty ||| lineBit n, made := t.made ||| lineBit n })
  else match frameRead s t n with
    | .error e => .error e
    | .ok (x, s) =>
      .ok (s.install t.tile.toNat t.key n, { t.fetched n x with present := t.present ||| lineBit n })

/-- Fetches the lines that a mask names, one after another. -/
def State.fetchLines (s : State) (t : Strand) (need : BitVec 32) : Nat → Except FrameErr (State × Strand)
  | 0 => .ok (s, t)
  | n + 1 =>
    match State.fetchLines s t need n with
    | .error e => .error e
    | .ok (s, t) => if need.getLsbD n && !t.present.getLsbD n then s.fetchLine t n else .ok (s, t)

/-- A line of a set whose ways are all retained is waited for, which the watchdog counts (R373). -/
def State.wayWait (s : State) (t : Strand) (need : BitVec 32) : Option Nat :=
  (List.range 32).find? fun n => need.getLsbD n && !t.present.getLsbD n && decide (16 ≤ ((s.tile t.tile.toNat).regSet t.key n).length) &&
    ((s.tile t.tile.toNat).regSet t.key n).all fun e => (s.theStrand? e.1).any fun u => u.retained.getLsbD e.2

/-! ### Task records (R41, R42, R44) -/

def Rec.f (r : Rec) (hi lo : Nat) : Nat := bits r.body hi lo
def Rec.mode (r : Rec) : Nat := r.f 255 254
def Rec.prio (r : Rec) : Nat := r.f 253 252
def Rec.preset (r : Rec) : Bool := r.f 251 251 = 1
def Rec.resume (r : Rec) : Bool := r.f 250 250 = 1
def Rec.place (r : Rec) : Nat := r.f 245 201
def Rec.frame (r : Rec) : Nat := r.f 200 156
def Rec.doneCell (r : Rec) : Nat := r.f 155 105
def Rec.depc (r : Rec) : Nat := r.f 104 54
def Rec.entry (r : Rec) : Word := sext 57 (r.f 53 0 * 8)
def Rec.arg (r : Rec) (i : Nat) : Word := r.body.extractLsb' (256 + 64 * i) 64

/-- The reason of BADREC, in the order of R42 and R381. -/
def badRec (b : BitVec 512) : Option Nat :=
  let r : Rec := { body := b, dom := 0, asid := 0, cgrp := 0, stamp := 0, hold := 0, spill := none }
  if r.resume then some 1
  else if r.f 249 246 ≠ 0 then some 2
  else if (r.mode = 0 || r.mode = 3) && r.place ≠ 0 then some 3
  else if r.mode = 1 && r.f 245 211 ≠ 0 then some 4
  else none

/-- The resume record of a strand (R44). -/
def Strand.resumeRec (t : Strand) : Rec :=
  { body := BitVec.ofNat 512 (t.prio.toNat * 2 ^ 252 + 2 ^ 251 + 2 ^ 250 + t.key.handle.toNat * 2 ^ 156),
    dom := t.dom, asid := t.key.asid, cgrp := t.cgrp, stamp := 0, hold := 0, spill := none }

/-- The 128 B entry of an overflow or deferral area (R52). -/
def Rec.entryBytes (r : Rec) : Nat :=
  r.body.toNat + 2 ^ 512 * (r.dom.toNat + 2 ^ 64 * (r.asid.toNat + r.cgrp.toNat * 2 ^ 16 + (if r.hold = 0 then 0 else 2 ^ 24)) + 2 ^ 128 * r.stamp.toNat)

def recOfEntry (x : Nat) : Rec :=
  { body := BitVec.ofNat 512 x, dom := BitVec.ofNat 64 (x / 2 ^ 512) &&& domMask, asid := BitVec.ofNat 12 (x / 2 ^ 576), cgrp := BitVec.ofNat 8 (x / 2 ^ 592),
    stamp := BitVec.ofNat 64 (x / 2 ^ 640), hold := 0, spill := none }

/-! ### The ready deque and its overflow area (R51, R413, R414) -/

def Tile.ovfBase (t : Tile) : Nat := bits t.ovf 51 16 * 2 ^ 16
def Tile.ovfEntries (t : Tile) : Nat := if t.ovfBase = 0 then 0 else 2 ^ (10 + bits t.ovf 3 0)
def Tile.inHw (t : Tile) : List Rec := t.deque.filter fun r => r.spill.isNone
/-- The first entry of the overflow area that no record and no held reply uses. -/
def Tile.freeSpill (t : Tile) : Option Nat :=
  let used := t.deque.filterMap (·.spill) ++ t.items.filterMap fun i => match i with
    | .spill r _ _ => r.spill
    | .reply _ _ e => e
    | .replySpill i _ => some i
    | _ => none
  (List.range (min t.ovfEntries (used.length + 1))).find? fun i => !used.contains i

/-- Whether the tile can take one more record (R414). -/
def Tile.hasRoom (t : Tile) : Bool := (t.inHw.length < 256 && !t.out) || t.freeSpill.isSome

/-- The same record, spilled or not. -/
def Rec.like (r q : Rec) : Bool := decide ({ r with spill := none } = { q with spill := none })

/-- Marks a record as spilled to an entry, which takes its bytes (R51, R52). -/
def State.spillTo (s : State) (tile : Nat) (r : Rec) (i : Nat) : State × Rec :=
  (s.homeWrite ((s.tile tile).ovfBase + 128 * i) 128 r.entryBytes, { r with spill := some i })

/-- An access to the overflow area that fails holds the record that it moved: a SPILL record, answered by a reply (R414). -/
def State.spillItem (s : State) (tile : Nat) (r : Rec) (pa code : Nat) (cmd : Option CmdRef := none) : State :=
  let (s1, token) := s.sendItem tile 11
    { asid := r.asid, pc := r.entry, addr := BitVec.ofNat 64 pa, code := BitVec.ofNat 16 code, info := faultInfo 7 15, acc := faultInfo 7 15 }
  s1.modTile tile fun t => { t with items := t.items ++ [.spill r cmd token] }

/-- A space is resident when it is neither out nor being pre-empted (R63, R333). -/
def State.resident (s : State) (asid : BitVec 12) : Bool := !s.absent.contains asid && !(s.preempts.any fun p => p.asid = asid)

/-- Stores a record: the youngest record of its queue spills when the hardware holds 256 (R51). A record whose space is
absent goes to the overflow area (R58, R333). The record is dropped nowhere: without room it stays in the hardware list. -/
def State.store (s : State) (tile : Nat) (r : Rec) : State :=
  let t := s.tile tile
  let full := !(t.inHw.length < 256) || !s.resident r.asid || t.out
  match (if full then t.freeSpill else none) with
  | some i =>
    let pa := t.ovfBase + 128 * i
    match s.areaFault pa with
    | some code => s.spillItem tile r pa code
    | none =>
      if s.barred tile pa then s.setTile tile { t with deque := t.deque ++ [r] } else
      let (s1, r1) := s.spillTo tile r i
      s1.modTile tile fun t => { t with deque := t.deque ++ [r1] }
  | none => s.setTile tile { t with deque := t.deque ++ [r] }

/-- Enqueues a record, with its stamp (R51, R53). -/
def State.enqueue (s : State) (tile : Nat) (r : Rec) : State := s.store tile { r with stamp := (s.tile tile).d }

/-- A strand becomes ready: a resume record at its tile (R38, R44). -/
def State.makeReady (s : State) (key : Key) : State :=
  match s.theStrand? key with
  | none => s
  | some t =>
    (s.modStrand key fun t => { t with state := 0, slot := none, wait := none, dirty := t.dirty ||| lineBit 0 }).enqueue t.tile.toNat t.resumeRec

/-- Leaving the active state other than by a fault: held results are written (R39). -/
def Strand.deactivate (t : Strand) (st : BitVec 3) : Strand :=
  { t.flushHeld with state := st, slot := none, slotCycles := 0, begun := false, dirty := t.flushHeld.dirty ||| lineBit 0 }

/-! ### Counters, pools and charges of a strand's end (R45, R47, R56, R369) -/

/-- Who a device access on a strand's behalf is (R96); without a running strand, SUPV is 1 exactly for ASID 0 on a cobbler tile. -/
def agentWho (asid : BitVec 12) (tile : Nat) (supv : Bool) (store : Bool) (acc : Nat) : Who :=
  { asid := asid, supv := supv, tile := tile, store := store, acc := acc }
def itemSupv (asid : BitVec 12) (tile : Nat) : Bool := asid = 0 && isCobbler tile

/-- Translation of an address that software named, for an agent that charges nothing; a failure with what its walk has replaced (R400). -/
def agentXl (s : State) (w : Who) (a : Word) : Except (XErr × State) (Xl × State) :=
  if !canon a || isScratch a.toNat then .error (.fault ⟨ADDRFORM, 15, 0⟩, s) else
  match translate s w (va57 a) with
  | .error e => .error (e, s.denied w (va57 a))
  | .ok (x, s') => if s'.noWindow x.pa then .error (.fault ⟨WINDOW, 15, 0⟩, s') else .ok (x, s')

def XErr.code : XErr → Nat
  | .fault f => f.code
  | .quota _ _ => QUOTA
  | .dataErr => DATAERR
  | .busy => NOTPRESENT
def XErr.level : XErr → Nat
  | .fault f => f.level
  | _ => 15
def XErr.pte : XErr → Word
  | .fault f => f.pte
  | _ => 0

/-- DROP entry of the log (R378). -/
def State.logDrop (s : State) (tile : Nat) (a : Word) : State := s.logEntry 10 tile [a]

/-- Whether an address lies in memory of this package, whose homes update counter cells, pools and handle cells. -/
def State.hasHome (s : State) (pa : Nat) : Bool := match s.win pa with
  | .inter | .near .. | .host => true
  | _ => false

/-- The decrement of a completion cell leaves for the cell's home (R47, R56, R369); one that fails is dropped and logged, and one whose page
is being moved waits (none; R121). -/
def State.sendDecrement (s : State) (tile : Nat) (asid : BitVec 12) (supv : Bool) (cell : Word) : Option State :=
  if cell = 0 then some s else
  match agentXl s (agentWho asid tile supv true 1) cell with
  | .error (.busy, _) => none
  | .error (_, s') => some (s'.logDrop tile cell)
  | .ok (x, s') => if s'.badIn x.pa 8 || !s'.hasHome x.pa then some (s'.logDrop tile cell) else some (s'.send .req tile 1024 (.decrement asid x.pa cell))

/-- Pushes a frame onto its pool at the descriptor's home (R45, R191), or why an access fails. -/
def State.pushFrame (s : State) (tile : Nat) (asid : BitVec 12) (supv : Bool) (pool frame : Word) : Except (XErr × State) State :=
  match agentXl s (agentWho asid tile supv true 1) pool with
  | .error e => .error e
  | .ok (p, s) =>
    match agentXl s (agentWho asid tile supv true 1) frame with
    | .error e => .error e
    | .ok (f, s) =>
      if s.barred tile p.pa || s.barred tile f.pa then .error (.busy, s)
      else if s.badIn p.pa 16 || s.outAt f.pa || !s.hasHome p.pa || !s.hasHome f.pa then .error (.dataErr, s)
      else .ok (((s.homeStore tile f.pa 8 (s.homeRead p.pa 8)).homeWrite p.pa 8 frame.toNat).homeWrite (p.pa + 8) 8 (s.homeRead (p.pa + 8) 8 + 1))

/-- A home's atomic pop (R46, R190): the frame, and whether FREE came down to LOW. A free frame whose page or link fails answers with its
VA, and nothing is popped (R368, R403). -/
def popFrame (s : State) (w : Who) (p : Xl) : Except (XErr × Word × State) (Word × Bool × State) :=
  let head := BitVec.ofNat 64 (s.homeRead p.pa 8)
  if head = 0 then .ok (0, false, s) else
  match agentXl s w head with
  | .error (e, s) => .error (e, head, s)
  | .ok (f, s) =>
    if s.barred w.tile f.pa then .error (.busy, head, s)
    else if s.badIn f.pa 8 || !s.hasHome f.pa then .error (.dataErr, head, s)
    else
      let s := s.homeWrite p.pa 8 (s.homeRead f.pa 8)
      let free := (s.homeRead (p.pa + 8) 8 + 2 ^ 64 - 1) % 2 ^ 64
      .ok (head, free = s.homeRead (p.pa + 16) 8, s.homeWrite (p.pa + 8) 8 free)

/-- The accumulators that a strand holds are freed (R47, R369). -/
def State.freeAccs (s : State) (tile : Nat) (key : Key) : State :=
  s.modTile tile fun t =>
    { t with accs := t.accs.map fun a => match a.bind with
        | some (k, _) => if k = key then { a with bind := none, retained := false, bad := false } else a
        | none => a }

/-- A strand is gone: its register lines, eyelets (R235), exports of handles stay with the engines; welt completions are
discarded when they find no strand (R185, R195). -/
def State.forget (s0 : State) (tile : Nat) (key : Key) : State :=
  let s : State := { s0 with
    packets := (s0.packets.filter fun p => p.key ≠ key || bits p.hdr 127 124 = 1 || bits p.hdr 127 124 = 3).map fun p =>
      if p.key = key then { p with key := tileKey key.asid } else p
    msgs := s0.msgs.filter fun m => match m.body with
      | .access k op _ => k ≠ key || (match op with | .write .. => true | _ => false)
      | _ => true
    half := s0.half.filter fun h => h.1.key ≠ key }
  (s.modTile tile fun t =>
    { t with
      rdir := t.rdir.filter fun e => e.1 ≠ key
      feq := t.feq.filter fun e => e.2 ≠ key
      eyelets := t.eyelets.map fun e => if e.2.live && e.2.owner = key then (e.1, { e.2 with live := false, queue := [], busy := 0, rhead := 0, rcount := 0, last := none, arriving := none }) else e
      items := t.items.filter fun i => match i with
        | .handle k _ _ => k ≠ key
        | .drain a _ => match (t.accs.toList[a]?).bind (·.bind) with
          | some (k, _) => k ≠ key
          | none => true
        | .line k _ _ => k ≠ key
        | _ => true }).dropStrand key

/-- Handles of engines that a strand's end awaits: pending copies, MMAs, `qsend`s and prefetches (R185, R369). -/
def Strand.pendingEngines (t : Strand) : BitVec 8 :=
  BitVec.ofNat 8 (packN 1 (t.k.toList.map fun w => if bits w 63 62 = 1 && 1 ≤ bits w 61 59 && bits w 61 59 ≤ 3 then 1 else 0))

/-- The frame's lines leave the L1: without a write-back for a pool frame (R47 step 3). -/
def State.dropFrame (s : State) (t : Strand) : State :=
  match agentXl s (frameWho t 4) (frameVA t.key) with
  | .error (_, s) => s
  | .ok (x, s) => s.modTile t.tile.toNat fun u => { u with l1 := u.l1.filter fun e => !(e.asid = t.key.asid && e.addr / 32 = x.pa / 4096) }

/-- A pool frame goes back to its pool (R47 step 3, R369): its lines leave, the 4 KiB charge goes from the group that CGRP now names, which
need not be the group charged at dispatch (DESIGN CHOICE, log 67), and a push that fails, or an uncorrectable charge entry (R375, R379), is
logged; none while a page is being moved or a home cannot be reached. -/
def State.poolBack (s : State) (t : Strand) (pool : Word) : Option State :=
  let tile := t.tile.toNat
  let entry := chgEntry s t.key.asid t.cgrp
  if chgOn s && s.barred tile entry then none else
  let s1 := (s.dropFrame t).uncharge tile t.key.asid t.cgrp 1
  match s1.pushFrame tile t.key.asid t.supv pool (frameVA t.key) with
  | .ok s2 => some s2
  | .error (.busy, _) => none
  | .error (_, s2) => some (s2.logDrop tile (frameVA t.key))

/-- The end of a killed strand (R369, steps 2–6), and whether it has come: the release waits for its write-backs, the decrement and the push
for pages that are being moved. -/
def State.endKilled (s : State) (t : Strand) : State × Bool :=
  let tile := t.tile.toNat
  let released : State × Bool := match s.onBehalf t (release .c) with
    | .ok _ s1 => (s1, true)
    | .error (.wait _) s1 => (s1, false)
    | .error (.cond _) s1 => (s1, true)
  if !released.2 then released else
  match released.1.sendDecrement tile t.key.asid t.supv t.home with
  | none => (released.1, false)
  | some s1 =>
    match t.pool.elim (some s1) (s1.poolBack t) with
    | none => (released.1, false)
    | some s3 => ((s3.freeAccs tile t.key).forget tile t.key, true)

end Sys2Proof.Machine
end

