-- ==== Sys2Proof/Machine/Regs.lean ====
section
/-!
DEFINITION. The register window (R332) and what its writes do (R13, R89, R92, R117, R204, R229, R315, R321, R329, R333, R377,
R413), and the special registers of a strand (R205–R209).
-/

namespace Sys2Proof.Machine

def word (n : Nat) : Word := BitVec.ofNat 64 n

/-! ### Scratchpad ownership (R109, R229) -/

/-- A stash map or eyelet home buffer covers a byte of the region. -/
def Tile.regionUsed (t : Tile) (r : Nat) : Bool :=
  (t.stashes.any fun e => e.2.off < (r + 1) * 65536 && r * 65536 < e.2.off + e.2.len) ||
  (t.eyelets.any fun e => e.2.live && e.2.scr < (r + 1) * 65536 && r * 65536 < e.2.scr + 2048)

/-- The part of row r of a copy that lies in its destination's scratchpad: tile, offset and bytes (R229). -/
def Copy.scrPart (c : Copy) (tile r : Nat) : Option (Nat × Nat × Nat) :=
  let d := (c.dst + word r * c.dstride).toNat
  if c.remote then some (c.dtile, d, c.rowlen) else
  let lo := max d Config.scratchBase
  let hi := min (d + c.rowlen) (Config.scratchBase + Config.scratchSize)
  if lo < hi then some (tile, lo - Config.scratchBase, hi - lo) else none

/-- An engine's access to region r of a tile is accepted and not yet complete (R109): an MMA of the unit's queue, or a copy that has begun. -/
def State.regionBusy (s : State) (tile r : Nat) : Bool :=
  let inside (p : Option (Nat × Nat × Nat)) : Bool := p.any fun (t, off, n) => t = tile && off < (r + 1) * 65536 && r * 65536 < off + n
  ((s.tile tile).mat.any fun o => o.uses.getLsbD r) ||
  s.tiles.any fun e => e.2.copies.any fun c => c.stop.isNone && decide (0 < c.next) && (List.range c.rows).any fun i => inside (c.scrPart e.1 i)

/-- Region r changes hands: its bytes are zero and its words empty before the new owner has it. -/
def Tile.giveRegion (t : Tile) (r : Nat) (new : BitVec 13) : Tile :=
  let inside (a : Nat) : Bool := r * 65536 ≤ a && a < (r + 1) * 65536
  { t with
    scrasid := t.scrasid.setIfInBounds r new
    scrasidNext := del r t.scrasidNext
    scratch := t.scratch.filter fun e => !inside e.1
    full := t.full.filter fun x => !inside (8 * x)
    scopeC := t.scopeC.filter fun x => !inside (8 * x)
    badw := t.badw.filter fun x => !inside (8 * x) }

/-- A write of SCRASID(r): ignored while the region is in use; a change waits for the accesses accepted before it. -/
def State.writeScrasid (s : State) (tile : Nat) (r : Nat) (w : Word) : State :=
  let t := s.tile tile
  let new := w.extractLsb' 0 13
  let old := (t.scrasid.toList[r]?).getD 0
  if new = old || t.regionUsed r then s
  else if s.regionBusy tile r then s.setTile tile { t with scrasidNext := put r new t.scrasidNext }
  else s.setTile tile (t.giveRegion r new)

/-- Waiting writes of SCRASID whose accesses have completed take effect. -/
def State.giveRegions (s : State) : State :=
  s.tiles.foldl (fun s e => e.2.scrasidNext.foldl (fun s w =>
    if s.regionBusy e.1 w.1 || (s.tile e.1).regionUsed w.1 then s else s.modTile e.1 fun t => t.giveRegion w.1 w.2) s) s

/-! ### DORD (R321) -/

/-- A write of 6 or 7 to a field leaves that field unchanged. -/
def writeDord (old : BitVec 18) (w : Word) : BitVec 18 :=
  (List.range 6).foldl (fun acc i =>
    let f := bits w (3 * i + 2) (3 * i)
    if f < 6 then setBits acc (3 * i + 2) (3 * i) f else acc) old

/-! ### Replies (R367) -/

/-- Words that are no reply: ACTION 3 or a reserved bit. -/
def badReply (w0 w1 : Word) : Bool :=
  bits w0 63 62 = 3 || bits w0 61 57 ≠ 0 || bits w1 63 48 ≠ 0 || bits w1 31 26 ≠ 0

/-- A reply leaves for TILE, or is discarded and logged. -/
def State.sendReply (s : State) (src : Nat) (w0 w1 : Word) : State :=
  if badReply w0 w1 then s.logEntry 10 (if src < 1024 then src else 0x7FE) [w0, w1]
  else s.send .sync src (bits w1 25 16) (.reply w0 w1)

/-! ### The register window -/

def stackMask : Word := 0xFFFF000FFFFF0000
def ovfMask : Word := 0x000FFFFFFFFF000F

def queueReg (q : Queue) : Nat → Word
  | 0x00 => q.base
  | 0x08 => q.size
  | 0x10 => q.head
  | 0x18 => q.tail
  | _ => 0

def setQueueReg (q : Queue) (o : Nat) (w : Word) : Queue :=
  match o with
  | 0x00 => { q with base := w &&& ~~~ 0xFFF }
  | 0x08 => { q with size := w }
  | 0x18 => { q with tail := w }
  | _ => q

/-- Reads of the register window by package offset (R332); other offsets read as zero. -/
def regRead : RegMap := fun s o =>
  if o = 0x0 then word s.spare.toNat
  else if o = 0x8 then word (s.nearsz.toNat * 2 ^ 8 + s.pkgid.toNat)
  else if o = 0x10 then s.sptbase
  else if o = 0x18 then s.chgbase
  else if 0x1000 ≤ o && o < 0x1000 + 96 then (s.stack ((o - 0x1000) / 8)).wsave
  else if 0x100000 ≤ o && o < 0x100000 + 12 * 0x100 then ((s.stack ((o - 0x100000) / 0x100)).live (o % 0x100 / 8)).setWidth 64
  else if 0x1000000 ≤ o && o < 0x1000000 + 1024 * 0x40 then
    let t := s.tile ((o - 0x1000000) / 0x40)
    match o % 0x40 with
    | 0x08 => t.dord.setWidth 64
    | 0x10 => t.wdogt.setWidth 64
    | 0x18 => t.ovf
    | 0x20 => t.dfr
    | _ => 0
  else if 0x1800000 ≤ o && o < 0x1800000 + 1024 * 0x100 then
    (((s.tile ((o - 0x1800000) / 0x100)).scrasid.toList[o % 0x100 / 8]?).getD 0).setWidth 64
  else if 0x2000000 ≤ o && o < 0x2000000 + 256 then ((s.optmap.toList[(o - 0x2000000) / 8]?).getD 0).setWidth 64
  else if 0x3000000 ≤ o && o < 0x3000000 + 0x100 then
    match s.queues.toList[(o - 0x3000000) / 0x40]? with
    | some q => queueReg q (o % 0x40)
    | none => 0
  else match o with
    | 0x4000000 => s.logbase
    | 0x4000008 => s.logsize
    | 0x4000010 => s.loghead
    | 0x4000018 => s.logtail
    | 0x4000020 => s.loglost
    | _ => 0

/-- OPTMAP of a port: setting EN retrains a failed port (R329, R426). -/
def State.writeOptmap (s : State) (p : Nat) (w : Word) : State :=
  { s with
    optmap := s.optmap.setIfInBounds p (w.extractLsb' 0 4)
    opticalDown := if w.getLsbD 3 then s.opticalDown &&& ~~~ (BitVec.ofNat 32 (2 ^ p)) else s.opticalDown }

/-- LOGPOSTj: the write of LOGPOST7 posts all eight as one SUPV entry (R377). `src` is the posting tile, or the sole die for the host. -/
def State.writeLogpost (s : State) (src : Nat) (j : Nat) (w : Word) : State :=
  let s := { s with logpost := s.logpost.setIfInBounds j w }
  if j = 7 then s.logEntry 1 src (s.logpost.toList.take 7) else s

/-- HREPLY1 sends the reply whose word 0 HREPLY0 holds (R377). -/
def State.writeHreply1 (s : State) (w1 : Word) : State := s.sendReply 1024 s.hreply w1

/-- Writes of the register window (R332): reserved fields are ignored, as are read-only registers and fields locked at start
(R336). `who` is the writing tile, or 1,024 for the host. -/
def regWrite : RegWrite := fun s o w _ who =>
  if o = 0x0 then if s.locked || bits w 3 0 > 8 then s else { s with spare := w.extractLsb' 0 4 }
  else if o = 0x8 then
    if s.locked then s else { s with nearsz := if bits w 14 8 ≤ 64 then w.extractLsb' 8 7 else s.nearsz, pkgid := w.extractLsb' 0 3 }
  else if o = 0x10 then { s with sptbase := w &&& 0x000FFFFFFFFF0000 }
  else if o = 0x18 then { s with chgbase := w &&& 0x000FFFFFFF000001 }
  else if 0x1000 ≤ o && o < 0x1000 + 96 then
    let n := (o - 0x1000) / 8
    s.setStack n { s.stack n with wsave := w &&& stackMask }
  else if 0x1000000 ≤ o && o < 0x1000000 + 1024 * 0x40 then
    s.modTile ((o - 0x1000000) / 0x40) fun t =>
      match o % 0x40 with
      | 0x08 => { t with dord := writeDord t.dord w }
      | 0x10 => { t with wdogt := w.extractLsb' 0 40 }
      | 0x18 => { t with ovf := w &&& ovfMask }
      | 0x20 => { t with dfr := w &&& ovfMask }
      | _ => t
  else if 0x1800000 ≤ o && o < 0x1800000 + 1024 * 0x100 then s.writeScrasid ((o - 0x1800000) / 0x100) (o % 0x100 / 8) w
  else if 0x2000000 ≤ o && o < 0x2000000 + 256 then s.writeOptmap ((o - 0x2000000) / 8) w
  else if 0x3000000 ≤ o && o < 0x3000000 + 0x100 then
    let c := (o - 0x3000000) / 0x40
    match s.queues.toList[c]? with
    | some q => { s with queues := s.queues.setIfInBounds c (setQueueReg q (o % 0x40) w) }
    | none => s
  else match o with
    | 0x4000000 => { s with logbase := w &&& ~~~ 0xFFF }
    | 0x4000008 => { s with logsize := w }
    | 0x4000010 => { s with loghead := w }
    | 0x4000020 => { s with loglost := s.loglost &&& ~~~ w }
    | 0x4000080 => { s with hreply := w }
    | 0x4000088 => s.writeHreply1 w
    | _ => if 0x4000040 ≤ o && o < 0x4000080 then s.writeLogpost (if who < 1024 then who else 0x7FE) ((o - 0x4000040) / 8) w else s

/-! ### Loads and stores of a strand, through the register window's map -/

def memLoad (w : Who) (l : List Piece) : M Got := loadPieces regRead w l
def memStore (w : Who) (l : List Piece) (v : Nat) : M Unit := storePieces regWrite regRead w l v

/-! ### Special registers (R205–R209) -/

/-- The value that `mfsr` reads: from before the pair's writes. -/
def State.readSr (s : State) (r : SReg) : Word :=
  let t := s.src
  match r with
  | .stat => t.stat
  | .tcause => t.tcause.setWidth 64
  | .tinfo => t.tinfo
  | .taddr => t.taddr
  | .trappc => t.trappc
  | .cyc => s.myTile.cyc
  | .wdogt => s.myTile.wdogt.setWidth 64
  | .dord => s.myTile.dord.setWidth 64
  | .tallow =>
    let y := s.layer (s.here / 64)
    word (y.clk.toNat * 2 ^ 32 + y.allow.toNat * 2 ^ 16 + y.temp.toNat * 2 ^ 8)
  | .cgrp => t.cgrp.setWidth 64
  | .prio => t.prio.setWidth 64
  | .ctablo => t.ctab.extractLsb' 0 64
  | .ctabhi => t.ctab.extractLsb' 64 64
  | .dom => t.dom
  | .tvec => t.tvec
  | .lfsr => t.lfsr.setWidth 64
  | .tileid => word (t.key.asid.toNat * 2 ^ 16 + s.here)
  | .home => t.home


/-- The write of a strand's own special register; read-only ones keep their value (R205, R206). -/
def Strand.writeSr (t : Strand) (r : SReg) (x : Word) : Strand :=
  let t := { t with dirty := t.dirty ||| lineBit 0 }
  match r with
  | .tcause => { t with tcause := x.extractLsb' 0 16 }
  | .tinfo => { t with tinfo := x }
  | .taddr => { t with taddr := x }
  | .trappc => { t with trappc := x &&& ~~~ 7 }
  | .cgrp => { t with cgrp := x.extractLsb' 0 8 }
  | .prio => { t with prio := x.extractLsb' 0 2 }
  | .ctablo => { t with ctab := t.ctab.extractLsb' 64 64 ++ x }
  | .ctabhi => { t with ctab := x ++ t.ctab.extractLsb' 0 64 }
  | .dom => { t with dom := x &&& domMask }
  | .tvec => { t with tvec := x &&& ~~~ 7 }
  | .lfsr => { t with lfsr := x.extractLsb' 0 32 }
  | .home => { t with home := x &&& ~~~ 63 }
  | .stat | .cyc | .wdogt | .dord | .tallow | .tileid => t

/-- Special registers whose write needs SUPV (R206). -/
def srNeedsSupv : SReg → Bool
  | .wdogt | .dord | .cgrp => true
  | _ => false

def State.writeSr (s : State) (r : SReg) (x : Word) : State :=
  match r with
  | .wdogt => s.modMyTile fun t => { t with wdogt := x.extractLsb' 0 40 }
  | .dord => s.modMyTile fun t => { t with dord := writeDord t.dord x }
  | _ => { s with me := s.me.writeSr r x }

end Sys2Proof.Machine
end

