-- ==== Sys2Proof/Machine/Operands.lean ====
section
/-!
DEFINITION. Operand forms: immediates and literals, displacements and branch offsets (R150, R154), lanes and masks of vector
registers (R9, R66, R251, R252), scalar floating operands (R177), and the registers and register lines that an instruction names (R35, R152).
-/

namespace Sys2Proof.Machine

/-! ### Immediates, displacements, offsets (R150, R154) -/

/-- OPI's operand I: the field or the literal, sign-extended. -/
def immI {w : Nat} : Imm w → Word
  | .fld x => x.signExtend 64
  | .lit x => x.signExtend 64

/-- A displacement: the field scaled by the access size, or the literal in bytes. -/
def disp {w : Nat} (i : Imm w) (scale : Nat) : Word :=
  match i with
  | .fld x => x.signExtend 64 * word scale
  | .lit x => x.signExtend 64

/-- A BR or JMP offset in bytes. -/
def offBytes {w : Nat} (i : Imm w) : Word := immI i * 8

def ldBytes : LdTy → Nat
  | .z8 | .s8 => 1
  | .z16 | .s16 => 2
  | .z32 | .s32 => 4
  | .d64 => 8

/-- The extension of a loaded value (R155). -/
def ldExtend (t : LdTy) (x : Nat) : Word :=
  match t with
  | .s8 => sext 8 x
  | .s16 => sext 16 x
  | .s32 => sext 32 x
  | _ => word x

def stBytes : StTy → Nat
  | .b8 => 1
  | .b16 => 2
  | .b32 => 4
  | .b64 => 8

def amoBytes : AmoTy → Nat
  | .w32 => 4
  | .w64 => 8
  | .w128 => 16

/-! ### Scalar floating operands (R177) -/

def f64Of (x : Word) : Val := fmtF64.val x.toNat
def f32Of (x : Word) : Val := fmtF32.val (x.toNat % 2 ^ 32)

/-! ### Lanes (R9, R66) -/

/-- Lane i of width w: its bits, as a number. -/
def laneAt (x : Line) (w i : Nat) : Nat := (x.extractLsb' (w * i) w).toNat

/-- The line whose lanes, from lane 0 up, are the numbers of a list. -/
def ofLanes (w : Nat) (l : List Nat) : Line := BitVec.ofNat 1024 (packN w l)

/-- A line built lane by lane. -/
def mkLanes (w : Nat) (f : Nat → Nat) : Line := ofLanes w ((List.range (1024 / w)).map f)

/-- Whether a mask switches element i of c elements on (R251). -/
def laneOn (m : MaskV) (c i : Nat) : Bool := m.getLsbD (if c ≤ 128 then i else i * 128 / c)

/-- Lanes in ascending order, the masked-off ones as they were, the LFSR going from one rounding to the next (R74, R252). -/
def laneLoop (on : Nat → Bool) (old : Nat → Nat) (f : BitVec 32 → Nat → Nat × BitVec 32) : Nat → Nat → BitVec 32 → List Nat × BitVec 32
  | 0, _, s => ([], s)
  | n + 1, i, s =>
    if on i then
      let (x, s1) := f s i
      let (r, s2) := laneLoop on old f n (i + 1) s1
      (x :: r, s2)
    else
      let (r, s2) := laneLoop on old f n (i + 1) s
      (old i :: r, s2)

/-- All lanes of tag t, masked. -/
def eachLane (t : Tag) (m : MaskV) (old : Line) (f : BitVec 32 → Nat → Nat × BitVec 32) (s : BitVec 32) : Line × BitVec 32 :=
  let n := Tag.lanes t
  let w := Tag.width t
  let (l, s') := laneLoop (laneOn m n) (laneAt old w) f n 0 s
  (ofLanes w l, s')

/-- The same for an operation that rounds nothing. -/
def eachLanePure (t : Tag) (m : MaskV) (old : Line) (f : Nat → Nat) : Line :=
  (eachLane t m old (fun s i => (f i, s)) 0).1

/-- The strand's LFSR after an instruction's roundings; only an instruction whose rm holds SR writes it (R149). -/
def State.setLfsr (s : State) (rm : Rnd) (x : BitVec 32) : State :=
  if rm = .sr then { s with me := { s.me with lfsr := x, dirty := s.me.dirty ||| lineBit 0 } } else s

/-- The integer value of a lane under an integer tag. -/
def intLane (t : Tag) (x : Nat) : Int :=
  match Tag.int? t with
  | some (true, w) => sint w x
  | some (false, w) => ((x % 2 ^ w : Nat) : Int)
  | none => x

def Tag.isInt : Tag → Bool
  | .i8 | .i16 | .i32 | .i64 | .n8 | .n16 | .n32 | .n64 => true
  | _ => false
def Tag.isFloat : Tag → Bool
  | .f64 | .f32 | .f16 | .bf16 => true
  | _ => false
def Tag.isNum (t : Tag) : Bool := Tag.isInt t || Tag.isFloat t

/-- TINFO of TAGCHK (R250): the tag found, the field (0 d, 1 a, 2 b), why, and the offset in a group of three. -/
def tagCond (field why off : Nat) (t : Tag) : Cond :=
  { code := TAGCHK, tinfo := word (tagNum t + field * 2 ^ 8 + why * 2 ^ 10 + off * 2 ^ 12) }

/-! ### Registers and register lines that an instruction names (R27, R35, R152) -/

/-- Bits 31:0 stand for frame lines, 63:32 for g registers, 79:64 for v registers. -/
abbrev Names := BitVec 80

def bitOf (n : Nat) : Names := BitVec.ofNat 80 (2 ^ n)
def gBit (r : GReg) : Names := bitOf (gLine r) ||| bitOf (32 + r.val)
def vBit (r : VReg) : Names := bitOf (vLine r) ||| bitOf (64 + r.val)
def mBit : Names := bitOf 3
def kBit : Names := bitOf 4
/-- Line 24: the save area of accumulators (R273). -/
def qBit : Names := bitOf 24
def packetBits : Names := bitOf 28 ||| bitOf 29
/-- Lines 28–30: packet words, PKST and the sequence numbers (R240). -/
def eyeletBits : Names := packetBits ||| bitOf 30

/-- A mask register other than m0 is read from line 3. -/
def mBitOf (m : MReg) : Names := if m.val = 0 then 0 else mBit

/-- What an instruction's operands and results lie in; line 0 is always present for an active strand (R35). -/
def Instr.names : Instr → Names
  | .add d a b | .sub d a b | .and d a b | .or d a b | .xor d a b | .andn d a b | .orn d a b | .sll d a b | .srl d a b | .sra d a b
  | .rol d a b | .ror d a b | .min d a b | .max d a b | .minu d a b | .maxu d a b | .slt d a b | .sltu d a b | .seq d a b | .sne d a b
  | .mul d a b | .mulh d a b | .mulhu d a b | .div d a b _ | .divu d a b _ | .rem d a b _ | .remu d a b _
  | .faddF64 d a b _ | .fsubF64 d a b _ | .fmulF64 d a b _ | .fdivF64 d a b _ _ | .fminF64 d a b | .fmaxF64 d a b
  | .faddF32 d a b _ | .fsubF32 d a b _ | .fmulF32 d a b _ | .fdivF32 d a b _ _ | .fminF32 d a b | .fmaxF32 d a b
  | .feqF64 d a b | .fltF64 d a b | .fleF64 d a b | .feqF32 d a b | .fltF32 d a b | .fleF32 d a b
  | .amoadd d a b _ _ _ | .amoand d a b _ _ _ | .amoor d a b _ _ _ | .amoxor d a b _ _ _ | .amomax d a b _ _ _ | .amomin d a b _ _ _
  | .amomaxu d a b _ _ _ | .amominu d a b _ _ _ | .amoswap d a b _ _ _ | .amocas d a b _ _ _
  | .amoaddF32 d a b _ _ | .amaxF32 d a b _ _ | .aminF32 d a b _ _ | .map d a b | .waitw d a b | .invlR d a b => gBit d ||| gBit a ||| gBit b
  | .clz d a | .ctz d a | .popc d a | .rev d a
  | .addi d a _ | .andi d a _ | .ori d a _ | .xori d a _ | .slti d a _ | .sltiu d a _ | .slli d a _ | .srli d a _ | .srai d a _ | .lhi d a _
  | .extu d a _ _ | .exts d a _ _ | .ins d a _ _ | .fsqrtF64 d a _ _ | .fsqrtF32 d a _ _ | .fclassF64 d a | .fclassF32 d a | .fnegF64 d a
  | .fnegF32 d a | .fabsF64 d a | .fabsF32 d a | .cvt d a _ _ _ _ | .ld d a _ _ _ | .st d a _ _ | .ldAcq d a _ _ | .stRel d a _ _
  | .ldf d a _ | .ldfe d a _ | .stf d a | .stef d a | .ftest d a | .jalr d a | .bvote d a _ | .csum d a _ | .cmax d a _ | .cmin d a _
  | .eycreate d a => gBit d ||| gBit a
  | .csel d a b c | .madd d a b c | .msub d a b c | .fmaddF64 d a b c _ | .fmaddF32 d a b c _ | .fmsubF64 d a b c _ | .fmsubF32 d a b c _ =>
    gBit d ||| gBit a ||| gBit b ||| gBit c
  | .vadd d a b m _ | .vsub d a b m _ | .vmul d a b m _ | .vmin d a b m | .vmax d a b m | .vaddsat d a b m | .vsubsat d a b m | .vmulh d a b m
  | .vand d a b m | .vor d a b m | .vxor d a b m | .vsll d a b m | .vsrl d a b m | .vsra d a b m
  | .vfma d a b m _ | .vfms d a b m _ | .vfnma d a b m _ | .vdiv d a b m _ | .vsel d a b m => vBit d ||| vBit a ||| vBit b ||| mBitOf m
  | .vabs d a m | .vneg d a m | .vsqrt d a m _ | .vmov d a m | .vcvt d a _ m _ _ | .vcvtSat d a _ m _ _ | .vctab d a _ m => vBit d ||| vBit a ||| mBitOf m
  | .vceq _ a b m | .vcne _ a b m | .vclt _ a b m | .vcle _ a b m | .vcun _ a b m => mBit ||| vBit a ||| vBit b ||| mBitOf m
  | .mand .. | .mor .. | .mxor .. | .mandn .. | .mnot .. => mBit
  | .vzero d m => vBit d ||| mBitOf m
  | .vsettag d a _ | .vbpack d a | .vbunpack d a => vBit d ||| vBit a
  | .vchk a _ => vBit a
  | .vbq d a _ _ => vBit d ||| vBit a ||| vBit (a + 1) ||| vBit (a + 2)
  | .vbdq d a _ _ => vBit d ||| vBit (d + 1) ||| vBit (d + 2) ||| vBit a
  | .vperm d a b | .vzipl d a b | .vziph d a b | .vunzip d a b => vBit d ||| vBit a ||| vBit b
  | .vrotl d a b => vBit d ||| vBit a ||| gBit b
  | .vbcast d a _ m => vBit d ||| gBit a ||| mBitOf m
  | .vextr d a b => gBit d ||| vBit a ||| gBit b
  | .vins d a b => vBit d ||| gBit a ||| gBit b
  | .vredadd d a m _ | .vredmax d a m | .vredmin d a m => gBit d ||| vBit a ||| mBitOf m
  | .mmaE4m3 _ a b _ | .mmaE5m2 _ a b _ | .mmaE2m1 _ a b _ | .mmaI8 _ a b _ | .mmaC4i8 _ a b _ | .mmaTi8 _ a b _ | .mmaBf16 _ a b _ | .mmaF16 _ a b _ =>
    gBit a ||| gBit b ||| kBit ||| qBit
  | .qsend _ a b _ => gBit a ||| gBit b ||| kBit ||| qBit
  | .qacq _ a | .qanchor _ a | .qaddm _ a => gBit a ||| qBit
  | .qrel _ | .qzero _ | .qadd .. => qBit
  | .qread d _ _ _ _ | .qreadSat d _ _ _ _ => vBit d ||| qBit
  | .vld d a _ _ _ | .vst d a _ _ | .vldp d a _ _ | .vstp d a _ => vBit d ||| gBit a
  | .vgath32 d a b _ | .vgath64 d a b _ | .vscat32 d a b | .vscat64 d a b => vBit d ||| gBit a ||| vBit b
  | .redNF32 a b | .redNAdd a b _ | .redNMaxF32 a b | .beq a b _ | .bne a b _ | .blt a b _ | .bge a b _ | .bltu a b _ | .bgeu a b _
  | .fpush a b | .fenceRelN a b | .fenceAcqN a b => gBit a ||| gBit b
  | .fpop d a | .hwaitany d a => gBit d ||| gBit a ||| kBit
  | .fempty a | .unmap a | .sflush a | .invlA a | .jr a | .spawn a | .depdec a | .ctabld a => gBit a
  | .pfl2 _ a b => gBit a ||| gBit b ||| kBit
  | .jal d _ | .mfsr d _ | .mtsr _ d => gBit d
  | .wlaunch _ a | .himport _ a | .acopy _ a | .acopy2 _ a => gBit a ||| kBit
  | .hwait _ | .hcancel _ => kBit
  | .htest d _ | .hexport d _ | .hstate d _ => gBit d ||| kBit
  | .eypostMsg0 a b | .eypostMsg1 a b => gBit a ||| gBit b ||| bitOf 29 ||| bitOf 30
  | .eytake d a => gBit d ||| gBit a ||| bitOf 29
  | .eywait a => gBit a ||| bitOf 29
  | .popenMsg0 a | .popenMsg1 a => gBit a ||| packetBits
  | .pput a b => gBit a ||| gBit b ||| packetBits
  | .psend a b => gBit a ||| gBit b ||| eyeletBits
  | .exit => kBit
  | _ => 0

/-- The frame lines of an instruction. -/
def Instr.lines (i : Instr) : BitVec 32 := (Instr.names i).setWidth 32

/-- Whether an instruction reads or writes a register. -/
def Instr.touches (i : Instr) : Dst → Bool
  | .g r => r.val ≠ 0 && (Instr.names i).getLsbD (32 + r.val)
  | .v r => (Instr.names i).getLsbD (64 + r.val)

/-- The lines of both slots. A packet that may be open is seen in line 29, which comes in with the frame's first access to it. -/
def Pair.lines : Pair → BitVec 32
  | .two c a => Instr.lines c ||| Instr.lines a
  | .lone i => Instr.lines i

end Sys2Proof.Machine
end

