-- ==== Sys2Proof/Machine/Flags.lean ====
section
/-!
DEFINITION. Everything the manual computes as a flag: comparisons of g registers and of floating values (R171, R180, R182,
R259), the class bits of R180, the FL pair of an accumulator element (R82) under `Numbers`, and the wait flags of a handle
word (R193). Dweyryn has no arithmetic status flags (R72); Burlia's F register is in `Burlia`.
-/

namespace Sys2Proof.Machine

/-- A comparison's result in a g register. -/
def boolWord (b : Bool) : Word := if b then 1 else 0

/-- x ≤ y; false when either is NaN (R180). -/
def Val.le (x y : Val) : Bool := x.lt y || x.eq y

/-- Whether a code is a signalling NaN: its quiet bit is 0 (R68). -/
def Fmt.isQuiet (f : Fmt) (code : Nat) : Bool := code / 2 ^ (f.m - 1) % 2 = 1

/-- `fclass`'s bit number (R180). -/
def Fmt.classBit (f : Fmt) (code : Nat) : Nat :=
  match f.val code with
  | .nan => if f.isQuiet code then 9 else 8
  | .inf neg => if neg then 0 else 7
  | .fin neg mag _ _ =>
    if mag = 0 then (if neg then 3 else 4)
    else if mag < 2 ^ f.m then (if neg then 2 else 5)
    else (if neg then 1 else 6)

/-- `fneg` on a code (R180). -/
def Fmt.negCode (f : Fmt) (code : Nat) : Nat :=
  match f.val code with
  | .nan => f.nan.getD 0
  | _ => if code / 2 ^ (f.w - 1) % 2 = 1 then code % 2 ^ (f.w - 1) else code % 2 ^ (f.w - 1) + 2 ^ (f.w - 1)

/-- `fabs` on a code. -/
def Fmt.absCode (f : Fmt) (code : Nat) : Nat :=
  match f.val code with
  | .nan => f.nan.getD 0
  | _ => code % 2 ^ (f.w - 1)

/-! ### Handle words (R193) -/

def hState (w : Word) : Nat := bits w 63 62
def hKind (w : Word) : Nat := bits w 61 59
def hRmt (w : Word) : Bool := w.getLsbD 56
def hPending (w : Word) : Bool := hState w = 1
def hDone (w : Word) : Bool := hState w = 2
def hEmpty (w : Word) : Bool := hState w = 0

/-- A new pending handle (R194). -/
def newHandle (kind : Nat) (rmt : Bool) (seq : BitVec 16) : Word :=
  word (2 ^ 62 + kind * 2 ^ 59 + rmt.toNat * 2 ^ 56 + seq.toNat * 2 ^ 32)

/-- The same handle, done with a STATUS and INFO. -/
def doneHandle (w : Word) (status : Byte) (info : BitVec 32) : Word :=
  word (2 ^ 63 + hKind w * 2 ^ 59 + (hRmt w).toNat * 2 ^ 56 + status.toNat * 2 ^ 48 + bits w 47 32 * 2 ^ 32 + info.toNat)

end Sys2Proof.Machine
end

