-- ==== Sys2Proof/Machine/Memory.lean ====
section
/-!
DEFINITION. Memory instructions: loads and stores (R212–R216), full/empty words (R217, R218), stash maps (R219, R220), ordered
accesses and atomics (R222–R225), fences (R226, R227).
-/

namespace Sys2Proof.Machine

/-! ### Shared forms -/

/-- ILLSTATE 0x107 inside an open packet (R242, R393). -/
def packetTrap : M Unit := do
  trapIf ((← get).src.pkst.getLsbD 63) { code := ILLSTATE, tinfo := 0x107 }

/-- A load's data came back uncorrectable: its destination keeps its value, the error is pending (R370). -/
def dataErrLater (a : Word) : M Unit :=
  modify fun (s : State) => { s with me := { s.me with errs := s.me.errs ++ [(a, s.me.pc)] } }

/-- A precise data error (R370, R382). -/
def dataErrNow (a : Word) : M Unit := do
  let s ← get
  throw (.cond { code := DATAERR, tinfo := s.me.pc, taddr := a })

/-- A walk that meets uncorrectable table data ends a load as bad data would: its destination keeps its value (R370, R399). -/
def orLater {α : Type} (m : M α) : M (Option α) := do
  try
    let x ← m
    return some x
  catch
    | .cond c =>
      if c.code = DATAERR then
        dataErrLater c.taddr
        return none
      else throw (.cond c)
    | e => throw e

/-- A load of `n` bytes at `a` into whatever `put` writes. -/
def loadInto (a : Word) (n align : Nat) (put : Nat → State → State) : M Unit := do
  match ← orLater (check (← get).whoLoad a n align) with
  | none => pure ()
  | some l =>
    let x ← memLoad (← get).whoLoad l
    if x.bad then dataErrLater a else modify (put x.val)

/-- A store of `n` bytes at `a`. -/
def storeFrom (a : Word) (n align : Nat) (v : Nat) : M Unit := do
  let l ← toBegin (do return [← check (← get).whoStore a n align])
  memStore (← get).whoStore ((l.head?).getD []) v

/-! ### Scalar and vector loads and stores (R212–R214) -/

/-- R212. -/
def execLd (d a : GReg) (dsp : Imm 8) (ty : LdTy) (la : La) (s : State) : Host.Outcome State Fault Refusal :=
  run (loadInto (s.g a + disp dsp (ldBytes ty)) (ldBytes ty) 1 fun x s => s.setGLa d la (ldExtend ty x)) s

/-- R213. -/
def execSt (d a : GReg) (dsp : Imm 8) (ty : StTy) (s : State) : Host.Outcome State Fault Refusal :=
  run (storeFrom (s.g a + disp dsp (stBytes ty)) (stBytes ty) 1 (s.g d).toNat) s

/-- R214. -/
def execVld (d : VReg) (a : GReg) (dsp : Imm 6) (tag : Tag) (la : La) (s : State) : Host.Outcome State Fault Refusal :=
  run (loadInto (s.g a + disp dsp 128) 128 1 fun x s => s.setVLa d la (BitVec.ofNat 1024 x) tag) s

/-- R214: tag raw stores without a check. -/
def execVst (d : VReg) (a : GReg) (dsp : Imm 6) (tag : Tag) (s : State) : Host.Outcome State Fault Refusal :=
  run (do
    trapIf (tag != .raw && s.tag d != tag) (tagCond 0 0 0 (s.tag d))
    storeFrom (s.g a + disp dsp 128) 128 1 (s.v d).toNat) s

/-! ### Packed elements (R77, R215) -/

/-- The VA of a bit address, which is read as two's complement (R77). -/
def bitVA (a0 : Word) : Word := a0.sshiftRight 3

/-- Bytes that n elements of w bits at a bit address cover. -/
def packedBytes (a0 : Word) (w n : Nat) : Nat := (n * w + 7) / 8 + (if a0.toNat % 8 = 0 then 0 else 1)

/-- MISALIGN of a bit address (R381): bit 33 set. -/
def bitAlign (a0 : Word) (w : Nat) : M Unit := do
  trapIf ((w == 2 || w == 4) && a0.toNat % w != 0) { code := MISALIGN, tinfo := word (2 ^ 33 + w), taddr := bitVA a0 }
  trapIf (8 ≤ w && a0.toNat % 8 != 0) { code := MISALIGN, tinfo := 1, taddr := bitVA a0 }

/-- The lanes of a packed array, each as an instruction writes it (R77, R66, R71). -/
def packedLanes (tag : Tag) (x : Nat) : Line :=
  ofLanes (Tag.width tag) ((unpackN (Tag.memWidth tag) (Tag.lanes tag) x).map (cleanLane tag))

/-- R215. A ternary code 0b10 in memory is written as 0, which it reads as: no instruction writes the reserved code (R71; DEDUCED, log 72). -/
def execVldp (d : VReg) (a : GReg) (tag : Tag) (la : La) (s : State) : Host.Outcome State Fault Refusal :=
  run (do
    let a0 := s.g a
    let w := Tag.memWidth tag
    let n := Tag.lanes tag
    bitAlign a0 w
    loadInto (bitVA a0) (packedBytes a0 w n) 1 fun x s =>
      s.setVLa d la (packedLanes tag (x / 2 ^ (a0.toNat % 8))) tag) s

/-- The first and the last byte of an access apart from the rest. -/
def edges (l : List Piece) : List Piece :=
  let split (p : Piece) (n : Nat) : List Piece := if n = 0 || p.len ≤ n then [p] else [p.sub 0 n, p.sub n (p.len - n)]
  match l.flatMap fun p => if some p = l.head? then split p 1 else [p] with
  | [] => []
  | q :: r => ((q :: r).dropLast) ++ (match (q :: r).getLast? with | some p => split p (p.len - 1) | none => [])

/-- R215: an edge byte is written whole, its other bits as `vstp` read them. Where those are uncorrectable the edge bytes are written apart, so
that no word that they lie in counts as written whole: it stays bad, as a word written in part does (R375; DESIGN CHOICE, log 18). -/
def execVstp (d : VReg) (a : GReg) (tag : Tag) (s : State) : Host.Outcome State Fault Refusal :=
  run (do
    let a0 := s.g a
    let w := Tag.memWidth tag
    let n := Tag.lanes tag
    let sh := a0.toNat % 8
    let bytes := packedBytes a0 w n
    trapIf (s.tag d != tag) (tagCond 0 0 0 (s.tag d))
    bitAlign a0 w
    let packed := packN w ((List.range n).map fun i => laneAt (s.v d) (Tag.width tag) i)
    let ls ← toBegin (do
      let l ← check s.whoStore (bitVA a0) bytes
      if sh = 0 then return [l] else return [l, ← check s.whoLoad (bitVA a0) bytes])
    match ls with
    | [l, r] =>
      let old ← memLoad s.whoLoad r
      memStore s.whoStore (if old.bad then edges l else l)
        (old.val % 2 ^ sh + 2 ^ sh * packed + old.val / 2 ^ (sh + n * w) * 2 ^ (sh + n * w))
    | ls => memStore s.whoStore ((ls.head?).getD []) packed) s

/-! ### Gathers and scatters (R216) -/

/-- Address of lane i. -/
def laneVA (s : State) (a : GReg) (b : VReg) (size i : Nat) : Word := s.g a + sext (8 * size) (laneAt (s.v b) (8 * size) i)

/-- Checks of every lane, in ascending order. -/
def checkLanes (w : Who) (size : Nat) : List Word → M (List (Word × List Piece))
  | [] => pure []
  | a :: r => do
    let l ← check w a size size
    return (a, l) :: (← checkLanes w size r)

/-- The lanes' values, or the address of the first uncorrectable one. -/
def loadEachLane (w : Who) : List (Word × List Piece) → M (List Nat × Option Word)
  | [] => pure ([], none)
  | (a, l) :: r => do
    let x ← loadSome regRead w l
    let (xs, bad) ← loadEachLane w r
    return (x.val :: xs, if x.bad then some a else bad)

/-- The lanes are events of one instruction, unordered among themselves (R124, R216). -/
def loadLanes (w : Who) (l : List (Word × List Piece)) : M (List Nat × Option Word) := do
  let s ← get
  let x ← loadEachLane w l
  afterPieces s.pieceNo
  return x

def storeEachLane (w : Who) : List (List Piece) → List Nat → M Unit
  | l :: r, v :: vs => do storeSome regWrite regRead w l v; storeEachLane w r vs
  | _, _ => pure ()

def storeLanes (w : Who) (l : List (List Piece)) (vs : List Nat) : M Unit := do
  let s ← get
  storeEachLane w l vs
  afterPieces s.pieceNo

def gather (size : Nat) (want out : Tag) (d : VReg) (a : GReg) (b : VReg) (la : La) : M Unit := do
  let s ← get
  trapIf (s.tag b != want) (tagCond 2 0 0 (s.tag b))
  match ← orLater (checkLanes s.whoLoad size ((List.range (128 / size)).map (laneVA s a b size))) with
  | none => pure ()
  | some l =>
    let (xs, bad) ← loadLanes s.whoLoad l
    match bad with
    | some v => dataErrLater v
    | none => modify fun s => s.setVLa d la (ofLanes (8 * size) xs) out

def scatter (size : Nat) (want : Tag) (d : VReg) (a : GReg) (b : VReg) : M Unit := do
  let s ← get
  trapIf (s.tag b != want) (tagCond 2 0 0 (s.tag b))
  let l ← toBegin (do return (← checkLanes s.whoStore size ((List.range (128 / size)).map (laneVA s a b size))).map (·.2))
  storeLanes s.whoStore l ((List.range (128 / size)).map (laneAt (s.v d) (8 * size)))

/-- R216. -/
def execVgath32 (d : VReg) (a : GReg) (b : VReg) (la : La) (s : State) : Host.Outcome State Fault Refusal :=
  run (gather 4 .i32 .n32 d a b la) s

/-- R216. -/
def execVgath64 (d : VReg) (a : GReg) (b : VReg) (la : La) (s : State) : Host.Outcome State Fault Refusal :=
  run (gather 8 .i64 .n64 d a b la) s

/-- R216. -/
def execVscat32 (d : VReg) (a : GReg) (b : VReg) (s : State) : Host.Outcome State Fault Refusal :=
  run (scatter 4 .i32 d a b) s

/-- R216. -/
def execVscat64 (d : VReg) (a : GReg) (b : VReg) (s : State) : Host.Outcome State Fault Refusal :=
  run (scatter 8 .i64 d a b) s

/-! ### Full/empty words (R217, R218) -/

/-- The scratchpad offset of a full/empty word: RANGE 7, MISALIGN, PRIV. -/
def wordOff (a : Word) : M Nat := do
  trapIf (!isScratch a.toNat) { code := RANGE, tinfo := 7, taddr := a }
  trapIf (a.toNat % 8 != 0) (alignCond a 8)
  checkOwner (a.toNat - Config.scratchBase) 8
  return a.toNat - Config.scratchBase

/-- Whether no other strand waits in queue n, or this one is its first (R218). -/
def State.myTurn (s : State) (n : Nat) : Bool := s.myTile.waiter n == none || s.myTile.waiter n == some s.me.key

/-- An `ldf` or `ldfe` that returns is an acquire at the scope the word records (R138). -/
def ldfGot (d : GReg) (la : La) (a x : Word) (c bad : Bool) : M Unit := do
  if c then modify fun s => s.acquire .c
  if bad then dataErrLater a else modify fun s => s.setGLa d la x

/-- R217, R218: the word as it stands when it is full, or the one that released the strand. -/
def ldFull (d a : GReg) (la : La) (take : Bool) : M Unit := do
  packetTrap
  let s ← get
  let off ← wordOff (s.g a)
  checked
  match s.me.ans with
  | some (.got x c bad) => ldfGot d la (s.g a) x c bad
  | _ =>
    let t := s.myTile
    waitIf (!t.isFull off || (take && !s.myTurn (3 * (off / 8) + 1))) (.full off take)
    ldfGot d la (s.g a) (word (t.scrRead off 8)) (t.scopeC.contains (off / 8)) (t.scrBad off 8)
    modify fun s => s.leaveQueues s.me.key
    if take then modify fun s => (s.modMyTile fun t => t.setEmpty off).serve s.here off 8

/-- R217. -/
def execLdf (d a : GReg) (la : La) (s : State) : Host.Outcome State Fault Refusal :=
  run (ldFull d a la false) s

/-- R217, R218. -/
def execLdfe (d a : GReg) (la : La) (s : State) : Host.Outcome State Fault Refusal :=
  run (ldFull d a la true) s

/-- The write of `stf` and `stef`: the word is full, its recorded scope .t (R138). -/
def State.fillWord (s : State) (off : Nat) (x : Word) : State :=
  (s.modMyTile fun t => (t.scrWrite off 8 x.toNat).setFull off false).serve s.here off 8

/-- R217. -/
def execStf (d a : GReg) (s : State) : Host.Outcome State Fault Refusal :=
  run (do
    let off ← wordOff (s.g a)
    checked
    modify fun t => t.fillWord off (s.g d)) s

/-- R217, R218. -/
def execStef (d a : GReg) (s : State) : Host.Outcome State Fault Refusal :=
  run (do
    packetTrap
    let off ← wordOff (s.g a)
    checked
    if s.me.ans ≠ some .accepted then
      waitIf (s.myTile.isFull off || !s.myTurn (3 * (off / 8) + 2)) (.empty off (s.g d))
      modify fun t => (t.leaveQueues t.me.key).fillWord off (s.g d)) s

/-- R217. -/
def execFempty (a : GReg) (s : State) : Host.Outcome State Fault Refusal :=
  run (do
    let off ← wordOff (s.g a)
    modify fun s => (s.modMyTile fun t => t.setEmpty off).serve s.here off 8) s

/-- R217. -/
def execFtest (d a : GReg) (s : State) : Host.Outcome State Fault Refusal :=
  run (do
    let off ← wordOff (s.g a)
    modify fun t => t.setG d (boolWord (s.myTile.isFull off))) s

/-! ### Ranges of pages -/

/-- A part of a range that lies in one page, or in the scratch window, which is not translated. -/
structure PagePart where
  va : Word
  len : Nat
  x : Xl
  scr : Bool := false
  deriving DecidableEq, Repr

/-- Every page of a range, translated in ascending order; `plain` tests its memory type too, as an access does (R91, R210). -/
def rangePages (w : Who) (plain : Bool) : Nat → Word → Nat → M (List PagePart)
  | 0, _, _ => pure []
  | fuel + 1, a, n =>
    if n = 0 then pure [] else do
      trapIf (!canon a) { code := ADDRFORM, taddr := a }
      if isScratch a.toNat then
        let k := min n (Config.scratchBase + Config.scratchSize - a.toNat)
        return { va := a, len := k, x := { pa := 0, mt := 0, size := 0, leaf := 0 }, scr := true } :: (← rangePages w plain fuel (a + word k) (n - k))
      else
        let x ← xlate w a
        trapIf ((← get).noWindow x.pa) (windowCond w a)
        trapIf (plain && x.mt == 3) (typeCond a)
        let k := min n (2 ^ sizeShift x.size - va57 a % 2 ^ sizeShift x.size)
        return { va := a, len := k, x := x } :: (← rangePages w plain fuel (a + word k) (n - k))

def allPages (w : Who) (a : Word) (n : Nat) (plain : Bool := false) : M (List PagePart) := rangePages w plain (n / 65536 + 3) a n

/-- Whether a line lies, in part, in one of the parts. -/
def inParts (l : List PagePart) (line : Nat) : Bool := l.any fun p => decide (p.x.pa < line * 128 + 128) && decide (line * 128 < p.x.pa + p.len)

/-! ### Stash maps (R105, R219, R220) -/

def stashCond (why : Nat) (a : Word) : Cond := { code := STASH, tinfo := word why, taddr := a }

/-- Two extents overlap. -/
def overlap (a n b m : Nat) : Bool := decide (a < b + m) && decide (b < a + n)

/-- The tile's L1 bytes of some parts are written back and leave the L1, for one space. -/
def State.l1Purge (s : State) (tile : Nat) (asid : BitVec 12) (l : List PagePart) : State :=
  let mine (e : CLine) : Bool := e.asid = asid && inParts l e.addr
  let s1 := ((s.tile tile).l1.filter mine).foldl (fun s e => s.writeBack tile e) s
  s1.modTile tile fun t => { t with l1 := t.l1.filter fun e => !mine e }

/-- R219, with the conditions in R390's order. The map takes the lowest free entry number, which the manual leaves open, and a range that meets
the scratch window takes STASH 4, as for a page of the wrong type (DESIGN CHOICE, log 66). -/
def execMap (d a b : GReg) (s : State) : Host.Outcome State Fault Refusal :=
  run (do
    let base := s.g a
    let off := bits (s.g b) 31 0
    let len := bits (s.g b) 63 32
    let asid := s.me.key.asid
    trapIf (base.toNat % 128 != 0 || off % 128 != 0 || len % 128 != 0) (alignCond base 128)
    trapIf (len == 0 || Config.scratchSize < len || Config.scratchSize < off + len) (stashCond 6 base)
    let l ← allPages s.whoStore base len
    let maps := s.myTile.stashes
    trapIf (8 ≤ maps.length) (stashCond 1 base)
    trapIf (maps.any fun e => e.2.asid = asid && overlap (va57 base) len (va57 e.2.base) e.2.len) (stashCond 2 base)
    trapIf ((maps.any fun e => overlap off len e.2.off e.2.len) || (isCobbler s.here && Config.cobblerBase < off + len)) (stashCond 3 base)
    trapIf (l.any fun p => p.scr || p.x.mt != 0) (stashCond 4 base)
    checkOwner off len
    waitIf (s.myTile.l1.any fun e => e.asid = asid && inParts l e.addr && s.stuck s.here e) .unit
    let n := ((List.range 8).find? fun n => (look n maps).isNone).getD 0
    modify fun s => (s.l1Purge s.here asid l).modMyTile fun t =>
      { t with
        stashes := put n { asid := asid, base := base, off := off, len := len } t.stashes
        slines := t.slines.filter fun e => !(off ≤ e.addr * 128 && e.addr * 128 < off + len) }
    modify fun s => s.setG d (word n)) s

/-- The map of the strand's space with a VA base. -/
def theMap (a : Word) : M (Nat × Stash) := do
  let s ← get
  match s.myTile.stashes.find? fun e => e.2.asid = s.me.key.asid && e.2.base = a with
  | some e => pure e
  | none => throw (.cond (stashCond 5 a))

/-- R220. -/
def execUnmap (a : GReg) (s : State) : Host.Outcome State Fault Refusal :=
  run (do
    let (n, m) ← theMap (s.g a)
    stashOut s.whoStore m false
    modify fun s => s.modMyTile fun t =>
      { t with stashes := del n t.stashes, slines := t.slines.filter fun e => !(m.off ≤ e.addr * 128 && e.addr * 128 < m.off + m.len) }) s

/-- R220. -/
def execSflush (a : GReg) (s : State) : Host.Outcome State Fault Refusal :=
  run (do
    let (_, m) ← theMap (s.g a)
    stashOut s.whoStore m) s

/-! ### Ordered loads and stores (R222) -/

/-- Whether `n` bytes at `a` hold a COUNT as a decrement wrote it (R59). -/
def State.sawCount (s : State) (a : Word) (n x : Nat) : Bool :=
  if s.counts.isEmpty || isScratch a.toNat then false else
  match translate s { s.whoLoad with charge := none } (va57 a) with
  | .ok (t, _) => s.counts.any fun e => e.1 = t.pa && e.2.toNat % 256 ^ n = x
  | .error _ => false

/-- R222: the values come from the homes, so the acquire's invalidation goes before the read. A load that sees a decremented COUNT acquires at
.c, whatever its scope (R59). -/
def execLdAcq (d a : GReg) (ty : LdTy) (sc : Scope) (s : State) : Host.Outcome State Fault Refusal :=
  run (do
    trapIf ((s.g a).toNat % ldBytes ty != 0) (alignCond (s.g a) (ldBytes ty))
    match ← orLater (check s.whoLoad (s.g a) (ldBytes ty)) with
    | none => pure ()
    | some _ =>
      modify fun s => s.acquire sc
      loadInto (s.g a) (ldBytes ty) 1 fun x t =>
        (if t.sawCount (s.g a) (ldBytes ty) x then t.acquire .c else t).setG d (ldExtend ty x)) s

/-- R222: the write-backs of a .c or .s release, the store, and its own way to the home. A store that is on its way to another package is not
made again while its acknowledgement is awaited. -/
def execStRel (d a : GReg) (ty : StTy) (sc : Scope) (s : State) : Host.Outcome State Fault Refusal :=
  run (do
    if s.me.did = 0 then
      trapIf ((s.g a).toNat % stBytes ty != 0) (alignCond (s.g a) (stBytes ty))
      let l ← toBegin (do return [← check s.whoStore (s.g a) (stBytes ty)])
      release sc
      memStore s.whoStore ((l.head?).getD []) (s.g d).toNat
      modify fun (s : State) => { s with me := { s.me with did := 1 } }
    release sc) s

/-! ### Atomics (R135, R136, R223, R224) -/

def semAcquires : Sem → Bool
  | .acq | .ar => true
  | _ => false
def semReleases : Sem → Bool
  | .rel | .ar => true
  | _ => false

def semNum : Sem → Nat
  | .none => 0 | .acq => 1 | .rel => 2 | .ar => 3
def scopeNum : Scope → Nat
  | .t => 0 | .c => 1 | .s => 2

/-- One L1 line goes home and leaves the L1: the tile's own writes come before an access at the home, and what the tile reads
later is no older than it (R130). -/
def State.l1Drop (s : State) (tile line : Nat) (asid : BitVec 12) : State :=
  match (s.tile tile).l1Find line asid with
  | none => s
  | some e => (s.writeBack tile e).modTile tile fun t => { t with l1 := t.l1.filter fun y => !(y.addr = line && y.asid = asid) }

/-- One L1 line goes home and leaves the L1, for the strand being stepped: until it is home the access waits (R130). -/
def l1Leave (line : Nat) : M Unit := do
  let s ← get
  match s.myTile.l1Find line s.me.key.asid with
  | none => pure ()
  | some e =>
    let m ← (if e.dirty = 0 then pure 0 else lineHomeNow s.here e 3)
    modify fun s => s.modMyTile fun t => t.l1Map line s.me.key.asid fun e => e.wrote m
    waitIf (e.dirty &&& ~~~ m != 0) .unit
    modify fun s => s.modMyTile fun t => { t with l1 := t.l1.filter fun y => !(y.addr = line && y.asid = s.me.key.asid) }

/-- Likewise a stash line: its dirty bytes go home and it is no longer valid. -/
def stashLeave (a : Word) (off pa : Nat) : M Unit := do
  let s ← get
  let t := s.myTile
  let e := t.slineFind (off / 128)
  let data := BitVec.ofNat 1024 (t.scrRead (off / 128 * 128) 128)
  let m ← (if e.dirty = 0 then pure 0
    else lineHomeNow s.here { e with addr := pa / 128, asid := s.me.key.asid, data := data, bad := t.badWords (off / 128 * 128), va := a } 2)
  modify fun s => s.modMyTile fun t => t.slinePut { e with dirty := e.dirty &&& ~~~ m }
  waitIf (e.dirty &&& ~~~ m != 0) .unit
  modify fun s => s.modMyTile fun t => { t with slines := t.slines.filter fun y => y.addr ≠ off / 128 }

/-- What an atomic sends to another package: its OP field (R328) and its operands. -/
structure AmoReq where
  op : Nat
  sc : Nat
  sem : Nat
  data : List Byte

/-- An atomic at the home slice of a physical address, whose unit performs it when the request arrives (R136, R424). -/
def amoHome (a : Word) (pa size : Nat) (q : AmoReq) : M Nat := do
  match ← asked (.amo pa size q.op q.data) with
  | some (_, .old old) => return old
  | _ =>
    dataErrNow a
    return 0

/-- An atomic at the tile: in its L1 or stash (R136 .t). -/
def amoTile (a : Word) (l r : List Piece) (f : Nat → Option Nat) : M Nat := do
  let s ← get
  let x ← memLoad s.whoLoad r
  if x.bad then dataErrNow a
  match f x.val with
  | some new => memStore s.whoStore l new
  | none => pure ()
  return x.val

/-- An atomic at another package. -/
def amoRemote (a : Word) (pa size : Nat) (q : AmoReq) : M Nat := do
  let x ← remote (← get).whoStore a 2 pa size q.op q.sc q.sem q.data false
  if x.bad then dataErrNow a
  return x.val

/-- Where an access of one piece lies. -/
def placeOf (l : List Piece) : Option Place := (l.head?).map (·.place)

/-- The checks of an atomic, as a store: the pieces that it writes, and those that it reads where it is performed, which for a stash map at .c or
.s is the home (R136). -/
def amoChecks (a : Word) (size : Nat) (sc : Scope) : M (List (List Piece)) := do
  let w := (← get).whoStore
  let l ← check w a size
  noOrdered l
  match placeOf l with
  | some (.stash _ _) =>
    if sc = .t then return [l, ← check (← get).whoLoad a size]
    else
      let x ← xlate w a
      trapIf ((← get).noWindow x.pa) (windowCond w a)
      trapIf (x.mt == 3) (typeCond a)
      return [l, [{ va := a, len := size, place := .mem x }]]
  | _ => return [l, l]

/-- One atomic at the place of R136: its old value. -/
def amoAt (l r : List Piece) (a : Word) (size : Nat) (sc : Scope) (q : AmoReq) (f : Nat → Option Nat) : M Nat := do
  let there (x : Xl) : M Nat := do
    match (← get).win x.pa with
    | .remote _ => amoRemote a x.pa size q
    | _ => amoHome a x.pa size q
  match placeOf l, placeOf r with
  | some (.stash off _), some (.mem x) =>
    stashLeave a off x.pa
    there x
  | some (.mem x), _ =>
    if sc = .t && x.mt != 1 then amoTile a l r f
    else
      l1Leave (x.pa / 128)
      there x
  | _, _ => amoTile a l r f

/-- An atomic of `size` bytes: checks as a store, release, the operation, acquire, and `put` of the old value. -/
def atomic (a : Word) (size : Nat) (sem : Sem) (sc : Scope) (op : Nat) (data : List Byte) (f : Nat → Option Nat) (put : Nat → State → State) : M Unit := do
  trapIf (a.toNat % size != 0) (alignCond a size)
  modify fun (s : State) => { s with part := none }
  let ls ← toBegin (amoChecks a size sc)
  if semReleases sem then release sc
  match ls with
  | [l, r] =>
    let old ← amoAt l r a size sc { op := op, sc := scopeNum sc, sem := semNum sem, data := data } f
    if semAcquires sem then modify fun s => s.acquire sc
    modify (put old)
  | _ => pure ()

/-- The OP field of R328: major, MEMO op and ty. -/
def memoOp (major op : Nat) (ty : AmoTy) : Nat :=
  major * 64 + op * 8 + (match ty with | .w32 => 4 | .w64 => 6 | .w128 => 7)

/-- An integer atomic (R223): `f` on the width, old value and operand; `zext` for the unsigned ones. -/
def amoInt (op : Nat) (zext : Bool) (f : Nat → Nat → Nat → Nat) (d a b : GReg) (ty : AmoTy) (sem : Sem) (sc : Scope) : M Unit := do
  let s ← get
  let n := (amoBytes ty)
  let y := (s.g b).toNat % 256 ^ n
  atomic (s.g a) n sem sc (memoOp 0 op ty) (natBytes n y) (fun old => some (f (8 * n) old y % 256 ^ n))
    fun old s => s.setG d (if zext then word old else sext (8 * n) old)

/-- R223. -/
def execAmoadd (d a b : GReg) (ty : AmoTy) (sem : Sem) (sc : Scope) (s : State) : Host.Outcome State Fault Refusal :=
  run (amoInt 0 false (fun _ x y => x + y) d a b ty sem sc) s

/-- R223. -/
def execAmoand (d a b : GReg) (ty : AmoTy) (sem : Sem) (sc : Scope) (s : State) : Host.Outcome State Fault Refusal :=
  run (amoInt 1 false (fun _ x y => x &&& y) d a b ty sem sc) s

/-- R223. -/
def execAmoor (d a b : GReg) (ty : AmoTy) (sem : Sem) (sc : Scope) (s : State) : Host.Outcome State Fault Refusal :=
  run (amoInt 2 false (fun _ x y => x ||| y) d a b ty sem sc) s

/-- R223. -/
def execAmoxor (d a b : GReg) (ty : AmoTy) (sem : Sem) (sc : Scope) (s : State) : Host.Outcome State Fault Refusal :=
  run (amoInt 3 false (fun _ x y => x ^^^ y) d a b ty sem sc) s

/-- R223. -/
def execAmomax (d a b : GReg) (ty : AmoTy) (sem : Sem) (sc : Scope) (s : State) : Host.Outcome State Fault Refusal :=
  run (amoInt 4 false (fun w x y => if sint w x < sint w y then y else x) d a b ty sem sc) s

/-- R223. -/
def execAmomin (d a b : GReg) (ty : AmoTy) (sem : Sem) (sc : Scope) (s : State) : Host.Outcome State Fault Refusal :=
  run (amoInt 5 false (fun w x y => if sint w y < sint w x then y else x) d a b ty sem sc) s

/-- R223. -/
def execAmomaxu (d a b : GReg) (ty : AmoTy) (sem : Sem) (sc : Scope) (s : State) : Host.Outcome State Fault Refusal :=
  run (amoInt 6 true (fun _ x y => Nat.max x y) d a b ty sem sc) s

/-- R223. -/
def execAmominu (d a b : GReg) (ty : AmoTy) (sem : Sem) (sc : Scope) (s : State) : Host.Outcome State Fault Refusal :=
  run (amoInt 7 true (fun _ x y => Nat.min x y) d a b ty sem sc) s

/-- The operand that a register, or for ty 7 an even register and the next, holds (R155, R224). -/
def amoReg (s : State) (r : GReg) (ty : AmoTy) : Nat :=
  match ty with
  | .w32 => (s.g r).toNat % 2 ^ 32
  | .w64 => (s.g r).toNat
  | .w128 => (s.g r).toNat + 2 ^ 64 * (s.g (r + 1)).toNat

/-- The old value as `amoswap` and `amocas` write it. -/
def State.putAmo (s : State) (d : GReg) (ty : AmoTy) (old : Nat) : State :=
  match ty with
  | .w32 => s.setG d (sext 32 old)
  | .w64 => s.setG d (word old)
  | .w128 => (s.setG d (word old)).setG (d + 1) (word (old / 2 ^ 64))

/-- R224. -/
def execAmoswap (d a b : GReg) (ty : AmoTy) (sem : Sem) (sc : Scope) (s : State) : Host.Outcome State Fault Refusal :=
  run (atomic (s.g a) (amoBytes ty) sem sc (memoOp 1 0 ty) (natBytes (amoBytes ty) (amoReg s b ty)) (fun _ => some (amoReg s b ty))
    fun old s => s.putAmo d ty old) s

/-- R224: a compare that fails writes nothing. -/
def execAmocas (d a b : GReg) (ty : AmoTy) (sem : Sem) (sc : Scope) (s : State) : Host.Outcome State Fault Refusal :=
  run (atomic (s.g a) (amoBytes ty) sem sc (memoOp 1 1 ty) (natBytes (amoBytes ty) (amoReg s b ty) ++ natBytes (amoBytes ty) (amoReg s d ty))
    (fun old => if old = amoReg s d ty then some (amoReg s b ty) else none) fun old s => s.putAmo d ty old) s

/-- An f32 atomic (R224). -/
def amoF32 (op : Nat) (f : Nat → Nat → Nat) (d a b : GReg) (sem : Sem) (sc : Scope) : M Unit := do
  let s ← get
  let y := (s.g b).toNat % 2 ^ 32
  atomic (s.g a) 4 sem sc (memoOp 1 op .w32) (natBytes 4 y) (fun old => some (f old y)) fun old s => s.setG d (word old)

/-- R224. -/
def execAmoaddF32 (d a b : GReg) (sem : Sem) (sc : Scope) (s : State) : Host.Outcome State Fault Refusal :=
  run (amoF32 2 f32Add d a b sem sc) s

/-- R224. -/
def execAmaxF32 (d a b : GReg) (sem : Sem) (sc : Scope) (s : State) : Host.Outcome State Fault Refusal :=
  run (amoF32 3 fmtF32.maxCode' d a b sem sc) s

/-- R224. -/
def execAminF32 (d a b : GReg) (sem : Sem) (sc : Scope) (s : State) : Host.Outcome State Fault Refusal :=
  run (amoF32 4 fmtF32.minCode d a b sem sc) s

/-! ### Return-free near reductions (R225, R141) -/

/-- `red.n` requests of the tile that are not yet performed. -/
def State.rednInFlight (s : State) : Nat :=
  (s.msgs.filter fun m => m.src = s.here && match m.body with | .redn .. => true | _ => false).length +
  (s.packets.filter fun p => bits p.hdr 127 124 = 3 && bits p.hdr 95 86 = s.here).length

/-- The reduction leaves for its home; the strand continues (R225). -/
def reduceN (op : Nat) (a b : GReg) (ty : AmoTy) : M Unit := do
  let s ← get
  let n := (amoBytes ty)
  let va := s.g a
  let v := (s.g b).toNat % 256 ^ n
  trapIf (va.toNat % n != 0) (alignCond va n)
  trapIf (isScratch va.toNat) { code := RANGE, tinfo := 3, taddr := va }
  trapIf (!canon va) { code := ADDRFORM, taddr := va }
  let x ← xlate s.whoStore va
  let s ← get
  trapIf (s.noWindow x.pa) (windowCond s.whoStore va)
  trapIf (s.win x.pa == .host || x.mt == 2 || x.mt == 3) { code := RANGE, tinfo := 3, taddr := va }
  waitIf (256 ≤ s.rednInFlight || s.crowded .req (1025 + slice x.pa)) .unit
  match s.win x.pa with
  | .remote _ =>
    let _ ← remote s.whoStore va 3 x.pa n (memoOp 2 op ty) 0 0 (natBytes n v) true
  | _ => set (s.send .req s.here 1024 (.redn s.me.key x.pa op (n == 8) (word v)))
  modify fun (s : State) => { s with me := { s.me with redn := s.me.redn + 1 } }

/-- R225. -/
def execRedNF32 (a b : GReg) (s : State) : Host.Outcome State Fault Refusal :=
  run (reduceN 0 a b .w32) s

/-- R225. -/
def execRedNAdd (a b : GReg) (ty : AmoTy) (s : State) : Host.Outcome State Fault Refusal :=
  run (reduceN 1 a b ty) s

/-- R225. -/
def execRedNMaxF32 (a b : GReg) (s : State) : Host.Outcome State Fault Refusal :=
  run (reduceN 2 a b .w32) s

/-! ### Fences (R226) -/

/-- R226. -/
def execFenceRelT (s : State) : Host.Outcome State Fault Refusal :=
  run (release .t) s

/-- R226. -/
def execFenceRelC (s : State) : Host.Outcome State Fault Refusal :=
  run (release .c) s

/-- R226. -/
def execFenceRelS (s : State) : Host.Outcome State Fault Refusal :=
  run (release .s) s

/-- R226. -/
def execFenceAcqT (s : State) : Host.Outcome State Fault Refusal :=
  run (modify fun s => s.acquire .t) s

/-- R226. -/
def execFenceAcqC (s : State) : Host.Outcome State Fault Refusal :=
  run (modify fun s => s.acquire .c) s

/-- R226. -/
def execFenceAcqS (s : State) : Host.Outcome State Fault Refusal :=
  run (modify fun s => s.acquire .s) s

/-- R226. -/
def execFenceArT (s : State) : Host.Outcome State Fault Refusal :=
  run (do
    release .t
    modify fun s => s.acquire .t) s

/-- R226. -/
def execFenceArC (s : State) : Host.Outcome State Fault Refusal :=
  run (do
    release .c
    modify fun s => s.acquire .c) s

/-- R226. -/
def execFenceArS (s : State) : Host.Outcome State Fault Refusal :=
  run (do
    release .s
    modify fun s => s.acquire .s) s

/-- R226 and R132: one step of the machine is the point where the fence takes its place in the order of sc fences. -/
def execFenceScT (s : State) : Host.Outcome State Fault Refusal :=
  run (do
    release .t
    modify fun s => s.acquire .t) s

/-- R226 and R132: one step of the machine is the point where the fence takes its place in the order of sc fences. -/
def execFenceScC (s : State) : Host.Outcome State Fault Refusal :=
  run (do
    release .c
    modify fun s => s.acquire .c) s

/-- R226 and R132: one step of the machine is the point where the fence takes its place in the order of sc fences. -/
def execFenceScS (s : State) : Host.Outcome State Fault Refusal :=
  run (do
    release .s
    modify fun s => s.acquire .s) s

/-- R141, R226: waits until every earlier `red.n` of the strand has been performed. -/
def execFenceN (s : State) : Host.Outcome State Fault Refusal :=
  run (waitIf (s.me.redn != 0) .unit) s

/-- R161, R226: every line of the tile's instruction cache is invalidated; no pair is held fetched ahead. -/
def execFenceI (s : State) : Host.Outcome State Fault Refusal :=
  done (s.modMyTile fun t => { t with icache := [] })

/-! ### Ranged near events (R140, R227) -/

def rangeCond (why : Nat) (a : Word) : Cond := { code := RANGE, tinfo := word why, taddr := a }

/-- The parts of a near range: near-window pages of MT 0 or 1, all of one stack (R227, R247). -/
def nearCheck (l : List PagePart) : M Unit := do
  let s ← get
  let stackOf (p : PagePart) : Option Nat := if p.scr then none else match s.win p.x.pa with
    | .near st _ => if p.x.mt ≤ 1 then some st else none
    | _ => none
  match l.find? fun p => (stackOf p).isNone with
  | some p => throw (.cond (rangeCond 3 p.va))
  | none => pure ()
  match l with
  | [] => pure ()
  | p :: r =>
    match r.find? fun q => stackOf q ≠ stackOf p with
    | some q => throw (.cond (rangeCond 4 q.va))
    | none => pure ()

def nearPages (w : Who) (a : Word) (n : Nat) : M (List PagePart) := do
  trapIf (a.toNat % 64 != 0) (alignCond a 64)
  trapIf (n % 64 != 0) (alignCond (word n) 64)
  trapIf (n == 0 || 2 ^ 32 < n) (rangeCond 1 a)
  let l ← allPages w a n
  nearCheck l
  return l

/-- The home slices write back their dirty lines of the parts, and drop them unless `keep` (R227). -/
def State.homesClean (s : State) (l : List PagePart) (keep : Bool) : State :=
  ((s.l2.map (·.addr)).filter (inParts l)).foldl (fun s n => s.homeClean n keep) s

/-- The stash lines of a space's maps that hold bytes of a VA range. -/
def Tile.stashIn (t : Tile) (asid : BitVec 12) (a : Word) (n : Nat) : List (Stash × Nat) :=
  (t.stashes.map (·.2)).flatMap fun m =>
    if m.asid = asid then
      ((List.range (m.len / 128)).filter fun i => overlap (va57 m.base + 128 * i) 128 (va57 a) n).map fun i => (m, m.off / 128 + i)
    else []

def stashParts (w : Who) : List (Stash × Nat) → M Unit
  | [] => pure ()
  | (m, n) :: r => do stashLineOut w m n; stashParts w r

/-- A home's write-back to a clamped bank waits (R142): a stall. -/
def clampStall (l : List PagePart) : M Unit := do
  let s ← get
  waitIf (s.l2.any fun e => e.dirty != 0 && inParts l e.addr && s.clamped (e.addr * 128)) .unit

/-- The tile's dirty L1 and stash bytes of a range go home, then the homes write back theirs (R140). -/
def nearRelease (a : Word) (n : Nat) (l : List PagePart) : M Unit := do
  let s ← get
  stashParts s.whoStore (s.myTile.stashIn s.me.key.asid a n)
  l1LinesOut s.here ((← get).myTile.l1.filter fun e => inParts l e.addr && e.dirty != 0)
  clampStall l
  modify fun s => s.homesClean l true

/-- R227. -/
def execFenceRelN (a b : GReg) (s : State) : Host.Outcome State Fault Refusal :=
  run (do
    let l ← nearPages s.whoStore (s.g a) (s.g b).toNat
    nearRelease (s.g a) (s.g b).toNat l) s

/-- R227: dirty bytes stay dirty in place. -/
def execFenceAcqN (a b : GReg) (s : State) : Host.Outcome State Fault Refusal :=
  run (do
    let l ← nearPages s.whoLoad (s.g a) (s.g b).toNat
    clampStall l
    modify fun s =>
      let lines := (s.myTile.stashIn s.me.key.asid (s.g a) (s.g b).toNat).map (·.2)
      (s.homesClean l false).modMyTile fun t =>
        { t with
          l1 := (t.l1.map fun e => if inParts l e.addr then { e with valid := false } else e).filter fun e => e.valid || e.dirty != 0
          slines := (t.slines.map fun e => if lines.contains e.addr then { e with valid := false } else e).filter fun e => e.valid || e.dirty != 0 }) s

/-! ### Loads whose data is outstanding (R142, R152, R211) -/

/-- The address and bytes of a plain load or store of one range. -/
def State.range (s : State) : Instr → Option (Word × Nat)
  | .ld _ a dsp ty _ => some (s.g a + disp dsp (ldBytes ty), ldBytes ty)
  | .st _ a dsp ty => some (s.g a + disp dsp (stBytes ty), stBytes ty)
  | .vld _ a dsp _ _ | .vst _ a dsp _ => some (s.g a + disp dsp 128, 128)
  | .vldp _ a tag _ | .vstp _ a tag => some (bitVA (s.g a), packedBytes (s.g a) (Tag.memWidth tag) (Tag.lanes tag))
  | _ => none

/-- The destination and the window of a load with a lookahead count. -/
def lookahead : Instr → Option (Dst × La)
  | .ld d _ _ _ la => some (.g d, la)
  | .vld d _ _ _ la | .vldp d _ _ la | .vgath32 d _ _ la | .vgath64 d _ _ la => some (.v d, la)
  | _ => none

/-- The pieces of a load, checked. -/
def loadChecks (i : Instr) : M (List (Word × List Piece)) := do
  let s ← get
  match i with
  | .vgath32 _ a b _ => checkLanes s.whoLoad 4 ((List.range 32).map (laneVA s a b 4))
  | .vgath64 _ a b _ => checkLanes s.whoLoad 8 ((List.range 16).map (laneVA s a b 8))
  | _ =>
    match s.range i with
    | some (a, n) => return [(a, ← check s.whoLoad a n)]
    | none => pure []

/-- What a load writes from the bytes of its pieces, as its own meaning does. -/
def Late.value (l : Late) (xs : List Nat) : Line × Tag :=
  let x := (xs.head?).getD 0
  match l.i with
  | .ld _ _ _ ty _ => ((ldExtend ty x).setWidth 1024, .raw)
  | .vld _ _ _ tag _ => (BitVec.ofNat 1024 x, tag)
  | .vldp _ _ tag _ => (packedLanes tag (x / 2 ^ l.bit), tag)
  | .vgath32 .. => (ofLanes 32 xs, .n32)
  | .vgath64 .. => (ofLanes 64 xs, .n64)
  | _ => (0, .raw)

/-- Whether a load of a physical address can only end in data: it lies in memory of this package, or in a window that every package has (R90). -/
def State.plainAt (s : State) (pa : Nat) : Bool :=
  match s.win pa with
  | .reg _ | .none => false
  | .remote _ => match s.offsetWin (pa % 2 ^ Config.pkgShift) with
    | .inter | .near .. => true
    | _ => false
  | _ => true

/-- Whether the access of a piece can only end in data; a stash line that has the bytes needs no more. -/
def State.plainPiece (s : State) (p : Piece) : Bool :=
  match p.place with
  | .mem x | .stash _ (some x) => s.plainAt x.pa
  | _ => true

/-- A load that waits, after its checks, for another package, a clamped bank, a request on its way or a broken link is outstanding: its strand
goes on (R152). One whose pieces are performed one at a time stays at its pair, and so does one that the far package may still refuse (R90), since
a load's checks are at the load itself; `s` is the state in which its slot begins, `s1` the one in which it waits. DESIGN CHOICE (log 83). -/
def State.lateOf (s s1 : State) (i : Instr) (w : Wait) : Option Late :=
  match lookahead i with
  | none => none
  | some (dst, la) =>
    if s1.piecewise || !(w = .answer || w = .unit) then none
    else match loadChecks i s with
      | .ok l _ =>
        if l.any fun e => e.2.any fun p => !s.plainPiece p then none
        else
          let bit := match i with | .vldp _ a _ _ => (s.g a).toNat % 8 | _ => 0
          some { i := i, dst := dst, pieces := l, bit := bit, pc := s.me.pc, left := la.toNat, gone := decide (dst = .g 0) }
      | .error _ _ => none

/-- The strand goes on past a load that is outstanding. -/
def State.putLate (s1 : State) (l : Late) : State :=
  { s1 with
    ended := .ok
    me := { s1.me with
      wait := none
      held := s1.me.held.filter fun h => h.dst ≠ l.dst
      late := s1.me.late.map (·.writes l.dst) ++ [l] } }

/-- What an instruction's access touches: its ranges of bytes. -/
def State.ranges (s : State) : Instr → List (Word × Nat)
  | .ldAcq _ a ty _ => [(s.g a, ldBytes ty)]
  | .stRel _ a ty _ => [(s.g a, stBytes ty)]
  | .amoadd _ a _ ty _ _ | .amoand _ a _ ty _ _ | .amoor _ a _ ty _ _ | .amoxor _ a _ ty _ _ | .amomax _ a _ ty _ _ | .amomin _ a _ ty _ _
  | .amomaxu _ a _ ty _ _ | .amominu _ a _ ty _ _ | .amoswap _ a _ ty _ _ | .amocas _ a _ ty _ _ | .redNAdd a _ ty => [(s.g a, amoBytes ty)]
  | .amoaddF32 _ a _ _ _ | .amaxF32 _ a _ _ _ | .aminF32 _ a _ _ _ | .redNF32 a _ | .redNMaxF32 a _ => [(s.g a, 4)]
  | .vgath32 _ a b _ | .vscat32 _ a b => (List.range 32).map fun i => (laneVA s a b 4 i, 4)
  | .vgath64 _ a b _ | .vscat64 _ a b => (List.range 16).map fun i => (laneVA s a b 8 i, 8)
  | i => (s.range i).toList

/-- The lines of a piece: of memory, or of the scratchpad for a stash map. -/
def Piece.lines (p : Piece) : List Nat :=
  match p.place with
  | .scr _ => []
  | .stash off x => (2 ^ 64 + off / 128) :: (x.map fun x => x.pa / 128).toList
  | .mem x => [x.pa / 128]

/-- The lines that an instruction's access touches, as it now translates. -/
def State.linesOf (s : State) (i : Instr) : List Nat :=
  (s.ranges i).flatMap fun e => match check { s.whoLoad with charge := none } e.1 e.2 1 s with
    | .ok l _ => l.flatMap Piece.lines
    | .error _ _ => []

/-- An instruction that the strand's earlier loads must be performed before: a release (R125, R127), or a word set full, which releases at .t
(R138). -/
def ordersLoads : Instr → Bool
  | .stRel .. | .spawn _ | .depdec _ | .fpop .. | .fpush .. | .wlaunch .. | .acopy .. | .acopy2 .. | .eypostMsg0 .. | .eypostMsg1 .. | .psend ..
  | .hexport .. | .stf .. | .stef .. | .qsend .. | .bar _ | .bvote .. | .csum .. | .cmax .. | .cmin .. | .fenceRelN ..
  | .fenceRelT | .fenceRelC | .fenceRelS | .fenceArT | .fenceArC | .fenceArS | .fenceScT | .fenceScC | .fenceScS => true
  | .amoadd _ _ _ _ sem _ | .amoand _ _ _ _ sem _ | .amoor _ _ _ _ sem _ | .amoxor _ _ _ _ sem _ | .amomax _ _ _ _ sem _ | .amomin _ _ _ _ sem _
  | .amomaxu _ _ _ _ sem _ | .amominu _ _ _ _ sem _ | .amoswap _ _ _ _ sem _ | .amocas _ _ _ _ sem _
  | .amoaddF32 _ _ _ sem _ | .amaxF32 _ _ _ sem _ | .aminF32 _ _ _ sem _ => semReleases sem
  | _ => false

/-- An instruction that changes a stash map through which a load is outstanding, or lays one over it (R219, R220). -/
def State.movesMap (s : State) (i : Instr) : Bool :=
  let pieces := s.me.late.flatMap fun l => l.pieces.flatMap (·.2)
  match i with
  | .unmap a => match s.myTile.stashes.find? fun e => e.2.asid = s.me.key.asid && e.2.base = s.g a with
    | some (_, m) => pieces.any fun p => match p.place with
      | .stash off _ => decide (m.off ≤ off) && decide (off < m.off + m.len)
      | _ => false
    | none => false
  | .map _ a b => pieces.any fun p => overlap (va57 (s.g a)) (bits (s.g b) 63 32) (va57 p.va) p.len
  | _ => false

/-- Whether an instruction may issue while loads are outstanding: all may but one that orders them, one that touches a line of theirs, which
keeps accesses to one location in program order, and one that moves a stash map under them (DESIGN CHOICE, log 83). -/
def State.besides (s : State) (i : Instr) : Bool :=
  !ordersLoads i && !s.movesMap i &&
    !((s.linesOf i).any fun n => s.me.late.any fun l => l.pieces.any fun e => e.2.any fun p => p.lines.contains n)

/-- Whether a pair must wait for an outstanding load: a word after the load's window names its destination, or the pair orders accesses. -/
def State.awaits (s : State) (p : Pair) : Bool :=
  let past (n : Nat) (i : Instr) : Bool := s.me.late.any fun l => !l.gone && decide (l.left ≤ n) && Instr.touches i l.dst
  !s.me.late.isEmpty && match p with
  | .lone i => past 0 i || !s.besides i
  | .two c a => past 0 c || past 1 a || !s.besides c || !s.besides a

/-- A strand whose loads are outstanding keeps its slot until their data has returned. -/
def State.stay (s s1 : State) : State := if !s.me.late.isEmpty && s1.me.state ≠ 1 then s else s1

end Sys2Proof.Machine
end

