-- ==== Sys2Proof/Machine/Control.lean ====
section
/-!
DEFINITION. Control transfer and the end of a strand (R182–R187), special-register moves (R205), and what leaving the active
state does after a pair (R38, R39, R47).
-/

namespace Sys2Proof.Machine

/-! ### Branches and jumps (R182, R183) -/

/-- Where the strand continues after this pair. -/
def State.goTo (s : State) (a : Word) : State := { s with me := { s.me with npc := a } }

/-- A conditional branch: PC + 8 × off when it holds (R182). -/
def branch (taken : Bool) (off : Imm 12) (s : State) : State := if taken then s.goTo (s.me.pc + offBytes off) else s

/-- R182. -/
def execBeq (a b : GReg) (off : Imm 12) (s : State) : Host.Outcome State Fault Refusal :=
  done (branch (s.g a == s.g b) off s)

/-- R182. -/
def execBne (a b : GReg) (off : Imm 12) (s : State) : Host.Outcome State Fault Refusal :=
  done (branch (s.g a != s.g b) off s)

/-- R182. -/
def execBlt (a b : GReg) (off : Imm 12) (s : State) : Host.Outcome State Fault Refusal :=
  done (branch (decide ((s.g a).toInt < (s.g b).toInt)) off s)

/-- R182. -/
def execBge (a b : GReg) (off : Imm 12) (s : State) : Host.Outcome State Fault Refusal :=
  done (branch (decide ((s.g b).toInt ≤ (s.g a).toInt)) off s)

/-- R182. -/
def execBltu (a b : GReg) (off : Imm 12) (s : State) : Host.Outcome State Fault Refusal :=
  done (branch (decide (s.g a < s.g b)) off s)

/-- R182. -/
def execBgeu (a b : GReg) (off : Imm 12) (s : State) : Host.Outcome State Fault Refusal :=
  done (branch (decide (s.g b ≤ s.g a)) off s)

/-- R183. -/
def execJal (d : GReg) (off : Imm 20) (s : State) : Host.Outcome State Fault Refusal :=
  done ((s.setG d (s.me.pc + 8)).goTo (s.me.pc + offBytes off))

/-- R183: a misaligned target is the jump's own condition. -/
def execJr (a : GReg) (s : State) : Host.Outcome State Fault Refusal :=
  run (do
    trapIf ((s.g a).toNat % 8 != 0) (alignCond (s.g a) 8)
    modify fun t => t.goTo (s.g a)) s

/-- R183: ga is read before gd is written. -/
def execJalr (d a : GReg) (s : State) : Host.Outcome State Fault Refusal :=
  run (do
    trapIf ((s.g a).toNat % 8 != 0) (alignCond (s.g a) 8)
    modify fun t => (t.setG d (s.me.pc + 8)).goTo (s.g a)) s

/-- R184. -/
def execCnop (s : State) : Host.Outcome State Fault Refusal := done s

/-- R186. -/
def execTrap (code : BitVec 5) (s : State) : Host.Outcome State Fault Refusal :=
  run (throw (.cond { code := USERTRAP, tinfo := code.setWidth 64 })) s

/-- R187. -/
def execRft (s : State) : Host.Outcome State Fault Refusal :=
  run (do
    trapIf (!s.me.intrap) { code := ILLSTATE, tinfo := 0x101 }
    modify fun (s : State) => { s with me := s.me.leaveHandler }) s

/-! ### Leaving the active state -/

/-- R184: the strand becomes ready after the pair. -/
def execYield (s : State) : Host.Outcome State Fault Refusal :=
  run (do
    packetTrap
    modify fun (s : State) => { s with me := { s.me with leaving := some false } }) s

/-- R185, R47: waits for its engines, checks the counter cell, the pool descriptor and the frame, performs the release at .c of
R56; the end itself follows the A slot (`State.finishExit`). -/
def execExit (s : State) : Host.Outcome State Fault Refusal :=
  run (do
    packetTrap
    waitIf (s.me.pendingEngines != 0) (.handles s.me.pendingEngines)
    if s.me.home != 0 then
      let _ ← check s.whoStore s.me.home 64
    match s.me.pool with
    | some pool => do
      let _ ← check s.whoStore pool 64
      let _ ← check s.whoStore (frameVA s.me.key) 8
    | none => pure ()
    if s.me.home != 0 then release .c
    modify fun (s : State) => { s with me := { s.me with leaving := some true } }) s

/-- One line of a frame goes home, whole, and the L1's copy leaves (R47 step 4, R63 step 4). -/
def State.frameHome (s : State) (t : Strand) (n : Nat) : Except FrameErr State :=
  match frameXl s t (lineVA t.key n) 4 with
  | .error e => .error e
  | .ok (x, s) =>
    let tile := t.tile.toNat
    let line := x.pa / 128
    let s1 := s.modTile tile fun u => { u with l1 := u.l1.filter fun y => !(y.addr = line && y.asid = t.key.asid) }
    match s.win x.pa with
    | .remote pkg =>
      if s.tagsFree tile < 2 then .error (.wait s) else .ok (s1.postLine (tileKey t.key.asid) tile pkg line (BitVec.allOnes 128) (t.line n) (lineVA t.key n))
    | _ => if s.barred tile x.pa then .error (.wait s) else .ok (s1.homeMerge tile line (BitVec.allOnes 128) (t.line n))

/-- Lines that a frame's end writes: the dirty ones, and for a fresh frame every line (R35). -/
def Strand.toSave (t : Strand) : List Nat := (List.range 32).filter fun n => t.fresh || t.dirty.getLsbD n

/-- The lines of a prepared frame go home; one that fails is logged, and one whose page is being moved is waited for. -/
def State.saveLines (s : State) (t : Strand) : List Nat → Option State
  | [] => some s
  | n :: r =>
    match s.frameHome t n with
    | .ok s1 => s1.saveLines t r
    | .error (.wait _) => none
    | .error (.cond _ s1) => (s1.logDrop t.tile.toNat (lineVA t.key n)).saveLines t r

/-- The tile's L1 copies of a strand's frame, dirty since their lines left the register cache, go home and leave the L1, as far as they can now,
and whether all have (R47 step 4, R63 step 4). -/
def State.frameCopies (s : State) (t : Strand) : State × Bool :=
  let tile := t.tile.toNat
  match frameXl s t (frameVA t.key) 4 with
  | .error (.wait s1) => (s1, false)
  | .error (.cond _ s1) => (s1, true)
  | .ok (x, s0) =>
    ((s0.tile tile).l1.filter fun e => e.asid = t.key.asid && e.addr / 32 = x.pa / 4096).foldl (fun o e =>
      if !o.2 || o.1.stuck tile e then (o.1, false) else (o.1.l1Drop tile e.addr t.key.asid, true)) (s0, true)

/-- A prepared frame goes home: the lines that left the register cache earlier, and those that it holds. -/
def State.saveFrame (s : State) (t : Strand) : Option State :=
  match s.frameCopies t with
  | (s1, true) => s1.saveLines t t.toSave
  | (_, false) => none

/-- R47, from step 2 on: the decrement, the frame, the accumulators; then the strand is gone. None while a page is being moved. The charge
of a pool frame goes from the group that CGRP names at the exit (DESIGN CHOICE, log 67). -/
def State.endExit (s : State) (t0 : Strand) : Option State := do
  let t := t0.deactivate 4
  let tile := t.tile.toNat
  let s1 ← s.sendDecrement tile t.key.asid t.supv t.home
  let s2 ← t.pool.elim (s1.saveFrame t) (s1.poolBack t)
  return (s2.freeAccs tile t.key).forget tile t.key

/-! ### Special registers (R205, R206) -/

/-- R205. -/
def execMfsr (d : GReg) (sr : SReg) (s : State) : Host.Outcome State Fault Refusal :=
  done (s.setG d (s.readSr sr))

def sregNum : SReg → Nat
  | .stat => 0 | .tcause => 1 | .tinfo => 2 | .taddr => 3 | .trappc => 4 | .cyc => 5 | .wdogt => 6 | .dord => 7 | .tallow => 8
  | .cgrp => 9 | .prio => 10 | .ctablo => 11 | .ctabhi => 12 | .dom => 13 | .tvec => 14 | .lfsr => 15 | .tileid => 16 | .home => 17

/-- R205, R206; DOM blocks while a barrier generation is outstanding. R61 holds a tile to 32 (ASID, TEAM) pairs where its rule places records; a
write of DOM that makes a 33rd is let through (DESIGN CHOICE, log 85). -/
def execMtsr (sr : SReg) (d : GReg) (s : State) : Host.Outcome State Fault Refusal :=
  run (do
    if sr = .dom then
      packetTrap
      waitIf (match s.me.arrival with | some a => a.result.isNone | none => false) .barrier
    trapIf (srNeedsSupv sr && !s.me.supv) { code := PRIV, tinfo := word (sregNum sr) }
    modify fun t => t.writeSr sr (s.g d)) s

end Sys2Proof.Machine
end

