-- ==== Sys2Proof/Machine/Strands.lean ====
section
/-!
DEFINITION. Strand instructions: `spawn`, `depdec`, the frame pools, `waitw`, `ctabld` (R188–R192, R289) and the placement of
records (R48, R49, R58).
-/

namespace Sys2Proof.Machine

/-- A descriptor or record read by an instruction; uncorrectable data is a precise DATAERR (log 12). -/
def readDesc (a : Word) (n : Nat) : M Nat := do
  let l ← check (← get).whoLoad a n n
  let x ← memLoad (← get).whoLoad l
  if x.bad then dataErrNow a
  return x.val

/-- The home of a location that an instruction updates there: the access checks of R210, and this package's memory. -/
def homeOf (w : Who) (a : Word) (n align : Nat) : M Xl := do
  noOrdered (← check w a n align)
  trapIf (isScratch a.toNat) (rangeCond 3 a)
  let x ← xlate w a
  match (← get).win x.pa with
  | .remote _ => throw (.cond (rangeCond 3 a))
  | .none => throw (.cond (windowCond w a))
  | _ => return x

/-- A pool operation reaches the home of its descriptor, where it is performed once the home has answered; a DATAERR when the request has failed
for good (R425, log 86). -/
def atHome (a : Word) (pa : Nat) : M Unit := do
  if (← asked (.read pa 64)).isNone then dataErrNow a

/-! ### Placement (R48, R49) -/

/-- ENQ records in flight from a tile to a destination. -/
def Tile.credit (t : Tile) (dst : Nat) : Nat := (look dst t.credits).getD 0
def Tile.addCredit (t : Tile) (dst : Nat) : Tile := { t with credits := put dst (t.credit dst + 1) t.credits }
def Tile.backCredit (t : Tile) (dst : Nat) : Tile :=
  { t with credits := if t.credit dst ≤ 1 then del dst t.credits else put dst (t.credit dst - 1) t.credits }

/-- A record leaves for another tile in this tile's ENQ slot; `climb` sends it up the column from (x, y, 0). -/
def State.sendEnq (s : State) (src dst : Nat) (r : Rec) (climb : Bool) (cmd : Option CmdRef := none) : State :=
  (s.modTile src fun t => t.addCredit dst).send .enq src dst (.enq r climb cmd)

/-- The wait that placing a record meets, if any. -/
def placeWait (t : Tile) (r : Rec) (pa : Nat) : Option Wait :=
  match r.mode with
  | 1 => if 2 ≤ t.credit (r.place % 1024) then some (.credit (r.place % 1024)) else none
  | 2 => if 2 ≤ t.credit (slice pa) then some (.credit (slice pa)) else none
  | _ => if t.hasRoom then none else some .deque

/-- Placing a record by its MODE from a tile; `pa` is the affinity address's. -/
def State.placeRec (s : State) (tile : Nat) (r : Rec) (pa : Nat) : State :=
  match r.mode with
  | 1 => s.sendEnq tile (r.place % 1024) r false
  | 2 => s.sendEnq tile (slice pa) r true
  | _ => s.enqueue tile r

def placeHere (r : Rec) (pa : Nat) : M Unit := do
  let s ← get
  match placeWait s.myTile r pa with
  | some w => throw (.wait w)
  | none => set (s.placeRec s.here r pa)

/-! ### Deferral (R58) -/

def Tile.dfrBase (t : Tile) : Nat := bits t.dfr 51 16 * 2 ^ 16
def Tile.dfrEntries (t : Tile) : Nat := if t.dfrBase = 0 then 0 else 2 ^ (10 + bits t.dfr 3 0)
def Tile.freeDefer (t : Tile) : Option Nat :=
  (List.range (min t.dfrEntries (t.deferrals.length + 1))).find? fun i => !t.deferrals.contains i

def waitFull (a cell : Word) : Cond := { code := WAITFULL, tinfo := a, taddr := cell }

/-- The affinity VA of a record. -/
def Rec.affinity (r : Rec) : Word := sext 57 (r.place * 4096)
def Rec.depcVA (r : Rec) : Word := sext 57 (r.depc * 64)
def Rec.doneVA (r : Rec) : Word := sext 57 (r.doneCell * 64)

/-- Steps 1 and 2 of R58: an entry takes the record, and its number leaves for the counter's home. Without an area the answer is that of a
full cell, so that the release stands when WAITFULL is taken (R188, R384). -/
def deferRec (r : Rec) (cell : Nat) : M Unit := do
  let s ← get
  let t := s.myTile
  if t.dfrBase = 0 then
    set ({ s with me := { s.me with ans := some (.full 0) } } : State)
    throw (.wait .unit)
  match t.freeDefer with
  | none => throw (.wait .deferral)
  | some i =>
    let pa := t.dfrBase + 128 * i
    waitIf (s.crowded .req (1025 + slice cell) || s.barred s.here pa) .unit
    match s.areaFault pa with
    | some code =>
      let (s1, token) := s.sendItem s.here 11
        { code := BitVec.ofNat 16 code, asid := r.asid, pc := r.entry, addr := word pa, info := faultInfo 7 15, acc := faultInfo 7 15 }
      set (s1.modMyTile fun t => { t with items := t.items ++ [.defer s.me.key r token] })
      throw (.wait .deferral)
    | none =>
      let s1 := (s.homeWrite pa 128 r.entryBytes).modMyTile fun t => { t with deferrals := ins i t.deferrals }
      set ({ s1.send .req s.here 1024 (.waiter (.strand s.me.key) cell i) with me := { s.me with ans := some .asked } } : State)
      throw (.wait .answer)

def freeEntry (i : Nat) : M Unit := modify fun s => s.modMyTile fun t => { t with deferrals := t.deferrals.filter fun j => j ≠ i }

/-- Whether a deferral of the strand waits for a reply to its SPILL record. -/
def State.deferHeld (s : State) : Bool :=
  s.myTile.items.any fun i => match i with | .defer k _ _ => k = s.me.key | _ => false

/-- A record as the strand being stepped spawns it: with the strand's record context. -/
def State.recOf (s : State) (body : BitVec 512) : Rec :=
  { body := body, dom := s.me.dom, asid := s.me.key.asid, cgrp := s.me.cgrp, stamp := 0, hold := 0, spill := none }

/-- The record at a VA, read and checked once for each `spawn`, however long it waits (R188). -/
def readSpawn (va : Word) : M Spawning := do
  let s ← get
  match s.me.spawning with
  | some x => return x
  | none =>
    trapIf (va.toNat % 64 != 0) (alignCond va 64)
    let r := s.recOf (BitVec.ofNat 512 (← readDesc va 64))
    match badRec r.body with
    | some n => throw (.cond { code := BADREC, tinfo := word n, taddr := va })
    | none => pure ()
    let pa ← (do
      if r.mode = 2 then return (← xlate { s.whoLoad with supv := true, charge := none } r.affinity).pa
      else return 0)
    let cell ← (do
      if r.depc = 0 then return 0
      else return (← homeOf s.whoStore r.depcVA 64 64).pa)
    let x : Spawning := { body := r.body, pa := pa, cell := cell }
    modify fun (s : State) => { s with me := { s.me with spawning := some x } }
    return x

/-- R188. -/
def execSpawn (a : GReg) (s : State) : Host.Outcome State Fault Refusal :=
  run (do
    packetTrap
    let va := s.g a
    let x ← readSpawn va
    let r := s.recOf x.body
    if r.depc = 0 then
      checked
      release (if r.mode = 0 then .t else .c)
      placeHere r x.pa
    else
      match s.me.ans with
      | none | some .stale | some .refused | some (.got ..) | some (.home _) =>
        checked
        waitIf s.deferHeld .deferral
        release .c
        deferRec r x.cell
      | some .asked => throw (.wait .answer)
      | some .accepted => pure ()
      | some .failed => dataErrNow r.depcVA
      | some (.placeNow i) =>
        placeHere r x.pa
        freeEntry i
      | some (.full _) => throw (.cond (waitFull va r.depcVA))) s

/-- R189. -/
def execDepdec (a : GReg) (s : State) : Host.Outcome State Fault Refusal :=
  run (do
    trapIf ((s.g a).toNat % 64 != 0) (alignCond (s.g a) 64)
    let x ← homeOf s.whoStore (s.g a) 64 64
    waitIf (s.crowded .req (1025 + slice x.pa)) .unit
    release .c
    modify fun t => t.send .req s.here 1024 (.decrement s.me.key.asid x.pa (s.g a))) s

/-! ### Frame pools (R190, R191) -/

/-- R190. -/
def execFpop (d a : GReg) (s : State) : Host.Outcome State Fault Refusal :=
  run (do
    let va := s.g a
    trapIf (va.toNat % 4096 != 0) (alignCond va 4096)
    let p ← homeOf s.whoStore va 64 64
    release .c
    atHome va p.pa
    let s1 ← get
    let entry := chgEntry s1 s.me.key.asid s.me.cgrp
    waitIf (chgOn s1 && s1.barred s.here entry) .unit
    if chgOn s1 && s1.badIn entry 16 then dataErrNow va
    trapIf (chgOn s1 && chgLimit s1 entry < chgUsed s1 entry + 1) { code := QUOTA, tinfo := quotaInfo 1 0 s.me.cgrp 1, taddr := va }
    let head := BitVec.ofNat 64 (s1.homeRead p.pa 8)
    if s1.badIn p.pa 24 then dataErrNow va
    if head = 0 then modify fun s => (s.setG d 0).acquire .c
    else
      let f ← homeOf s.whoLoad head 8 8
      waitIf ((← get).barred s.here f.pa) .unit
      if (← get).badIn f.pa 8 then dataErrNow head
      modify fun s2 =>
        let free := BitVec.ofNat 64 (s2.homeRead (p.pa + 8) 8) - 1
        let s3 := if chgOn s2 then s2.setUsed entry (chgUsed s2 entry + 1) else s2
        let s4 := (s3.homeWrite p.pa 8 (s2.homeRead f.pa 8)).homeWrite (p.pa + 8) 8 free.toNat
        let s5 := if free.toNat = s2.homeRead (p.pa + 16) 8 then (s4.sendItem s.here 5 { asid := s.me.key.asid, pc := s.me.pc, addr := va }).1 else s4
        (s5.setG d head).acquire .c) s

/-- R191. -/
def execFpush (a b : GReg) (s : State) : Host.Outcome State Fault Refusal :=
  run (do
    let va := s.g a
    let frame := s.g b
    trapIf (va.toNat % 4096 != 0) (alignCond va 4096)
    trapIf (frame.toNat % 4096 != 0) (alignCond frame 4096)
    trapIf (frame == 0) { code := ILLSTATE, tinfo := 0x102 }
    let p ← homeOf s.whoStore va 64 64
    let f ← homeOf s.whoStore frame 8 8
    release .c
    l1Leave (f.pa / 128)
    atHome va p.pa
    let s1 ← get
    let entry := chgEntry s1 s.me.key.asid s.me.cgrp
    waitIf (s1.barred s.here f.pa || (chgOn s1 && s1.barred s.here entry)) .unit
    if s1.badIn p.pa 16 || (chgOn s1 && s1.badIn entry 16) then dataErrNow va
    modify fun s2 =>
      let free := BitVec.ofNat 64 (s2.homeRead (p.pa + 8) 8) + 1
      let s4 := ((s2.homeStore s.here f.pa 8 (s2.homeRead p.pa 8)).homeWrite p.pa 8 frame.toNat).homeWrite (p.pa + 8) 8 free.toNat
      (s4.uncharge s.here s.me.key.asid s.me.cgrp 1).acquire .c) s

/-! ### `waitw` (R192) -/

/-- One read of 8 B at the place and with the acquire that R192 gives. -/
def waitRead (a : Word) : M Word := do
  let s ← get
  let l ← check s.whoLoad a 8 8
  match l with
  | { place := .stash off _, .. } :: _ =>
    let x ← xlate s.whoLoad a
    trapIf ((← get).noWindow x.pa) (windowCond s.whoLoad a)
    stashLeave a off x.pa
    modify fun s => s.acquire .c
  | { place := .mem x, .. } :: _ =>
    match s.win x.pa with
    | .reg _ => modify fun s => s.acquire .c
    | w =>
      l1Leave (x.pa / 128)
      modify fun s => s.acquire (if x.mt = 2 || (match w with | .remote _ => true | _ => false) then .s else .c)
  | _ => pure ()
  let r ← check s.whoLoad a 8 8
  let x ← memLoad s.whoLoad r
  if x.bad then dataErrNow a
  return word x.val

/-- R192. -/
def execWaitw (d a b : GReg) (s : State) : Host.Outcome State Fault Refusal :=
  run (do
    packetTrap
    trapIf ((s.g a).toNat % 8 != 0) (alignCond (s.g a) 8)
    let x ← waitRead (s.g a)
    checked
    waitIf (x == s.g b) (.word (s.g a) (s.g b))
    modify fun s => s.setG d x) s

/-! ### `ctabld` (R289) -/

/-- R289. -/
def execCtabld (a : GReg) (s : State) : Host.Outcome State Fault Refusal :=
  run (do
    trapIf ((s.g a).toNat % 16 != 0) (alignCond (s.g a) 16)
    let x ← readDesc (s.g a) 16
    modify fun (s : State) => { s with me := { s.me with ctab := BitVec.ofNat 128 x, dirty := s.me.dirty ||| lineBit 0 } }) s

end Sys2Proof.Machine
end

