-- ==== Sys2Proof/Machine/Handles.lean ====
section
/-!
DEFINITION. Handles (R193–R203), async copies (R228–R231), bulk prefetch (R232) and INVL (R233).
-/

namespace Sys2Proof.Machine

/-- SEQ of a handle word. -/
def seqOf (w : Word) : BitVec 16 := w.extractLsb' 32 16

/-! ### Waiting on a handle (R137, R196, R197, R202) -/

def noHandle (n : Nat) : Cond := { code := NOHANDLE, tinfo := word n }

/-- The acquire of a wait that returns done (R137, R140, R202). -/
def State.handleAcquire (s : State) (w : Word) : State :=
  if hKind w = 4 || hKind w = 5 || hRmt w then s.acquire .c else s

/-- An imported pending handle reads its cell once: when the cell shows done, STATUS and INFO are copied (R202). -/
def pollCell (k : KReg) : M Unit := do
  let s ← get
  let w := s.k k
  if hPending w && hKind w = 5 then
    let c ← waitRead (s.me.xw[k])
    if hState c = 2 then
      modify fun s => s.setK k (word (2 ^ 63 + bits w 61 56 * 2 ^ 56 + bits c 55 48 * 2 ^ 48 + bits w 47 32 * 2 ^ 32 + bits c 31 0))

/-- The handle word of the strand being stepped as it now stands: a poll may just have completed it. -/
def State.kNow (s : State) (k : KReg) : Word := s.me.k[k]

def kMask (k : KReg) : BitVec 8 := BitVec.ofNat 8 (2 ^ k.val)

/-- An instruction that writes a new handle word waits for a pending one first, with that wait's acquire (R196). -/
def claimHandle (k : KReg) : M Unit := do
  let s ← get
  if hPending (s.k k) then packetTrap
  pollCell k
  let w := (← get).kNow k
  checked
  waitIf (hPending w) (if hKind w = 5 then .cell (s.me.xw[k]) else .handle (kMask k))
  if hDone w then modify fun s => s.handleAcquire w

/-- A pending handle of an engine enters kd, with the tile's next number (R194). -/
def startHandle (k : KReg) (kind : Nat) (rmt : Bool) : M (BitVec 16) := do
  let s ← get
  let seq := s.myTile.handleCount
  let s1 := (s.modMyTile fun t => { t with handleCount := t.handleCount + 1 }).setK k (newHandle kind rmt seq)
  set ({ s1 with me := { s1.me with xw := s1.me.xw.set k 0 } } : State)
  return seq

/-- R197. -/
def execHwait (a : KReg) (s : State) : Host.Outcome State Fault Refusal :=
  run (do
    packetTrap
    trapIf (hEmpty (s.k a)) (noHandle a.val)
    pollCell a
    let w := (← get).kNow a
    checked
    waitIf (hPending w) (if hKind w = 5 then .cell (s.me.xw[a]) else .handle (kMask a))
    modify fun s => s.handleAcquire w) s

/-- R198. -/
def execHtest (d : GReg) (a : KReg) (s : State) : Host.Outcome State Fault Refusal :=
  run (do
    trapIf (hEmpty (s.k a)) (noHandle a.val)
    pollCell a
    let w := (← get).kNow a
    if hDone w then modify fun s => s.handleAcquire w
    modify fun s => s.setG d (boolWord (hDone w))) s

/-- The handles that a mask selects, in ascending order. -/
def selected (msk : Nat) : List KReg := (List.range 8).filterMap fun n => if msk / 2 ^ n % 2 = 1 then (if h : n < 8 then some ⟨n, h⟩ else none) else none

def pollAll : List KReg → M Unit
  | [] => pure ()
  | k :: r => do pollCell k; pollAll r

/-- R199. -/
def execHwaitany (d a : GReg) (s : State) : Host.Outcome State Fault Refusal :=
  run (do
    packetTrap
    let msk := (s.g a).toNat % 256
    let ks := selected msk
    trapIf (msk == 0) (noHandle 8)
    match ks.find? fun k => hEmpty (s.k k) with
    | some k => throw (.cond (noHandle k.val))
    | none => pure ()
    pollAll ks
    checked
    let s1 ← get
    match ks.find? fun k => hDone (s1.kNow k) with
    | none => throw (.wait (.handle (BitVec.ofNat 8 msk)))
    | some n =>
      modify fun s => ks.foldl (fun s k => if hDone (s1.kNow k) then s.handleAcquire (s1.kNow k) else s) s
      modify fun s => s.setG d (word n.val)) s

/-- R202. -/
def execHimport (d : KReg) (a : GReg) (s : State) : Host.Outcome State Fault Refusal :=
  run (do
    if hPending (s.k d) then packetTrap
    trapIf ((s.g a).toNat % 8 != 0) (alignCond (s.g a) 8)
    let _ ← check s.whoLoad (s.g a) 8 8
    claimHandle d
    let w ← waitRead (s.g a)
    modify fun s => s.acquire .c
    let imported := word (hState w * 2 ^ 62 + 5 * 2 ^ 59 + bits w 58 0) &&& handleMask
    let (h, x) := if hState w = 1 then (imported, s.g a) else if hState w = 2 then (imported, 0) else (0, 0)
    modify fun s =>
      let s1 := s.setK d h
      { s1 with me := { s1.me with xw := s1.me.xw.set d x } }) s

/-- R203. -/
def execHstate (d : GReg) (a : KReg) (s : State) : Host.Outcome State Fault Refusal :=
  done (s.setG d (s.k a))

/-- The cell of an exported handle is written when the handle completes (R201). -/
def State.addExport (s : State) (seq : BitVec 16) (cell : Word) : State :=
  s.modMyTile fun t => { t with exports := t.exports.filter (fun e => !(e.1 = seq && e.2.1 = s.me.key)) ++ [(seq, s.me.key, cell)] }

/-- R201: `d` names a source. A store that is on its way to another package is not made again while its acknowledgement is awaited. -/
def execHexport (d : GReg) (a : KReg) (s : State) : Host.Outcome State Fault Refusal :=
  run (do
    let w := s.k a
    trapIf (hEmpty w) (noHandle a.val)
    trapIf (hKind w == 5) { code := ILLSTATE, tinfo := 0x103 }
    trapIf ((s.g d).toNat % 8 != 0) (alignCond (s.g d) 8)
    if s.me.did = 0 then
      let l ← toBegin (do return [← check s.whoStore (s.g d) 8 8])
      release .c
      memStore s.whoStore ((l.head?).getD []) w.toNat
      if hPending w then modify fun t => t.addExport (seqOf w) (s.g d)
      modify fun (s : State) => { s with me := { s.me with did := 1 } }
    release .c
    modify fun s => s.setK a 0) s

/-! ### Engines that can be asked to stop (R200) -/

/-- The copy or prefetch of a handle stops at its next piece or line: CANCELLED, with the pieces written (those issued are written before it
resolves), or the lines behind it (R193). -/
def Tile.cancelCopies (t : Tile) (key : Key) (k : KReg) (seq : BitVec 16) : Tile :=
  { t with
    copies := t.copies.map fun c => if c.key = key && c.kreg = k && c.seq = seq && c.stop.isNone then { c with stop := some (1, BitVec.ofNat 32 c.next) } else c
    prefetches := t.prefetches.map fun c => if c.key = key && c.kreg = k && c.seq = seq && c.stop.isNone then { c with stop := some (1, BitVec.ofNat 32 c.done) } else c }

/-- The kernel of a handle is ended: a running one at its next instruction boundary, a queued or suspended one at once (R316). -/
def State.cancelKernel (s : State) (key : Key) (k : KReg) (seq : BitVec 16) : State :=
  let mine (n : Kernel) : Bool := n.key = key && n.kreg = k && n.seq = seq
  let mark (n : Kernel) : Kernel := if mine n then { n with cancel := true } else n
  let saved (v : Saved) : Bool := v.core.kern.any mine
  let gone : List (Kernel × BitVec 32) := s.stks.flatMap fun e =>
    ((e.2.queue.filter mine).map fun n => (n, 0)) ++
      (e.2.suspended ++ e.2.restores).filterMap fun v => (v.core.kern.filter mine).map fun n => (n, v.core.writes)
  let s1 : State :=
    { s with
      stks := s.stks.map fun e =>
        (e.1, { e.2 with
          queue := e.2.queue.filter fun n => !mine n
          suspended := e.2.suspended.filter fun v => !saved v
          restores := e.2.restores.filter fun v => !saved v })
      cores := s.cores.map fun e => (e.1, { e.2 with kern := e.2.kern.map mark })
      msgs := s.msgs.map fun m => match m.body with
        | .launch n => { m with body := .launch (mark n) }
        | _ => m }
  gone.foldl (fun s e => s.sendEnd e.1 1 e.2) s1

/-- R200. -/
def execHcancel (a : KReg) (s : State) : Host.Outcome State Fault Refusal :=
  run (do
    let w := s.k a
    trapIf (hEmpty w) (noHandle a.val)
    if hDone w || hKind w = 5 then
      modify fun s =>
        let s1 := s.setK a 0
        { s1 with me := { s1.me with xw := s1.me.xw.set a 0 } }
    else if hKind w = 2 then pure ()
    else if hKind w = 4 then modify fun s => s.cancelKernel s.me.key a (seqOf w)
    else modify fun s => s.modMyTile fun t => t.cancelCopies s.me.key a (seqOf w)) s

/-! ### Async copy (R228–R230) -/

def badDesc (off : Nat) (a : Word) : Cond := { code := BADDESC, tinfo := word off, taddr := a }

/-- The first field of a descriptor that fails: the byte offset of the first test that does not hold. -/
def firstBad (a : Word) : List (Nat × Bool) → M Unit
  | [] => pure ()
  | (off, ok) :: r => do
    trapIf (!ok) (badDesc off a)
    firstBad a r

/-- Bytes lo to hi of a descriptor, as a number. -/
def bytesAt (d lo hi : Nat) : Nat := d / 256 ^ lo % 256 ^ (hi + 1 - lo)

/-- A copy joins the tile's queue (R230). -/
def startCopy (k : KReg) (c : Copy) (va : Word) : M Unit := do
  let s ← get
  trapIf (c.remote && (List.range c.rows).any fun r =>
      let d0 := (c.dst + word r * c.dstride).toNat
      Config.scratchSize < d0 + c.rowlen) (rangeCond 2 va)
  claimHandle k
  waitIf (32 ≤ s.myTile.copies.length) .copies
  release (if c.remote then .c else .t)
  let seq ← startHandle k 1 c.remote
  modify fun s => s.modMyTile fun t => { t with copies := t.copies ++ [{ c with seq := seq }] }

/-- R228. -/
def execAcopy (d : KReg) (a : GReg) (s : State) : Host.Outcome State Fault Refusal :=
  run (do
    packetTrap
    let va := s.g a
    trapIf (va.toNat % 32 != 0) (alignCond va 32)
    let x ← readDesc va 32
    let t := bytesAt x 24 25
    let len := bytesAt x 16 19
    firstBad va [(16, len != 0 && bytesAt x 20 23 == 0), (24, t / 2 ^ 10 % 32 == 0), (26, bytesAt x 26 31 == 0)]
    startCopy d
      { key := s.me.key, kreg := d, seq := 0, asid := s.me.key.asid, cgrp := s.me.cgrp, supv := s.me.supv,
        src := word (bytesAt x 0 7), dst := word (bytesAt x 8 15), rowlen := len, rows := 1, sstride := 0, dstride := 0,
        remote := t / 2 ^ 15 == 1, dtile := t % 1024, next := 0, pend := [], stop := none } (word (bytesAt x 8 15))) s

/-- R228. -/
def execAcopy2 (d : KReg) (a : GReg) (s : State) : Host.Outcome State Fault Refusal :=
  run (do
    packetTrap
    let va := s.g a
    trapIf (va.toNat % 64 != 0) (alignCond va 64)
    let x ← readDesc va 64
    let t := bytesAt x 40 41
    let len := bytesAt x 16 19
    let rows := bytesAt x 20 23
    firstBad va [(16, 1 ≤ len && len ≤ 2 ^ 20), (20, 1 ≤ rows && rows ≤ 2 ^ 20), (40, t / 2 ^ 10 % 32 == 0), (42, bytesAt x 42 63 == 0)]
    startCopy d
      { key := s.me.key, kreg := d, seq := 0, asid := s.me.key.asid, cgrp := s.me.cgrp, supv := s.me.supv,
        src := word (bytesAt x 0 7), dst := word (bytesAt x 8 15), rowlen := len, rows := rows,
        sstride := word (bytesAt x 24 31), dstride := word (bytesAt x 32 39),
        remote := t / 2 ^ 15 == 1, dtile := t % 1024, next := 0, pend := [], stop := none } (word (bytesAt x 8 15))) s

/-! ### Bulk prefetch (R232) -/

/-- R232: a length of 0 is done at once. -/
def execPfl2 (d : KReg) (a b : GReg) (s : State) : Host.Outcome State Fault Refusal :=
  run (do
    packetTrap
    trapIf (2 ^ 36 < (s.g b).toNat) (rangeCond 1 (s.g a))
    claimHandle d
    let seq ← startHandle d 3 false
    if s.g b = 0 then modify fun s => s.setK d (doneHandle (newHandle 3 false seq) 0 0)
    else modify fun t => t.modMyTile fun u =>
      { u with prefetches := u.prefetches ++
          [{ key := s.me.key, kreg := d, seq := seq, asid := s.me.key.asid, supv := s.me.supv, va := s.g a, len := (s.g b).toNat, done := 0,
             stop := none }] }) s

/-! ### INVL (R100, R233) -/

/-- A broadcast starts: every receiver has yet to acknowledge (R100). -/
def State.startInvl (s : State) (form : BitVec 2) (asid : BitVec 12) (va len : Word) (who : InvlFor) : State :=
  { s with invls := s.invls ++ [{ form := form, asid := asid, va := va, len := len, who := who, left := BitVec.allOnes 1026 }] }

/-- An INVL by a strand: sent once, then the strand blocks until it completes. -/
def invlBy (form : BitVec 2) (asid : BitVec 12) (va len : Word) : M Unit := do
  packetTrap
  let s ← get
  trapIf (!s.me.supv) { code := PRIV, tinfo := 0x100 }
  checked
  if form = 0 && len = 0 then pure ()
  else match s.me.ans with
    | some .accepted => pure ()
    | some .asked => throw (.wait .invl)
    | _ =>
      let s1 := s.startInvl form asid va len (.strand s.me.key)
      set ({ s1 with me := { s1.me with ans := some .asked } } : State)
      throw (.wait .invl)

/-- R233: gd is a source. -/
def execInvlR (d a b : GReg) (s : State) : Host.Outcome State Fault Refusal :=
  run (invlBy 0 ((s.g d).setWidth 12) (s.g a) (s.g b)) s

/-- R233. -/
def execInvlA (a : GReg) (s : State) : Host.Outcome State Fault Refusal :=
  run (invlBy 1 ((s.g a).setWidth 12) 0 0) s

/-- R233. -/
def execInvlAll (s : State) : Host.Outcome State Fault Refusal :=
  run (invlBy 2 0 0 0) s

end Sys2Proof.Machine
end

