-- ==== Sys2Proof/Machine/Messages.lean ====
section
/-!
DEFINITION. Eyelets and packets (R234–R242) and barriers, votes and collectives (R60–R62, R243–R245).
-/

namespace Sys2Proof.Machine

/-! ### Eyelet IDs and entries (R234–R236) -/

def eyTile (id : Word) : Nat := bits id 9 0
def eyIndex (id : Word) : Nat := bits id 15 10
def eyAsid (id : Word) : BitVec 12 := id.extractLsb' 16 12
def eyGen (id : Word) : BitVec 16 := id.extractLsb' 32 16

/-- An ID with nonzero reserved bits, or of another space (R238). -/
def badEyeletId (id : Word) (asid : BitVec 12) : Bool := bits id 63 48 ≠ 0 || bits id 31 28 ≠ 0 || eyAsid id ≠ asid

def eyeletId (tile idx : Nat) (asid : BitVec 12) (gen : BitVec 16) : Word :=
  word (gen.toNat * 2 ^ 32 + asid.toNat * 2 ^ 16 + idx * 2 ^ 10 + tile)

def Eyelet.blank : Eyelet :=
  { gen := 0, live := false, owner := ⟨0, 0⟩, ring := 0, ringN := 0, scr := 0, busy := 0, queue := [], rhead := 0, rcount := 0, last := none }

def Tile.eyelet (t : Tile) (i : Nat) : Eyelet := (look i t.eyelets).getD Eyelet.blank

def eyeletCond (why : Nat) (a : Word) : Cond := { code := EYELET, tinfo := word why, taddr := a }

/-- A message's header (R236). -/
def eyHeader (cls pkt : Bool) (slot len stile : Nat) (seq : BitVec 32) : Word :=
  word (2 ^ 63 + cls.toNat * 2 ^ 62 + pkt.toNat * 2 ^ 61 + slot * 2 ^ 56 + len * 2 ^ 52 + stile * 2 ^ 32 + seq.toNat)

/-! ### Delivery (R237) -/

/-- The lowest free slot of the home buffer. -/
def Eyelet.freeSlot (e : Eyelet) : Option Nat := (List.range 32).find? fun i => !e.busy.getLsbD i

/-- The payload is written as engine writes recorded at .c, and the message joins the queue. -/
def State.fillSlot (s : State) (tile idx slot : Nat) (hdr : Word) (words : List Word) : State :=
  let e := (s.tile tile).eyelet idx
  (s.engineWrite tile (e.scr + 64 * slot) (8 * words.length) (packN 64 (words.map (·.toNat))) true).modTile tile fun t =>
    { t with eyelets := put idx { e with busy := e.busy ||| lineBit slot, queue := e.queue ++ [setBits hdr 60 56 slot] } t.eyelets }

/-- A message takes its slot, and its words enter it one by one (R138). -/
def State.openSlot (s : State) (tile idx slot : Nat) (hdr : Word) (words : List Word) : State :=
  let e := (s.tile tile).eyelet idx
  let a : Arriving := { slot := slot, hdr := hdr, left := words.zipIdx.map fun x => (x.2, x.1) }
  s.modTile tile fun t => { t with eyelets := put idx { e with busy := e.busy ||| lineBit slot, arriving := some a } t.eyelets }

/-- One of those words; with the last one the message joins the queue (R237). -/
def State.slotWord (s : State) (tile idx n : Nat) : State :=
  match ((s.tile tile).eyelet idx).arriving with
  | none => s
  | some a =>
    match look n a.left with
    | none => s
    | some x =>
      let e := (s.tile tile).eyelet idx
      let left := a.left.filter fun y => y.1 ≠ n
      let e1 : Eyelet := if left.isEmpty then { e with arriving := none, queue := e.queue ++ [setBits a.hdr 60 56 a.slot] }
        else { e with arriving := some { a with left := left } }
      (s.engineWrite tile (e.scr + 64 * a.slot + 8 * n) 8 x.toNat true).modTile tile fun t => { t with eyelets := put idx e1 t.eyelets }

/-- What the owner's tile does with a message: the answer, or the fault of a ring access that holds it. -/
inductive Delivery
  | done (a : Ans) (s : State)
  | ringFault (a : Word) (e : XErr) (s : State)
  | busy (s : State)

/-- The VA of a ring entry. -/
def Eyelet.ringVA (e : Eyelet) (i : Nat) : Word := e.ring + word (128 * (i % e.ringN))

/-- The owner's tile accesses its ring on the owner's behalf. -/
def State.ringXl (s : State) (tile : Nat) (e : Eyelet) (i : Nat) (store : Bool) : Except (XErr × State) (Xl × State) :=
  let supv := match s.theStrand? e.owner with
    | some t => t.supv
    | none => itemSupv e.owner.asid tile
  agentXl s (agentWho e.owner.asid tile supv store 7) (e.ringVA i)

/-- Who asks for the ring entries of an eyelet in another package: its tile, for the owner's space. -/
def ringKey (asid : BitVec 12) : Key := agentKey asid (2 ^ 16 + 1)
def State.ringStrand (s : State) (tile : Nat) (e : Eyelet) : Strand :=
  { Strand.reset with key := ringKey e.owner.asid, tile := BitVec.ofNat 10 tile, supv := (s.theStrand? e.owner).elim (itemSupv e.owner.asid tile) (·.supv) }

/-- A message enters a ring entry at its home (R237); in another package it is in the ring once that has acknowledged it. Or why the access fails,
with what it has asked for. -/
def State.ringWrite (s : State) (tile : Nat) (e : Eyelet) (a : Word) (pa v : Nat) : Except (XErr × State) State :=
  match s.win pa with
  | .remote _ =>
    let line : CLine := { CLine.blank (pa / 128) e.owner.asid 0 false a with dirty := BitVec.allOnes 128, data := BitVec.ofNat 1024 v }
    match s.onBehalf (s.ringStrand tile e) (lineHomeNow tile line 3) with
    | .ok _ s1 => .ok s1
    | .error (.wait _) s1 => .error (.busy, s1)
    | .error (.cond c) s1 => .error (if c.code = DATAERR then .dataErr else .fault ⟨c.code, 15, 0⟩, s1)
  | _ =>
    if s.outAt pa then .error (.dataErr, s)
    else if s.barred tile pa then .error (.busy, s)
    else .ok (s.homeStore tile pa 128 v)

/-- A ring entry as its home holds it, once it has come; why the access fails, with what it has asked for. -/
def State.ringRead (s : State) (tile : Nat) (e : Eyelet) (x : Xl) : Except (XErr × State) (Nat × State) :=
  match s.win x.pa with
  | .remote _ =>
    if s.packets.any fun p => p.key = ringKey e.owner.asid && bits p.hdr 127 124 = 1 && bits p.hdr 95 86 = tile && p.reply.isNone then .error (.busy, s) else
    match s.onBehalf (s.ringStrand tile e) (remoteLine (agentWho e.owner.asid tile true false 7) e.ring (x.pa / 128)) with
    | .ok (v, false) s1 => .ok (v.toNat, s1)
    | .ok (_, true) s1 => .error (.dataErr, s1)
    | .error (.wait _) s1 => .error (.busy, s1)
    | .error (.cond c) s1 => .error (.fault ⟨c.code, 15, 0⟩, s1)
  | _ =>
    if s.barred tile x.pa then .error (.busy, s)
    else if s.badIn x.pa 128 then .error (.dataErr, s)
    else .ok (s.homeRead x.pa 128, s)

/-- A message arrives at its eyelet (R237): an entry of another space than its ID names is no entry (R109, R234). -/
def State.accept (s : State) (tile : Nat) (id : Word) (hdr : Word) (words : List Word) : Delivery :=
  let idx := eyIndex id
  let e := (s.tile tile).eyelet idx
  if !e.live || e.gen ≠ eyGen id || e.owner.asid ≠ eyAsid id then .done .stale s
  else if e.arriving.isSome then .busy s
  else match (if e.rcount = 0 then e.freeSlot else none) with
    | some slot => .done .accepted (s.fillSlot tile idx slot hdr words)
    | none =>
      if e.ringN ≤ e.rcount then .done .refused s
      else match s.ringXl tile e (e.rhead + e.rcount) true with
        | .error (.busy, s) => .busy s
        | .error (x, s) => .ringFault (e.ringVA (e.rhead + e.rcount)) x s
        | .ok (x, s) =>
          match s.ringWrite tile e (e.ringVA (e.rhead + e.rcount)) x.pa (hdr.toNat + 2 ^ 512 * packN 64 (words.map (·.toNat))) with
          | .error (.busy, s) => .busy s
          | .error (x, s) => .ringFault (e.ringVA (e.rhead + e.rcount)) x s
          | .ok s => .done .accepted (s.modTile tile fun t => { t with eyelets := put idx { e with rcount := e.rcount + 1 } t.eyelets })

/-- Whether a fault of the ring's head waits for a reply. -/
def State.pumpHeld (s : State) (tile idx : Nat) : Bool := (s.tile tile).items.any fun i => match i with | .pump j _ => j = idx | _ => false

/-- The ring's head entry moves into a free slot, while there is one; a fault leaves it (and sends a record, held for a reply). -/
def State.pump (s : State) (tile idx : Nat) : Nat → State
  | 0 => s
  | n + 1 =>
    let e := (s.tile tile).eyelet idx
    if e.rcount = 0 || s.pumpHeld tile idx then s else
    match e.freeSlot with
    | none => s
    | some slot =>
      let failed (x : XErr) (s : State) : State :=
        let (s1, token) := s.sendItem tile 9
          { asid := e.owner.asid, code := BitVec.ofNat 16 x.code, addr := e.ringVA e.rhead, info := faultInfo 7 x.level, acc := faultInfo 7 x.level, pte := x.pte }
        s1.modTile tile fun t => { t with items := t.items ++ [.pump idx token] }
      match s.ringXl tile e e.rhead false with
      | .error (.busy, s) => s
      | .error (x, s) => failed x s
      | .ok (x, s) =>
      match s.ringRead tile e x with
      | .error (.busy, s) => s
      | .error (x, s) => failed x s
      | .ok (v, s) =>
        let hdr := BitVec.ofNat 64 v
        let words := (List.range (bits hdr 55 52)).map fun j => BitVec.ofNat 64 (v / 2 ^ (512 + 64 * j))
        let s := s.modTile tile fun t =>
          { t with eyelets := put idx { e with rhead := (e.rhead + 1) % e.ringN, rcount := e.rcount - 1 } t.eyelets }
        (s.fillSlot tile idx slot hdr words).pump tile idx n

/-! ### Eyelet instructions (R235, R238, R239) -/

/-- R235. The eyelet takes the lowest free entry: the manual names none (DESIGN CHOICE, log 66). -/
def execEycreate (d a : GReg) (s : State) : Host.Outcome State Fault Refusal :=
  run (do
    let va := s.g a
    trapIf (va.toNat % 64 != 0) (alignCond va 64)
    let x ← readDesc va 64
    let ring := word (bytesAt x 0 7)
    let n := bytesAt x 8 11
    let scr := bytesAt x 12 15
    firstBad va [(0, ring.toNat % 4096 == 0), (8, 32 ≤ n && n ≤ 1048576 && 2 ^ Nat.log2 n == n),
      (12, scr % 2048 == 0 && scr ≤ Config.scratchSize - 2048), (16, bytesAt x 16 63 == 0)]
    trapIf ((← allPages s.whoStore ring (128 * n) true).any (·.scr)) (rangeCond 3 ring)
    let t := s.myTile
    match (List.range 64).find? fun i => !(t.eyelet i).live with
    | none => throw (.cond (eyeletCond 1 va))
    | some i =>
      trapIf ((t.stashes.any fun m => overlap scr 2048 m.2.off m.2.len) ||
        (t.eyelets.any fun e => e.2.live && overlap scr 2048 e.2.scr 2048) ||
        (isCobbler s.here && Config.cobblerBase < scr + 2048)) (eyeletCond 5 va)
      checkOwner scr 2048
      let gen := (t.eyelet i).gen + 1
      modify fun s => s.modMyTile fun t =>
        { t with eyelets := put i { Eyelet.blank with gen := gen, live := true, owner := s.me.key, ring := ring, ringN := n, scr := scr } t.eyelets }
      modify fun t => t.setG d (eyeletId s.here i s.me.key.asid gen)) s

/-- SEQ0 and SEQ1 of line 30. -/
def Strand.seqOf (t : Strand) (cls : Bool) : BitVec 32 := if cls then t.seq1 else t.seq0
def Strand.nextSeq (t : Strand) (cls : Bool) : Strand :=
  let u := { t with dirty := t.dirty ||| lineBit 30 }
  if cls then { u with seq1 := t.seq1 + 1 } else { u with seq0 := t.seq0 + 1 }

/-- Whether the owner's tile holds the strand's message for a ring fault (R237). -/
def State.ringHeld (s : State) (id : Word) : Bool :=
  (s.tile (eyTile id)).items.any fun i => match i with
    | .ring m _ => (match m.body with | .eyelet k .. => k = s.me.key | _ => false)
    | _ => false

/-- Sends a message and waits for its answer (R238): the release at .c first, then QUOTA, EYELET or the acceptance. -/
def postAndWait (id : Word) (cls pkt : Bool) (words : List Word) : M Unit := do
  let s ← get
  match s.me.ans with
  | some .accepted => modify fun (s : State) => { s with me := s.me.nextSeq cls }
  | some .stale => throw (.cond (eyeletCond 2 id))
  | some .refused => throw (.cond { code := QUOTA, tinfo := word (2 ^ 63 + bits id 47 0) })
  | some .failed => throw (.cond { code := DATAERR, tinfo := s.me.pc })
  | some .asked => throw (.wait (if s.ringHeld id then .ring else .answer))
  | _ =>
    checked
    waitIf (s.crowded (if cls then .msg1 else .msg0) (eyTile id)) .unit
    release .c
    let s ← get
    let s1 := s.send (if cls then .msg1 else .msg0) s.here (eyTile id) (.eyelet s.me.key id cls pkt words (s.me.seqOf cls))
    set ({ s1 with me := { s1.me with ans := some .asked } } : State)
    throw (.wait .answer)

def eypost (cls : Bool) (a b : GReg) : M Unit := do
  packetTrap
  let s ← get
  trapIf (badEyeletId (s.g a) s.me.key.asid) (eyeletCond 3 (s.g a))
  postAndWait (s.g a) cls false [s.g b]

/-- R238. -/
def execEypostMsg0 (a b : GReg) (s : State) : Host.Outcome State Fault Refusal :=
  run (eypost false a b) s

/-- R238. -/
def execEypostMsg1 (a b : GReg) (s : State) : Host.Outcome State Fault Refusal :=
  run (eypost true a b) s

/-- The entry of an eyelet that the strand owns (R239). -/
def ownEyelet (id : Word) : M Eyelet := do
  let s ← get
  trapIf (eyTile id != s.here || badEyeletId id s.me.key.asid) (eyeletCond 4 id)
  let e := s.myTile.eyelet (eyIndex id)
  trapIf (!e.live || e.gen != eyGen id) (eyeletCond 2 id)
  trapIf (e.owner != s.me.key) (eyeletCond 4 id)
  return e

/-- The slot that `eytake` returned last is free: its eight words are empty. -/
def Tile.freeLast (t : Tile) (idx : Nat) : Tile :=
  let e := t.eyelet idx
  match e.last with
  | none => t
  | some n =>
    let t := (List.range 8).foldl (fun t j => t.setEmpty (e.scr + 64 * n.val + 8 * j)) t
    { t with eyelets := put idx { e with last := none, busy := e.busy &&& ~~~ (lineBit n.val) } t.eyelets }

/-- R239: a take that returns a message is the acquire of R143. -/
def execEytake (d a : GReg) (s : State) : Host.Outcome State Fault Refusal :=
  run (do
    packetTrap
    let id := s.g a
    let e0 ← ownEyelet id
    let i := eyIndex id
    modify fun s =>
      let s1 := s.modMyTile fun t => t.freeLast i
      (match e0.last with
        | some n => s1.serve s.here (e0.scr + 64 * n.val) 64
        | none => s1).pump s.here i 32
    let e := (← get).myTile.eyelet i
    match e.queue with
    | [] => modify fun s => s.setG d 0
    | h :: r =>
      modify fun s => (s.modMyTile fun t =>
        { t with eyelets := put i { e with queue := r, last := some (h.extractLsb' 56 5).toFin } t.eyelets }).acquire .c
      modify fun s => s.setG d h) s

/-- R239. -/
def execEywait (a : GReg) (s : State) : Host.Outcome State Fault Refusal :=
  run (do
    packetTrap
    let e ← ownEyelet (s.g a)
    checked
    waitIf e.queue.isEmpty (.eyelet (s.g a))) s

/-! ### Packets (R240, R241) -/

def pkOpen (p : Word) : Bool := p.getLsbD 63
def pkLost (p : Word) : Bool := p.getLsbD 62
def pkClass (p : Word) : Bool := p.getLsbD 61
def pkLen (p : Word) : Nat := bits p 60 57
def pkId (p : Word) : Word := word (bits p 47 0)

def Strand.setPkst (t : Strand) (p : Word) : Strand := { t with pkst := p, dirty := t.dirty ||| lineBit 29 }

def popen (cls : Bool) (a : GReg) : M Unit := do
  let s ← get
  trapIf (pkOpen s.me.pkst) { code := ILLSTATE, tinfo := 0x104 }
  trapIf (badEyeletId (s.g a) s.me.key.asid) (eyeletCond 3 (s.g a))
  set ({ s with me := s.me.setPkst (word (2 ^ 63 + cls.toNat * 2 ^ 61 + bits (s.g a) 47 0)) } : State)

/-- R241. -/
def execPopenMsg0 (a : GReg) (s : State) : Host.Outcome State Fault Refusal :=
  run (popen false a) s

/-- R241. -/
def execPopenMsg1 (a : GReg) (s : State) : Host.Outcome State Fault Refusal :=
  run (popen true a) s

/-- PKTLOST clears LOST and is taken; everything else runs (R241). -/
def unlessLost (m : M Unit) (s : State) : Host.Outcome State Fault Refusal :=
  if pkLost s.me.pkst then
    .next (({ s with me := s.me.setPkst (setBits s.me.pkst 62 62 0) } : State).takeCond { code := PKTLOST, tinfo := s.me.pkst })
  else run m s

/-- The packet is open and has room for two words. -/
def packetRoom : M Unit := do
  let s ← get
  trapIf (!pkOpen s.me.pkst) { code := ILLSTATE, tinfo := 0x105 }
  trapIf (6 < pkLen s.me.pkst) { code := ILLSTATE, tinfo := 0x106 }

/-- PWORD(LEN) and PWORD(LEN + 1). -/
def Strand.addWords (t : Strand) (x y : Word) : Strand :=
  let n := pkLen t.pkst
  { t with pword := (t.pword.setIfInBounds n x).setIfInBounds (n + 1) y, dirty := t.dirty ||| packetBits.setWidth 32 }

/-- R241. -/
def execPput (a b : GReg) (s : State) : Host.Outcome State Fault Refusal :=
  unlessLost (do
    packetRoom
    modify fun (t : State) => { t with me := (t.me.addWords (s.g a) (s.g b)).setPkst (setBits s.me.pkst 60 57 (pkLen s.me.pkst + 2)) }) s

/-- R241: two more words, then the packet is sent as `eypost` sends. -/
def execPsend (a b : GReg) (s : State) : Host.Outcome State Fault Refusal :=
  unlessLost (do
    packetRoom
    let p := s.me.pkst
    postAndWait (pkId p) (pkClass p) true (s.me.pword.toList.take (pkLen p) ++ [s.g a, s.g b])
    modify fun (t : State) => { t with me := (t.me.addWords (s.g a) (s.g b)).setPkst (setBits (setBits p 60 57 (pkLen p + 2)) 63 63 0) }) s

/-! ### Barriers (R60–R62, R243, R244) -/

/-- Whether a tile lies in the user box of a DOM (R60). -/
def inBox (dom : Word) (tile : Nat) : Bool :=
  let o := bits dom 9 0
  (tile % 8 + 8 - o % 8) % 8 ≤ bits dom 12 10 && (tile / 8 % 8 + 8 - o / 8 % 8) % 8 ≤ bits dom 15 13 &&
    (tile / 64 + 16 - o / 64) % 16 ≤ bits dom 19 16

/-- Whether strand u is a member of strand t's domain at a level (R61). -/
def sameDomain (lvl : Level) (t u : Strand) : Bool :=
  u.key.asid = t.key.asid && bits u.dom 63 48 = bits t.dom 63 48 &&
  match lvl with
  | .tile => u.tile = t.tile
  | .column => u.tile.toNat % 64 = t.tile.toNat % 64
  | .layer => u.tile.toNat / 64 = t.tile.toNat / 64
  | .cube => true
  | .user => bits u.dom 19 0 = bits t.dom 19 0 && inBox t.dom u.tile.toNat

/-- All strands, the one being stepped as it now is. -/
def State.allStrands (s : State) : List Strand := s.strands.map fun t => if t.key = s.me.key then s.me else t

/-- The result of a generation from its contributions (R243): kinds 0 bar, 1 bvote, 2 csum, 3 cmax, 4 cmin. -/
def collective (kind : Nat) (vals : List Word) : Word :=
  match kind with
  | 1 => word ((vals.any fun v => v.getLsbD 0).toNat + 2 * (vals.all fun v => v.getLsbD 0).toNat)
  | 2 => vals.foldl (· + ·) 0
  | 3 => (vals.drop 1).foldl (fun x y => if x.toInt < y.toInt then y else x) (vals.headD 0)
  | 4 => (vals.drop 1).foldl (fun x y => if y.toInt < x.toInt then y else x) (vals.headD 0)
  | _ => 0

/-- An arrival of the same generation that stands at the same router. -/
def sameGen (a : Arrival) (u : Strand) : Bool :=
  match u.arrival with
  | some b => b.kind = a.kind && b.level = a.level && b.stage = 1 && b.at_ = a.at_
  | none => false

/-- An arrival of the same generation that its router has passed on towards the root. -/
def passedOn (a : Arrival) (dom : Word) (u : Strand) : Bool :=
  match u.arrival with
  | some b => b.kind = a.kind && b.level = a.level &&
      ((b.stage = 3 && b.at_ = a.at_) || ((b.stage = 1 || b.stage = 3) && !treeUnder a.level dom a.at_ b.at_))
  | none => false

/-- The router that holds strand t's arrival combines it (R326): once every member below it has arrived, one value goes on to the next router;
at the root the generation is complete, and each member's completion leaves for its tile down the tree (R61). -/
def State.tryComplete (s : State) (t : Strand) : State :=
  match t.arrival with
  | none => s
  | some a =>
    if a.stage ≠ 1 then s else
    let below := (s.allStrands.filter (sameDomain a.level t)).filter fun u => treeUnder a.level t.dom a.at_ u.tile.toNat
    if !(below.all fun u => sameGen a u || passedOn a t.dom u) then s else
    let here := below.filter (sameGen a)
    let r := collective a.kind.val (here.filterMap fun u => u.arrival.map (·.val))
    let move (stage : Nat) (s : State) (u : Strand) : State :=
      s.modStrand u.key fun v => { v with arrival := v.arrival.map fun b => { b with stage := stage } }
    match treeHop a.level t.dom a.at_ with
    | some p => (here.foldl (move 3) s).send .sync a.at_ (neighbour a.at_ p) (.combined t.key { a with val := r } t.dom)
    | none => here.foldl (fun s u => (move 2 s u).send .sync a.at_ u.tile.toNat (.completion u.key a t.dom r)) s

/-- A combined value reaches the next router: the arrivals in it stand there (R326). -/
def State.combined (s : State) (src dst : Nat) (key : Key) (a : Arrival) (dom : Word) : State :=
  let of : Strand := { Strand.reset with key := key, tile := BitVec.ofNat 10 src, dom := dom }
  let mine (u : Strand) : Bool := sameDomain a.level of u && u.arrival.any fun b => b.kind = a.kind && b.level = a.level && b.stage = 3 && b.at_ = src
  let l := s.allStrands.filter mine
  let s1 := l.foldl (fun s u => s.modStrand u.key fun v => { v with arrival := v.arrival.map fun b => { b with stage := 1, at_ := dst } }) s
  match l.head?.bind fun u => s1.theStrand? u.key with
  | some t => s1.tryComplete t
  | none => s1

/-- Generations that a change of membership may have completed. -/
def State.evalBarriers (s : State) : State :=
  s.allStrands.foldl (fun s t => match s.theStrand? t.key with
    | some u => s.tryComplete u
    | none => s) s

/-- One arrival, then the generation's result (R243, R62). -/
def barrier (kind : Fin 5) (lvl : Level) (val : Word) (put : Word → State → State) : M Unit := do
  packetTrap
  let s ← get
  let sc : Scope := if lvl = .tile then .t else .c
  match s.me.arrival with
  | some { result := some r, .. } =>
    modify fun (s : State) => { s with me := { s.me with arrival := none } }
    modify fun s => put r (s.acquire sc)
  | some _ => throw (.wait .barrier)
  | none =>
    checked
    waitIf (s.crowded .sync s.here) .unit
    release sc
    let s ← get
    let a : Arrival := { kind := kind, level := lvl, val := val }
    let s1 := s.send .sync s.here s.here (.arrival s.me.key a)
    set ({ s1 with me := { s1.me with arrival := some a } } : State)
    throw (.wait .barrier)

/-- R243. -/
def execBar (lvl : Level) (s : State) : Host.Outcome State Fault Refusal :=
  run (barrier 0 lvl 0 fun _ s => s) s

/-- R243. -/
def execBvote (d a : GReg) (lvl : Level) (s : State) : Host.Outcome State Fault Refusal :=
  run (barrier 1 lvl (s.g a) fun r s => s.setG d r) s

/-- R243. -/
def execCsum (d a : GReg) (lvl : Level) (s : State) : Host.Outcome State Fault Refusal :=
  run (barrier 2 lvl (s.g a) fun r s => s.setG d r) s

/-- R243. -/
def execCmax (d a : GReg) (lvl : Level) (s : State) : Host.Outcome State Fault Refusal :=
  run (barrier 3 lvl (s.g a) fun r s => s.setG d r) s

/-- R243. -/
def execCmin (d a : GReg) (lvl : Level) (s : State) : Host.Outcome State Fault Refusal :=
  run (barrier 4 lvl (s.g a) fun r s => s.setG d r) s

end Sys2Proof.Machine
end

