-- ==== Sys2Proof/Machine/Matrix.lean ====
section
/-!
DEFINITION. The matrix unit (R272–R290): accumulators, MMAs, readout, reductions between accumulators and tiles.
-/

namespace Sys2Proof.Machine

/-! ### Accumulators (R272–R274) -/

/-- The physical accumulator bound to a strand's qn. -/
def Tile.boundTo (t : Tile) (key : Key) (q : QReg) : Option Nat := firstIdx (fun a => a.bind == some (key, q)) t.accs.toList

def Tile.acc (t : Tile) (i : Nat) : Accum := (t.accs.toList[i]?).getD Accum.reset
def Tile.setAcc (t : Tile) (i : Nat) (a : Accum) : Tile := { t with accs := t.accs.setIfInBounds i a }

def Elem.zero : Elem := { acc := 0, fl := 0 }

/-- Element e; an empty list is all zeros. -/
def Accum.elem (a : Accum) (e : Nat) : Elem := (a.elems[e]?).getD Elem.zero

/-- The sixteen accumulators free for binding (R278). -/
def Tile.freeAcc (t : Tile) : Option Nat := firstIdx (fun a => a.bind.isNone && !a.retained) t.accs.toList

def unbound (q : QReg) : Cond := { code := ILLSTATE, tinfo := word q.val }

/-- The accumulator that an instruction names, or ILLSTATE (R272). -/
def theAcc (q : QReg) : M Nat := do
  let s ← get
  match s.myTile.boundTo s.me.key q with
  | none => throw (.cond (unbound q))
  | some i => if s.src.qheld.getLsbD q.val then return i else throw (.cond (unbound q))

/-- ACCBUSY when an MMA is in flight on qn (R277). -/
def notBusy (q : QReg) : M Unit := do
  let s ← get
  match s.myTile.mat.find? fun o => o.key = s.me.key && o.q = q && o.form.isSome with
  | some o => throw (.cond { code := ACCBUSY, tinfo := o.seq.setWidth 64, reg := BitVec.ofNat 4 q.val })
  | none => pure ()

/-- DATAERR for an uncorrectable element (R375, R382). -/
def accGood (q : QReg) (i : Nat) : M Unit := do
  let s ← get
  trapIf (s.myTile.acc i).bad { code := DATAERR, tinfo := s.me.pc ||| 1, taddr := word q.val }

/-- A write of qn waits for the read of a `qsend` that is queued (R286): a stall. -/
def sendRead (q : QReg) : M Unit := do
  let s ← get
  waitIf (s.myTile.mat.any fun o => o.key = s.me.key && o.q = q && o.form.isNone) .unit

/-- The unit queues 8 operations (R290); a ninth stalls. -/
def unitRoom : M Unit := do waitIf (8 ≤ (← get).myTile.mat.length) .unit

/-- The final steps of R82 on the sum of two elements, with the union of their flags (R285). -/
def Elem.add (x y : Elem) : Elem :=
  let a := Sum.ofElem x.acc x.fl
  let b := Sum.ofElem y.acc y.fl
  let c := Sum.close { sum := a.sum + b.sum, nan := a.nan || b.nan, pinf := a.pinf || b.pinf, ninf := a.ninf || b.ninf }
  { acc := c.1, fl := c.2 }

/-- The 8,448 B of a save area (R274), and back. -/
def Accum.saveBytes (a : Accum) : Nat :=
  packN 64 ((List.range 1024).map fun e => (a.elem e).acc.toNat) + 2 ^ (8 * 8192) * packN 2 ((List.range 1024).map fun e => (a.elem e).fl.toNat)

def elemsOf (x : Nat) : List Elem :=
  ((unpackN 64 1024 x).zip (unpackN 2 1024 (x / 2 ^ (8 * 8192)))).map fun e => { acc := BitVec.ofNat 64 e.1, fl := BitVec.ofNat 2 e.2 }

def saveSize : Nat := 8448
def imageSize : Nat := 8512

/-- A send image: the save area's layout, the anchor, zeros (R274). -/
def Accum.imageBytes (a : Accum) : Nat := a.saveBytes + 2 ^ (8 * 8448) * (a.anchor.signExtend 64).toNat

/-! ### Save-area entries of line 24 (R273) -/

/-- AREA of entry q: the canonical VA of the save area. -/
def Strand.area (t : Strand) (q : Nat) : Word := sext 57 (bits ((t.save.toList[q]?).getD 0) 56 13 * 8192)
def Strand.savedAnchor (t : Strand) (q : Nat) : BitVec 11 := ((t.save.toList[q]?).getD 0).extractLsb' 0 11
def Strand.setSave (t : Strand) (q : Nat) (area : Word) (anchor : BitVec 11) : Strand :=
  { t with save := t.save.setIfInBounds q (word (bits area 56 13 * 8192 + anchor.toNat)), dirty := t.dirty ||| lineBit 24 }

def Strand.setHeld (t : Strand) (q : QReg) (on : Bool) : Strand :=
  { t with qheld := if on then t.qheld ||| BitVec.ofNat 16 (2 ^ q.val) else t.qheld &&& ~~~ (BitVec.ofNat 16 (2 ^ q.val)), dirty := t.dirty ||| lineBit 0 }

/-! ### Acquire, release, zero, anchor (R278, R279) -/

/-- R278. -/
def execQacq (d : QReg) (a : GReg) (s : State) : Host.Outcome State Fault Refusal :=
  run (do
    packetTrap
    let va := s.g a
    trapIf (s.src.qheld.getLsbD d.val) (unbound d)
    trapIf (decide (va.toNat < Config.scratchBase + Config.scratchSize) && decide (Config.scratchBase < va.toNat + saveSize)) (rangeCond 3 va)
    trapIf (va.toNat % 8192 != 0) (alignCond va 8192)
    let l ← allPages s.whoStore va saveSize
    match l.find? fun p => p.x.mt ≠ 0 with
    | some p => throw (.cond (typeCond p.va))
    | none => pure ()
    match (← get).myTile.freeAcc with
    | none => throw (.wait .acc)
    | some i =>
      modify fun (s : State) =>
        let s1 := s.modMyTile fun t => t.setAcc i { Accum.reset with bind := some (s.me.key, d) }
        { s1 with me := (s1.me.setSave d.val va 0).setHeld d true }) s

/-- R279. -/
def execQrel (d : QReg) (s : State) : Host.Outcome State Fault Refusal :=
  run (do
    let i ← theAcc d
    notBusy d
    sendRead d
    modify fun (s : State) =>
      let s1 := s.modMyTile fun t => t.setAcc i { t.acc i with bind := none, bad := false, retained := false }
      { s1 with me := s1.me.setHeld d false }) s

/-- R279. -/
def execQzero (d : QReg) (s : State) : Host.Outcome State Fault Refusal :=
  run (do
    let i ← theAcc d
    notBusy d
    sendRead d
    modify fun s => s.modMyTile fun t => t.setAcc i { t.acc i with elems := [], bad := false }) s

/-- R279. -/
def execQanchor (d : QReg) (a : GReg) (s : State) : Host.Outcome State Fault Refusal :=
  run (do
    let i ← theAcc d
    notBusy d
    trapIf (decide ((s.g a).toInt < -1024) || decide (1023 < (s.g a).toInt)) (rangeCond 6 0)
    sendRead d
    modify fun t => t.modMyTile fun t => t.setAcc i { t.acc i with elems := [], bad := false, anchor := (s.g a).setWidth 11 }) s

/-! ### MMA (R280–R283) -/

/-- A row of R281. `lay` is the layout of A: 0 elements of the tag's width, 1 bit planes. -/
structure MmaRow where
  k : Nat
  ta : Tag
  planes : Bool
  arow : Nat
  tb : Tag
  bcol : Nat
  scales : Nat

def mmaRow : MmaForm → MmaRow
  | .e4m3 => { k := 96, ta := .e4m3, planes := false, arow := 96, tb := .e4m3, bcol := 96, scales := 4 }
  | .e5m2 => { k := 96, ta := .e5m2, planes := false, arow := 96, tb := .e5m2, bcol := 96, scales := 4 }
  | .e2m1 => { k := 192, ta := .e2m1, planes := false, arow := 96, tb := .e2m1, bcol := 96, scales := 8 }
  | .i8 => { k := 96, ta := .i8, planes := true, arow := 96, tb := .i8, bcol := 96, scales := 0 }
  | .c4i8 => { k := 192, ta := .c4, planes := false, arow := 96, tb := .i8, bcol := 192, scales := 0 }
  | .ti8 => { k := 384, ta := .tern, planes := true, arow := 96, tb := .i8, bcol := 384, scales := 0 }
  | .bf16 => { k := 24, ta := .bf16, planes := false, arow := 48, tb := .bf16, bcol := 48, scales := 0 }
  | .f16 => { k := 24, ta := .f16, planes := false, arow := 48, tb := .f16, bcol := 48, scales := 0 }

/-- Fields of an operand register (R280): no scale, scale offset, operand offset. -/
def opNs (x : Word) : Bool := x.getLsbD 63
def opS (x : Word) : Nat := bits x 41 21
def opO (x : Word) : Nat := bits x 20 0

/-- The extents that an MMA checks, in the order A, B, A scales, B scales, each with its alignment. -/
def mmaExtents (r : MmaRow) (a b : Word) : List (Nat × Nat × Nat) :=
  (opO a, 32 * r.arow, 64) :: (opO b, 32 * r.bcol, 64) ::
    (if r.scales = 0 then [] else [(opS a, 32 * r.scales, 8), (opS b, 32 * r.scales, 8)])

/-- The granules of 64 B that an MMA reads, as offsets in the order of R283; scales of 1.0 are not read. -/
def mmaGranules (r : MmaRow) (a b : Word) : List Nat :=
  let span (off n : Nat) : List Nat := (List.range ((off + n + 63) / 64 - off / 64)).map fun i => (off / 64 + i) * 64
  span (opO a) (32 * r.arow) ++ (if r.scales = 0 || opNs a then [] else span (opS a) (32 * r.scales)) ++
    span (opO b) (32 * r.bcol) ++ (if r.scales = 0 || opNs b then [] else span (opS b) (32 * r.scales))

/-- The 64 KiB regions that granules lie in. -/
def regionsOf (l : List Nat) : BitVec 32 := l.foldl (fun x g => x ||| lineBit (g / 65536)) 0

def checkEach (f : Nat × Nat × Nat → M Unit) : List (Nat × Nat × Nat) → M Unit
  | [] => pure ()
  | e :: r => do f e; checkEach f r

/-- R283, up to the unit's queue. -/
def mma (form : MmaForm) (d : QReg) (a b : GReg) (k : KReg) : M Unit := do
  let s ← get
  let x := s.g a
  let y := s.g b
  let r := mmaRow form
  let _ ← theAcc d
  trapIf (bits x 62 42 != 0 || bits y 62 42 != 0) (rangeCond 6 0)
  let ext := mmaExtents r x y
  checkEach (fun e => trapIf (e.1 % e.2.2 != 0) (alignCond (scrVA e.1) e.2.2)) ext
  checkEach (fun e => trapIf (decide (Config.scratchSize < e.1 + e.2.1)) (rangeCond 2 (scrVA e.1))) ext
  checkEach (fun e => checkOwner e.1 e.2.1) ext
  claimHandle k
  unitRoom
  let seq ← startHandle k 2 false
  modify fun t => t.modMyTile fun u =>
    { u with mat := u.mat ++ [{ key := s.me.key, kreg := k, seq := seq, q := d, form := some form, a := x, b := y, ctab := s.src.ctab,
                                uses := regionsOf (mmaGranules r x y), got := [] }] }

/-- R283. -/
def execMmaE4m3 (d : QReg) (a b : GReg) (k : KReg) (s : State) : Host.Outcome State Fault Refusal :=
  run (mma .e4m3 d a b k) s

/-- R283. -/
def execMmaE5m2 (d : QReg) (a b : GReg) (k : KReg) (s : State) : Host.Outcome State Fault Refusal :=
  run (mma .e5m2 d a b k) s

/-- R283. -/
def execMmaE2m1 (d : QReg) (a b : GReg) (k : KReg) (s : State) : Host.Outcome State Fault Refusal :=
  run (mma .e2m1 d a b k) s

/-- R283. -/
def execMmaI8 (d : QReg) (a b : GReg) (k : KReg) (s : State) : Host.Outcome State Fault Refusal :=
  run (mma .i8 d a b k) s

/-- R283. -/
def execMmaC4i8 (d : QReg) (a b : GReg) (k : KReg) (s : State) : Host.Outcome State Fault Refusal :=
  run (mma .c4i8 d a b k) s

/-- R283. -/
def execMmaTi8 (d : QReg) (a b : GReg) (k : KReg) (s : State) : Host.Outcome State Fault Refusal :=
  run (mma .ti8 d a b k) s

/-- R283. -/
def execMmaBf16 (d : QReg) (a b : GReg) (k : KReg) (s : State) : Host.Outcome State Fault Refusal :=
  run (mma .bf16 d a b k) s

/-- R283. -/
def execMmaF16 (d : QReg) (a b : GReg) (k : KReg) (s : State) : Host.Outcome State Fault Refusal :=
  run (mma .f16 d a b k) s

/-- Code of element k of a row or column whose bytes start at `off` (R77, R80). -/
def mmaCode (t : Tile) (tag : Tag) (planes : Bool) (off k : Nat) : Nat :=
  let w := Tag.width tag
  if planes then
    packN 1 ((List.range w).map fun p => t.scrRead (off + 4 * (k / 32 * w + p) + k % 32 / 8) 1 / 2 ^ (k % 8) % 2)
  else if w < 8 then t.scrRead (off + k * w / 8) 1 / 2 ^ (k * w % 8) % 2 ^ w
  else t.scrRead (off + k * (w / 8)) (w / 8)

/-- AVal or BVal for a whole row or column (R282). -/
def mmaVals (t : Tile) (ctab : BitVec 128) (r : MmaRow) (tag : Tag) (planes : Bool) (off soff : Nat) (one : Bool) : List Val :=
  (List.range r.k).map fun k =>
    let v := elemVal tag ctab (mmaCode t tag planes off k)
    if r.scales = 0 then v else blockVal (if one then 0x7F else t.scrRead (soff + k / 24) 1) v

/-- R82 over the products of a row and a column. -/
def mmaSum (anc : Int) : Sum → List Val → List Val → Sum
  | a, x :: xs, y :: ys => mmaSum anc (a.step anc x y) xs ys
  | a, _, _ => a

/-- The elements after an MMA (R283). -/
def mmaElems (t : Tile) (o : MatOp) (form : MmaForm) (acc : Accum) : List Elem :=
  let r := mmaRow form
  let rows := (List.range 32).map fun i =>
    mmaVals t o.ctab r r.ta r.planes (opO o.a + i * r.arow) (opS o.a + i * r.scales) (opNs o.a)
  let cols := (List.range 32).map fun j =>
    mmaVals t o.ctab r r.tb false (opO o.b + j * r.bcol) (opS o.b + j * r.scales) (opNs o.b)
  let anc := acc.anchor.toInt
  (List.range 1024).map fun e =>
    let old := acc.elem e
    let c := (mmaSum anc (Sum.ofElem old.acc old.fl) ((rows[e / 32]?).getD []) ((cols[e % 32]?).getD [])).close
    { acc := c.1, fl := c.2 }

/-! ### Readout (R284) -/

def qread (sat : Bool) (d : VReg) (a : QReg) (row : BitVec 5) (fmt : Tag) (rm : Rnd) : M Unit := do
  let i ← theAcc a
  notBusy a
  accGood a i
  let s ← get
  let acc := s.myTile.acc i
  let lane (l : BitVec 32) (n : Nat) : Nat × BitVec 32 :=
    let e := acc.elem ((row.toNat + n / 32) % 32 * 32 + n % 32)
    rounded fmt s.src.ctab sat rm l (accVal e.acc e.fl acc.anchor.toInt)
  let (x, l) := eachLane fmt (BitVec.allOnes 128) 0 lane s.src.lfsr
  modify fun s => (s.setV d x fmt).setLfsr rm l

/-- R284. -/
def execQread (d : VReg) (a : QReg) (row : BitVec 5) (fmt : Tag) (rm : Rnd) (s : State) : Host.Outcome State Fault Refusal :=
  run (qread false d a row fmt rm) s

/-- R284. -/
def execQreadSat (d : VReg) (a : QReg) (row : BitVec 5) (fmt : Tag) (rm : Rnd) (s : State) : Host.Outcome State Fault Refusal :=
  run (qread true d a row fmt rm) s

/-! ### Reductions (R285–R287) -/

/-- Two 11-bit anchors as TINFO gives them: 16-bit two's complement, the first in bits 31:16. -/
def anchorCond (x y : BitVec 16) (a : Word) : Cond := { code := ANCHOR, tinfo := word (x.toNat * 2 ^ 16 + y.toNat), taddr := a }

/-- R285. -/
def execQadd (d a b : QReg) (s : State) : Host.Outcome State Fault Refusal :=
  run (do
    let ia ← theAcc a
    let ib ← theAcc b
    let id ← theAcc d
    notBusy a
    notBusy b
    notBusy d
    accGood a ia
    accGood b ib
    accGood d id
    let t := s.myTile
    let x := t.acc ia
    let y := t.acc ib
    trapIf (x.anchor != y.anchor) (anchorCond (x.anchor.signExtend 16) (y.anchor.signExtend 16) 0)
    sendRead d
    modify fun s => s.modMyTile fun t =>
      t.setAcc id { t.acc id with anchor := x.anchor, elems := (List.range 1024).map fun e => (x.elem e).add (y.elem e) }) s

/-- R286: the source register is d. -/
def execQsend (d : QReg) (a b : GReg) (k : KReg) (s : State) : Host.Outcome State Fault Refusal :=
  run (do
    let i ← theAcc d
    notBusy d
    accGood d i
    let off := (s.g a).toNat
    trapIf (bits (s.g b) 63 10 != 0) (rangeCond 6 0)
    trapIf (decide (Config.scratchSize < off + imageSize)) (rangeCond 2 (s.g a))
    trapIf (off % 64 != 0) (alignCond (scrVA off) 64)
    let there := (s.g b).toNat != s.here
    claimHandle k
    unitRoom
    release (if there then .c else .t)
    let seq ← startHandle k 2 there
    modify fun t => t.modMyTile fun u =>
      { u with mat := u.mat ++ [{ key := s.me.key, kreg := k, seq := seq, q := d, form := none, a := s.g a, b := s.g b, ctab := 0, uses := 0, got := [] }] }) s

/-- R287. -/
def execQaddm (d : QReg) (a : GReg) (s : State) : Host.Outcome State Fault Refusal :=
  run (do
    let i ← theAcc d
    notBusy d
    accGood d i
    let off := (s.g a).toNat
    trapIf (decide (Config.scratchSize < off + imageSize)) (rangeCond 2 (s.g a))
    trapIf (off % 64 != 0) (alignCond (scrVA off) 64)
    checkOwner off imageSize
    packetTrap
    let t := s.myTile
    waitIf ((List.range 1064).any fun j => !t.isFull (off + 8 * j)) (.image off)
    match (List.range 1064).find? fun j => t.scrBad (off + 8 * j) 8 with
    | some j => dataErrNow (scrVA (off + 8 * j))
    | none => pure ()
    let acc := t.acc i
    let anc := BitVec.ofNat 64 (t.scrRead (off + 8448) 8)
    trapIf (anc != acc.anchor.signExtend 64) (anchorCond (anc.setWidth 16) (acc.anchor.signExtend 16) (scrVA off))
    sendRead d
    let img := elemsOf (t.scrRead off 8448)
    let fromC := (List.range 1064).any fun j => t.scopeC.contains ((off + 8 * j) / 8)
    modify fun s => (s.modMyTile fun t =>
      (List.range 1064).foldl (fun t j => t.setEmpty (off + 8 * j))
        (t.setAcc i { acc with elems := (List.range 1024).map fun e => (acc.elem e).add ((img[e]?).getD Elem.zero) })).serve s.here off imageSize
    if fromC then modify fun s => s.acquire .c) s

end Sys2Proof.Machine
end

