-- ==== Sys2Proof/Machine/Launch.lean ====
section
/-!
DEFINITION. `wlaunch` (R246, R247) and the segment list of a launch (R294).
-/

namespace Sys2Proof.Machine

/-- The tests of R246 in order of their offsets. -/
def launchTests (x : Nat) : List (Nat × Bool) :=
  let nr := bytesAt x 8 15
  (0, bytesAt x 0 7 % 64 == 0) :: (8, decide (1 ≤ nr) && decide (nr ≤ 4)) :: (16, bytesAt x 16 31 == 0) ::
    (List.range 4).flatMap fun j =>
      let b := bytesAt x (32 + 16 * j) (39 + 16 * j)
      let n := bytesAt x (40 + 16 * j) (43 + 16 * j)
      let acc := bytesAt x (44 + 16 * j) (47 + 16 * j)
      if j < nr then [(32 + 16 * j, b % 64 == 0), (40 + 16 * j, n != 0 && n % 64 == 0), (44 + 16 * j, decide (1 ≤ acc) && decide (acc ≤ 3))]
      else [(32 + 16 * j, b == 0), (40 + 16 * j, n == 0), (44 + 16 * j, acc == 0)]

/-- The ranges of a launch descriptor. -/
def launchRanges (x : Nat) : List Range :=
  (List.range (min 4 (bytesAt x 8 15))).map fun j =>
    let acc := bytesAt x (44 + 16 * j) (47 + 16 * j)
    { base := word (bytesAt x (32 + 16 * j) (39 + 16 * j)), len := bytesAt x (40 + 16 * j) (43 + 16 * j), r := acc % 2 = 1, w := acc / 2 % 2 = 1 }

/-- Who an access to a range is: a store when W (R247). -/
def Range.who (r : Range) (w : Who) : Who := { w with store := r.w, acc := if r.w then 1 else 0 }

/-- The pages of every range, in order. -/
def rangesPages (w : Who) : List Range → M (List (List PagePart))
  | [] => pure []
  | r :: rs => do
    let l ← allPages (r.who w) r.base r.len
    return l :: (← rangesPages w rs)

/-- A page whose leaf has MB = 1 is waited for, IMAGE's or a range's, whatever its rights (R247, R408). -/
def pagesIdle (asid : BitVec 12) : List PagePart → M Unit
  | [] => pure ()
  | p :: r => do
    let s ← get
    match walk s asid (va57 p.va) with
    | .ok (_, leaf, _, _) => waitIf (!p.scr && leaf.getLsbD 58) .unit
    | .error _ => pure ()
    pagesIdle asid r

/-- The segment of a page (R294): whole pages, by their addresses in the stack. -/
def PagePart.seg (s : State) (range : Nat) (p : PagePart) : Seg :=
  let n := 2 ^ sizeShift p.x.size
  let pa := p.x.pa / n * n
  { range := range, va := va57 p.va / n * n, bytes := n, loc := ((s.place pa).getD (0, 0)).2, pa := pa, w := p.x.leaf.getLsbD 2 }

def segsOf (s : State) : Nat → List (List PagePart) → List Seg
  | _, [] => []
  | j, l :: r => l.map (PagePart.seg s j) ++ segsOf s (j + 1) r

def nearReleases : List (Range × List PagePart) → M Unit
  | [] => pure ()
  | (r, l) :: rest => do
    nearRelease r.base r.len l
    nearReleases rest

/-- The stack of a page. -/
def PagePart.stack (s : State) (p : PagePart) : Nat := ((s.place p.x.pa).getD (0, 0)).1

/-- R247. -/
def execWlaunch (d : KReg) (a : GReg) (s : State) : Host.Outcome State Fault Refusal :=
  run (do
    packetTrap
    let va := s.g a
    trapIf (va.toNat % 128 != 0) (alignCond va 128)
    let x ← readDesc va 128
    firstBad va (launchTests x)
    let image := word (bytesAt x 0 7)
    let ranges := launchRanges x
    let quiet (w : Who) : Who := { w with charge := none }
    let img ← allPages (quiet s.whoLoad) image 1
    let pages ← rangesPages (quiet s.whoLoad) ranges
    pagesIdle s.me.key.asid (img ++ pages.flatten)
    match (ranges.zip pages).find? fun e => 64 < e.2.length with
    | some e => throw (.cond (rangeCond 5 e.1.base))
    | none => pure ()
    trapIf (img.any (·.scr)) (rangeCond 3 image)
    nearCheck pages.flatten
    let pages ← rangesPages s.whoLoad ranges
    waitIf (8 ≤ s.myTile.launches) .launches
    waitIf (((img.head?).map fun p => s.crowded .req (1025 + slice p.x.pa)).getD false) .unit
    claimHandle d
    nearReleases (ranges.zip pages)
    let ip := (img.head?.map (·.x)).getD { pa := 0, mt := 0, size := 0, leaf := 0 }
    let imageEnd := ip.pa / 2 ^ sizeShift ip.size * 2 ^ sizeShift ip.size + 2 ^ sizeShift ip.size
    let imageLen := min (imageEnd - ip.pa) (64 + 0x20000 + 0x1FFE0)
    nearRelease image imageLen [{ va := image, len := imageLen, x := ip }]
    let seq ← startHandle d 4 false
    modify fun t =>
      let k : Kernel :=
        { asid := s.me.key.asid, tile := s.me.tile, key := s.me.key, kreg := d, seq := seq,
          stack := ((pages.flatten.head?).map (PagePart.stack t)).getD 0, image := ip.pa, imageEnd := imageEnd, ranges := ranges,
          segs := segsOf t 0 pages, args := (List.range 4).map fun j => word (bytesAt x (96 + 8 * j) (103 + 8 * j)), supv := s.me.supv }
      let k : Kernel := { k with rord := t.myTile.order .rsp, mseq := t.nextSeq .req s.here 1024 (.launch k) }
      (t.modMyTile fun u => { u with launches := u.launches + 1 }).send .req s.here 1024 (.launch k)) s

end Sys2Proof.Machine
end

