-- ==== Sys2Proof/Machine/Burlia.lean ====
section
/-!
DEFINITION. Burlia, the instruction set of the welt cores (R291–R312): what each instruction does to the core being stepped, its
kernel's memory, and the conditions that end a kernel (R300, R396–R398).
-/

namespace Sys2Proof.Machine

/-! ### How a Burlia instruction ends -/

/-- Why an instruction has no effect: a code of R300, an uncorrectable read with its granule number, or a wait. -/
inductive KStop
  | code (n : Nat)
  | bad (granule : BitVec 32)
  | wait
  deriving DecidableEq, Repr

abbrev K := EStateM KStop State

def State.modCore (s : State) (f : Core → Core) : State := { s with core := f s.core }
def modCore (f : Core → Core) : K Unit := modify fun s => s.modCore f

/-- The kernel's end, once its posted accesses are performed (R314, R397): its clamps go, and the completion leaves for the tile. -/
def State.finishKernel (s : State) (status : Byte) (info : BitVec 32) : State :=
  match s.core.kern with
  | none => s
  | some k =>
    let s1 := if status = 7 && (info.toNat % 256 = 8 || info.toNat % 256 = 9)
      then s.logEntry 6 (0x400 + s.coreAt / 16) [word (s.coreAt / 16), word (s.coreAt % 16), k.asid.setWidth 64, info.setWidth 64] else s
    { s1.sendEnd k status info with core := Core.reset }

/-- A condition ends the kernel: at once, or when the accesses that it has posted are performed (R397); a clamp that it waits
for is no longer asked for. -/
def State.endKernel (s0 : State) (status : Byte) (info : BitVec 32) : State :=
  let n := s0.coreAt / 16
  let s := s0.setStack n { s0.stack n with clampq := (s0.stack n).clampq.filter fun e => e.1 ≠ s0.coreAt }
  if s.core.posted.isEmpty then s.finishKernel status info
  else { s with core := { s.core with ends := some (status, info), waiting := false } }

/-- INFO of a KERNEL end (R300). -/
def kernInfo (code : Nat) (pc : BitVec 18) : BitVec 32 := BitVec.ofNat 32 (code + pc.toNat / 4 % 2 ^ 17 * 2 ^ 8)

def kRun (m : K Unit) (s : State) : Host.Outcome State Fault Refusal :=
  match m s with
  | .ok _ s' => .next { s' with ended := .ok }
  | .error (.code n) _ => .next { s.endKernel 7 (kernInfo n s.core.pc) with ended := .ok }
  | .error (.bad i) _ => .next { s.endKernel 5 i with ended := .ok }
  | .error .wait _ => .next { s with ended := .wait .unit }

def kFail (b : Bool) (n : Nat) : K Unit := if b then throw (.code n) else pure ()

def REACH : Nat := 2
def ALIGN : Nat := 3
def CLAMPCODE : Nat := 4
def SRAM : Nat := 5
def FORMAT : Nat := 6

/-! ### Pointers (R292) and what they name (R294, R295) -/

def pSpace (p : Word) : Nat := bits p 63 62
def pStr (p : Word) : Int := sint 24 (bits p 61 38)
def pAddr (p : Word) : Nat := bits p 37 0

/-- Where an operand lies: an SRAM offset, or an address of the kernel's stack. -/
inductive Loc
  | sram (off : Nat)
  | dram (loc : Nat)
  deriving DecidableEq, Repr

/-- Bytes of a range's reach (R294). -/
def Kernel.reach (k : Kernel) (j : Nat) : Nat := ((k.segs.filter fun g => g.range = j).map (·.bytes)).sum

/-- The stack-local address of byte o of range j's reach. -/
def segLoc : List Seg → Nat → Option Nat
  | [], _ => none
  | g :: r, o => if o < g.bytes then some (g.loc + o) else segLoc r (o - g.bytes)

/-- Checks of one operand in the order of R396: SRAM, REACH, ALIGN. `rng` is the range that an indexed row must stay in. -/
def kLoc (k : Kernel) (space : Nat) (addr : Int) (size align : Nat) (write dram : Bool) (rng : Option Nat) : Except Nat Loc :=
  if space = 1 then
    if addr < 0 || 2 ^ 18 ≤ addr || 0x40000 < addr + size || (write && addr < 0x20000) then .error SRAM
    else if dram then .error REACH
    else if addr % align ≠ 0 then .error ALIGN
    else .ok (.sram addr.toNat)
  else if space ≠ 0 || addr < 0 || 2 ^ 38 ≤ addr then .error REACH
  else
    let j := addr.toNat / 2 ^ 36
    let o := addr.toNat % 2 ^ 36
    if rng.any (fun r => r != j) then .error REACH
    else match k.ranges[j]? with
      | none => .error REACH
      | some r =>
        if (if write then !r.w else !r.r) then .error REACH
        else if k.reach j < o + size then .error REACH
        else if o % align ≠ 0 then .error ALIGN
        else match segLoc (k.segs.filter fun g => g.range = j) o with
          | none => .error REACH
          | some l => .ok (.dram l)

def kOf : K Kernel := do
  match (← get).core.kern with
  | some k => return k
  | none => throw .wait

def liftLoc : Except Nat Loc → K Loc
  | .ok l => pure l
  | .error n => throw (.code n)

def State.ptr (s : State) (n : PReg) : Word := s.core.p[n]

/-- The access at Pn (R301). -/
def kPtr (n : PReg) (size : Nat) (write : Bool) (dram : Bool := false) (align : Nat := size) : K Loc := do
  let k ← kOf
  let p := (← get).ptr n
  liftLoc (kLoc k (pSpace p) (pAddr p) size align write dram none)

/-- The row of an indexed operand, whose pointer must itself be one of R292: that of a gathered reduction must stay in Pb's reach (R306); the target of `faddnx`
must be DRAM (R307) in any range (R294). -/
def kRow (n : PReg) (idx size : Nat) (write dram : Bool) : K Loc := do
  let k ← kOf
  let p := (← get).ptr n
  kFail (pSpace p == 1 && decide (2 ^ 18 ≤ pAddr p)) SRAM
  liftLoc (kLoc k (pSpace p) ((pAddr p : Int) + (idx : Int) * pStr p) size size write dram (if pSpace p = 0 && !dram then some (pAddr p / 2 ^ 36) else none))

/-- Whether another core clamps the bank of an address of the kernel's stack (R142). -/
def State.clampedByOther (s : State) (stack loc : Nat) : Bool :=
  s.cores.any fun e => e.1 / 16 = stack && e.1 ≠ s.coreAt && e.2.clamps.contains (s.bank stack loc)

/-! ### Accesses (R301, R307, R308) -/

/-- Lanes of A. -/
def laneA (a : BitVec 512) (l : Nat) : Nat := (a.extractLsb' (32 * l) 32).toNat
def ofLanesA (f : Nat → Nat) : BitVec 512 := BitVec.ofNat 512 (packN 32 ((List.range 16).map f))

/-- What a posted access makes of its 64 B granule (R307). -/
def Posted.apply (p : Posted) (old : Nat) : Nat :=
  let cell (l : Nat) : Nat := old / 2 ^ (32 * l) % 2 ^ 32
  match p with
  | .write loc len data =>
    let sh := 256 ^ (loc % 64)
    old % sh + sh * (data.toNat % 256 ^ len) + old / (sh * 256 ^ len) * (sh * 256 ^ len)
  | .faddn _ a rm => packN 32 ((List.range 16).map fun l => fmtF32.round false rm 0 ((fmtF32.val (cell l)).add rm (fmtF32.val (laneA a l))))
  | .fmaxn _ a => packN 32 ((List.range 16).map fun l => fmtF32.maxCode' (cell l) (laneA a l))

def Posted.loc : Posted → Nat
  | .write l _ _ => l
  | .faddn l _ _ => l
  | .fmaxn l _ => l

/-- A granule of the kernel's stack as DRAM holds it. -/
def State.granule (s : State) (stack loc : Nat) : Nat := Mem.readN s.mem (s.unplace stack (loc / 64 * 64)) 64

/-- A DRAM write of whole words makes them good again (R362, log 59). -/
def State.mend (s : State) (pa n : Nat) : State :=
  if s.bad.isEmpty then s else { s with bad := s.bad.filter fun w => !(decide (pa ≤ 8 * w) && decide (8 * w + 8 ≤ pa + n)) }

/-- The bytes of its granule that a posted access writes. -/
def Posted.mask : Posted → Nat
  | .write loc len _ => (2 ^ len - 1) * 2 ^ (loc % 64)
  | _ => 2 ^ 64 - 1

/-- A posted access is performed at the stack controller; the uncorrectable words that it meets stay as they were, and are logged (R375). -/
def State.performPosted (s0 : State) (stack : Nat) (p : Posted) : State :=
  let pa := s0.unplace stack (p.loc / 64 * 64)
  let s := match p with
    | .write loc len _ => s0.mend (pa + loc % 64) len
    | _ => s0
  let lost := p.mask &&& (s.badMask (pa / 128)).toNat / 2 ^ (pa % 128)
  let s1 := if lost = 0 then s else s.logUncorr (0x400 + stack) pa 5 (BitVec.ofNat 128 (lost * 2 ^ (pa % 128)))
  { s1 with mem := Mem.writeMasked s1.mem pa (p.mask - lost) 64 (p.apply (s.granule stack p.loc)), cxl := s1.cxl.filter fun n => n ≠ pa / 128 }

/-- A posted access that writes what it carries, and no more. -/
def Posted.isWrite : Posted → Bool
  | .write .. => true
  | _ => false

/-- Reads `n` bytes; the kernel sees its own posted accesses in program order (R308): its writes at once, with the words that they make good
(R362), its near atomics once they are performed, so that they keep one order with every other core's (R307). -/
def kRead (l : Loc) (n : Nat) : K Nat := do
  let s ← get
  match l with
  | .sram off => return Mem.readN s.core.sram off n
  | .dram loc =>
    let k ← kOf
    if s.clampedByOther k.stack loc then throw .wait
    let mine := s.core.posted.filter fun p => p.loc / 64 = loc / 64
    if mine.any fun p => !p.isWrite then throw .wait
    let pa := s.unplace k.stack (loc / 64 * 64)
    let mended := mine.foldl (fun s p => match p with | .write l len _ => s.mend (pa + l % 64) len | _ => s) s
    if mended.badIn pa 64 then throw (.bad s.core.reads)
    modCore fun c => { c with reads := c.reads + 1 }
    return mine.foldl (fun g p => p.apply g) (s.granule k.stack loc) / 256 ^ (loc % 64) % 256 ^ n

def kPost (p : Posted) : K Unit := modCore fun c => { c with posted := c.posted ++ [p], writes := c.writes + 1 }

/-- Writes `n` bytes: into SRAM at once, into DRAM posted. -/
def kWrite (l : Loc) (n v : Nat) : K Unit :=
  match l with
  | .sram off => modCore fun c => { c with sram := Mem.writeN c.sram off n v }
  | .dram loc => kPost (.write loc n (BitVec.ofNat 512 v))

def setP (n : PReg) (x : Word) : K Unit := modCore fun c => { c with p := c.p.set n x }

/-- Post-increment (R292). -/
def kInc (n : PReg) (on : Bool) : K Unit :=
  if on then modCore fun c => { c with p := c.p.set n (setBits c.p[n] 37 0 ((pAddr c.p[n] : Int) + pStr c.p[n] + 2 ^ 38).toNat) } else pure ()

def setPc (x : BitVec 18) : K Unit := modCore fun c => { c with pc := x }
def kNext : K Unit := modCore fun c => { c with pc := c.pc + 4 }

/-- A target outside the code region keeps bit 17, so that its fetch fails (R303). -/
def targetPc (pc : BitVec 18) (off : BitVec 20) : BitVec 18 :=
  let t : Int := (pc.toNat : Int) + 4 * off.toInt
  if 0 ≤ t && t < 0x20000 then BitVec.ofNat 18 t.toNat else BitVec.ofNat 18 (0x20000 + (t % 0x20000).toNat)

def kJump (taken : Bool) (off : BitVec 20) : K Unit := if taken then modCore fun c => { c with pc := targetPc c.pc off } else kNext

/-! ### Flags (R293) -/

def fCL (f : Word) : Bool := f.getLsbD 0

/-! ### Control (R303, R314) -/

/-- R303. -/
def execNop (s : State) : Host.Outcome State Fault Refusal :=
  kRun kNext s

/-- R314: waits for the posted accesses; then the clamps go and the completion leaves. -/
def execHalt (s : State) : Host.Outcome State Fault Refusal :=
  kRun (do
    if !(← get).core.posted.isEmpty then throw .wait
    modify fun s => s.finishKernel 0 0) s

/-- R303. -/
def execB (off : BitVec 20) (s : State) : Host.Outcome State Fault Refusal :=
  kRun (kJump true off) s

/-- R303. -/
def execLoop (off : BitVec 20) (s : State) : Host.Outcome State Fault Refusal :=
  kRun (do
    modCore fun c => { c with c := c.c - 1 }
    kJump (s.core.c - 1 != 0) off) s

/-- R303. -/
def execBcz (off : BitVec 20) (s : State) : Host.Outcome State Fault Refusal :=
  kRun (kJump (s.core.c == 0) off) s

/-- R303. -/
def execBcl (off : BitVec 20) (s : State) : Host.Outcome State Fault Refusal :=
  kRun (do
    if fCL s.core.f then modCore fun c => { c with f := setBits c.f 0 0 0 }
    kJump (fCL s.core.f) off) s

/-! ### Count and pointers (R304, R309) -/

/-- R304. -/
def execSetc (imm : BitVec 23) (s : State) : Host.Outcome State Fault Refusal :=
  kRun (do
    modCore fun c => { c with c := imm.setWidth 64 }
    kNext) s

/-- R304. -/
def execLdc (a : PReg) (ia : Bool) (s : State) : Host.Outcome State Fault Refusal :=
  kRun (do
    let l ← kPtr a 8 false
    let x ← kRead l 8
    modCore fun c => { c with c := word x }
    kInc a ia
    kNext) s

/-- R304. -/
def execPsets (d : PReg) (imm : BitVec 18) (s : State) : Host.Outcome State Fault Refusal :=
  kRun (do
    setP d (word (2 ^ 62 + imm.toNat))
    kNext) s

/-- R304. -/
def execPstride (d : PReg) (imm : BitVec 23) (s : State) : Host.Outcome State Fault Refusal :=
  kRun (do
    setP d (setBits (s.ptr d) 61 38 (imm.signExtend 24).toNat)
    kNext) s

/-- R304. -/
def execPaddi (d : PReg) (imm : BitVec 23) (s : State) : Host.Outcome State Fault Refusal :=
  kRun (do
    setP d (setBits (s.ptr d) 37 0 (pAddr (s.ptr d) + (imm.signExtend 38).toNat))
    kNext) s

/-- R304: the value loaded is checked only when it is used. -/
def execPld (a b : PReg) (ia : Bool) (s : State) : Host.Outcome State Fault Refusal :=
  kRun (do
    let l ← kPtr a 8 false
    let x ← kRead l 8
    setP b (word x)
    kInc a ia
    kNext) s

/-- R304. -/
def execPmov (a b : PReg) (s : State) : Host.Outcome State Fault Refusal :=
  kRun (do
    setP b (s.ptr a)
    kNext) s

/-- R309: posted after every earlier write, which are performed in order. -/
def execPost (a : PReg) (ia : Bool) (s : State) : Host.Outcome State Fault Refusal :=
  kRun (do
    let l ← kPtr a 8 true true
    kWrite l 8 s.core.c.toNat
    kInc a ia
    kNext) s

/-- R304. -/
def execMov64 (a b : PReg) (ia ib : Bool) (s : State) : Host.Outcome State Fault Refusal :=
  kRun (do
    let la ← kPtr a 64 false
    let lb ← kPtr b 64 true
    let x ← kRead la 64
    kWrite lb 64 x
    kInc a ia
    kInc b ib
    kNext) s

/-! ### The accumulator (R302, R305) -/

/-- Element size of a format (R302). -/
def elemSize : Tag → Nat
  | .f32 | .i32 => 4
  | .bf16 | .f16 => 2
  | _ => 1

def isIntFmt : Tag → Bool
  | .i32 | .i8 => true
  | _ => false

/-- FORMAT: the tag that an instruction's class requires (R302). -/
def needTag (fmt : Tag) : K Unit := do kFail ((← get).core.atag != (if isIntFmt fmt then .i32 else .f32)) FORMAT

/-- An element read into a lane: the lane's bits (R302). -/
def readElem (fmt : Tag) (code : Nat) : Nat :=
  match fmt with
  | .bf16 => fmtF32.round false .rne 0 (fmtBf16.val code)
  | .f16 => fmtF32.round false .rne 0 (fmtF16.val code)
  | .e4m3 => fmtF32.round false .rne 0 (fmtE4m3.val code)
  | .i8 => wrapInt 32 (sint 8 code)
  | _ => code

/-- A lane written as an element (R302). An f32 lane is representable, so its rounding only makes a NaN the
canonical one (R72). -/
def writeElem (fmt : Tag) (rm : Rnd) (lane : Nat) : Nat :=
  match fmt with
  | .f32 => fmtF32.round false rm 0 (fmtF32.val lane)
  | .bf16 => fmtBf16.round false rm 0 (fmtF32.val lane)
  | .f16 => fmtF16.round false rm 0 (fmtF32.val lane)
  | .e4m3 => fmtE4m3.round true rm 0 (fmtF32.val lane)
  | .i8 => wrapInt 8 (satInt true 8 (sint 32 lane))
  | _ => lane

/-- Element l of what an access of 16 elements returned, as a lane. -/
def elemLane (fmt : Tag) (x l : Nat) : Nat := readElem fmt (x / 256 ^ (elemSize fmt * l) % 256 ^ elemSize fmt)

def addLane (fmt : Tag) (rm : Rnd) (a x : Nat) : Nat :=
  if isIntFmt fmt then (a + x) % 2 ^ 32 else fmtF32.round false rm 0 ((fmtF32.val a).add rm (fmtF32.val x))
def maxLane (fmt : Tag) (a x : Nat) : Nat :=
  if isIntFmt fmt then (if sint 32 a < sint 32 x then x else a) else fmtF32.maxCode' a x
def minLane (fmt : Tag) (a x : Nat) : Nat :=
  if isIntFmt fmt then (if sint 32 x < sint 32 a then x else a) else fmtF32.minCode a x

def setA (x : BitVec 512) (t : Tag) : K Unit := modCore fun c => { c with a := x, atag := t }

/-- Each lane combined with the element read at Pa. -/
def lanesWith (a : PReg) (ia : Bool) (fmt : Tag) (f : Nat → Nat → Nat) : K Unit := do
  needTag fmt
  let n := 16 * elemSize fmt
  let l ← kPtr a n false
  let x ← kRead l n
  let c := (← get).core
  setA (ofLanesA fun i => f (laneA c.a i) (elemLane fmt x i)) c.atag
  kInc a ia
  kNext

/-- R305. -/
def execAzero (fmt : Tag) (s : State) : Host.Outcome State Fault Refusal :=
  kRun (do
    setA 0 fmt
    kNext) s

/-- R305. -/
def execAld (a : PReg) (ia : Bool) (fmt : Tag) (s : State) : Host.Outcome State Fault Refusal :=
  kRun (do
    let n := 16 * elemSize fmt
    let l ← kPtr a n false
    let x ← kRead l n
    setA (ofLanesA fun i => elemLane fmt x i) (if isIntFmt fmt then .i32 else .f32)
    kInc a ia
    kNext) s

/-- R305. -/
def execAst (a : PReg) (ia : Bool) (fmt : Tag) (rm : Rnd) (s : State) : Host.Outcome State Fault Refusal :=
  kRun (do
    needTag fmt
    let n := 16 * elemSize fmt
    let l ← kPtr a n true
    kWrite l n (packN (8 * elemSize fmt) ((List.range 16).map fun i => writeElem fmt rm (laneA s.core.a i)))
    kInc a ia
    kNext) s

/-- R305. -/
def execAadd (a : PReg) (ia : Bool) (fmt : Tag) (rm : Rnd) (s : State) : Host.Outcome State Fault Refusal :=
  kRun (lanesWith a ia fmt (addLane fmt rm)) s

/-- R305. -/
def execAmax (a : PReg) (ia : Bool) (fmt : Tag) (s : State) : Host.Outcome State Fault Refusal :=
  kRun (lanesWith a ia fmt (maxLane fmt)) s

/-- R305. -/
def execAmin (a : PReg) (ia : Bool) (fmt : Tag) (s : State) : Host.Outcome State Fault Refusal :=
  kRun (lanesWith a ia fmt (minLane fmt)) s

/-- R305: one rounding. -/
def execAfma (a b : PReg) (ia ib : Bool) (fmt : Tag) (rm : Rnd) (s : State) : Host.Outcome State Fault Refusal :=
  kRun (do
    needTag fmt
    let n := 16 * elemSize fmt
    let la ← kPtr a n false
    let lb ← kPtr b n false
    let x ← kRead la n
    let y ← kRead lb n
    setA (ofLanesA fun i => fmtF32.round false rm 0
      ((fmtF32.val (laneA s.core.a i)).add rm ((fmtF32.val (elemLane fmt x i)).mul (fmtF32.val (elemLane fmt y i))))) s.core.atag
    kInc a ia
    kInc b ib
    kNext) s

/-- R305. -/
def execAscale (a : PReg) (ia : Bool) (rm : Rnd) (s : State) : Host.Outcome State Fault Refusal :=
  kRun (do
    needTag .f32
    let l ← kPtr a 4 false
    let x ← kRead l 4
    setA (ofLanesA fun i => fmtF32.round false rm 0 ((fmtF32.val (laneA s.core.a i)).mul (fmtF32.val x))) .f32
    kInc a ia
    kNext) s

/-- A lane converted by `acvt` (R305). -/
def acvtLane (old fmt : Tag) (rm : Rnd) (x : Nat) : Nat :=
  if old = .f32 && fmt = .i32 then wrapInt 32 (roundInt true 32 rm 0 (fmtF32.val x))
  else if old = .i32 && fmt = .f32 then fmtF32.round false rm 0 (.ofInt (sint 32 x))
  else x

/-- R305. -/
def execAcvt (fmt : Tag) (rm : Rnd) (s : State) : Host.Outcome State Fault Refusal :=
  kRun (do
    setA (ofLanesA fun i => acvtLane s.core.atag fmt rm (laneA s.core.a i)) fmt
    kNext) s

/-! ### Gathered reductions and near atomics (R306, R307) -/

/-- R306: the index is read, then its row, in program order. -/
def gathered (a b : PReg) (ia : Bool) (fmt : Tag) (f : Nat → Nat → Nat) : K Unit := do
  needTag fmt
  let la ← kPtr a 4 false
  let idx ← kRead la 4
  let n := 16 * elemSize fmt
  let lb ← kRow b idx n false false
  let x ← kRead lb n
  let c := (← get).core
  setA (ofLanesA fun i => f (laneA c.a i) (elemLane fmt x i)) c.atag
  kInc a ia
  kNext

/-- R306. -/
def execAddx (a b : PReg) (ia : Bool) (fmt : Tag) (rm : Rnd) (s : State) : Host.Outcome State Fault Refusal :=
  kRun (gathered a b ia fmt (addLane fmt rm)) s

/-- R306. -/
def execMaxx (a b : PReg) (ia : Bool) (fmt : Tag) (s : State) : Host.Outcome State Fault Refusal :=
  kRun (gathered a b ia fmt (maxLane fmt)) s

/-- Posts a near atomic at an address of the stack. -/
def near (l : Loc) (p : Nat → Posted) : K Unit :=
  match l with
  | .dram loc => kPost (p loc)
  | .sram _ => throw (.code REACH)

/-- R307. -/
def execFaddn (a : PReg) (ia : Bool) (rm : Rnd) (s : State) : Host.Outcome State Fault Refusal :=
  kRun (do
    needTag .f32
    near (← kPtr a 64 true true) fun l => .faddn l s.core.a rm
    kInc a ia
    kNext) s

/-- R307. -/
def execFmaxn (a : PReg) (ia : Bool) (s : State) : Host.Outcome State Fault Refusal :=
  kRun (do
    needTag .f32
    near (← kPtr a 64 true true) fun l => .fmaxn l s.core.a
    kInc a ia
    kNext) s

/-- R307: the index may lie in SRAM or in DRAM, the target in DRAM. -/
def execFaddnx (a b : PReg) (ia : Bool) (rm : Rnd) (s : State) : Host.Outcome State Fault Refusal :=
  kRun (do
    needTag .f32
    let la ← kPtr a 4 false
    let idx ← kRead la 4
    near (← kRow b idx 64 true true) fun l => .faddn l s.core.a rm
    kInc a ia
    kNext) s

/-! ### Clamps (R310) -/

/-- A clamp's flags: CH0, CH1 when two banks are held, CL clear. -/
def clampFlags (f : Word) (banks : List (Nat × Nat)) : Word := setBits (setBits f 3 2 (1 + 2 * (2 ≤ banks.length : Bool).toNat)) 0 0 0

/-- Whether the request at the position can be granted: it is the oldest on each of its banks, and none is clamped. -/
def canGrant (s : State) (stack : Nat) (q : List (Nat × List (Nat × Nat))) (i : Nat) : Bool :=
  match q[i]? with
  | none => false
  | some (_, banks) =>
    banks.all fun b =>
      !((q.take i).any fun e => e.2.contains b) && !(s.cores.any fun e => e.1 / 16 = stack && e.2.clamps.contains b) && !s.core.clamps.contains b

/-- The core takes its banks, and goes on. -/
def Core.take (c : Core) (banks : List (Nat × Nat)) : Core :=
  { c with clamps := banks, f := clampFlags c.f banks, waiting := false, pc := c.pc + 4 }

/-- A request joins its stack's queue; it is granted at once when nothing stands in its way. -/
def requestClamp (banks : List (Nat × Nat)) : K Unit := do
  let s ← get
  let k ← kOf
  let y := s.stack k.stack
  if s.core.waiting then throw .wait
  if canGrant s k.stack (y.clampq ++ [(s.coreAt, banks)]) y.clampq.length then modCore fun c => c.take banks
  else
    set (s.setStack k.stack { y with clampq := y.clampq ++ [(s.coreAt, banks)] })
    modCore fun c => { c with waiting := true }

/-- The bank of a clamp operand, which needs W rights to DRAM; an SRAM operand is REACH wherever it lies; a core that already holds a clamp ends
with CLAMP. -/
def clampBank (a : PReg) : K (Nat × Nat) := do
  let l ← kPtr a 1 (pSpace ((← get).ptr a) ≠ 1) true 1
  let s ← get
  let k ← kOf
  kFail (!s.core.clamps.isEmpty) CLAMPCODE
  match l with
  | .dram loc => return s.bank k.stack loc
  | .sram _ => throw (.code REACH)

/-- R310. -/
def execClamp (a : PReg) (s : State) : Host.Outcome State Fault Refusal :=
  kRun (do
    let b ← clampBank a
    requestClamp [b]) s

/-- R310: two banks, which may be one. -/
def execClampTwoBank (a b : PReg) (s : State) : Host.Outcome State Fault Refusal :=
  kRun (do
    let x ← clampBank a
    let y ← clampBank b
    requestClamp (if x = y then [x] else [x, y])) s

/-- R310. -/
def execUnclamp (s : State) : Host.Outcome State Fault Refusal :=
  kRun (do
    modCore fun c => { c with clamps := [], f := setBits c.f 3 2 0 }
    kNext) s

/-! ### Row operations (R311, R398) -/

/-- A row operand: its address, or none when the instruction leaves its loop for a bank that suspension took. -/
def rowAt (a : PReg) (write : Bool) : K (Option Nat) := do
  let l ← kPtr a 2048 write true
  let s ← get
  let k ← kOf
  match l with
  | .sram _ => throw (.code REACH)
  | .dram loc =>
    if s.core.clamps.contains (s.bank k.stack loc) then return some loc
    else if fCL s.core.f then return none
    else throw (.code CLAMPCODE)

/-- A row waits for the accesses that the kernel has posted to it. -/
def rowIdle (loc : Nat) : K Unit := do
  if (← get).core.posted.any fun p => p.loc / 2048 = loc / 2048 then throw .wait

/-- After one row: C goes down, and the instruction ends with the last row. -/
def rowDone : K Unit := do
  modCore fun c => { c with c := c.c - 1, writes := c.writes + 32 }
  if (← get).core.c = 0 then kNext

/-- A row is written in the DRAM; lines of it that the host holds are back-invalidated first (R330). -/
def writeRow (loc v : Nat) : K Unit := do
  let s ← get
  let k ← kOf
  let pa := s.unplace k.stack loc
  let s1 := s.mend pa 2048
  set ({ s1 with mem := Mem.writeN s.mem pa 2048 v, cxl := s.cxl.filter fun n => !(decide (pa / 128 ≤ n) && decide (n < pa / 128 + 16)) } : State)

/-- R311: one row; an instruction boundary falls after it. -/
def execRowzero (a : PReg) (ia : Bool) (s : State) : Host.Outcome State Fault Refusal :=
  kRun (do
    if s.core.c = 0 then kNext else
    match ← rowAt a true with
    | none => kNext
    | some loc =>
      rowIdle loc
      writeRow loc 0
      kInc a ia
      rowDone) s

/-- R311: the row at Pb becomes the row at Pa. -/
def execRowcopy (a b : PReg) (ia ib : Bool) (s : State) : Host.Outcome State Fault Refusal :=
  kRun (do
    if s.core.c = 0 then kNext else
    match ← rowAt a false with
    | none => kNext
    | some la =>
      match ← rowAt b true with
      | none => kNext
      | some lb =>
        rowIdle la
        rowIdle lb
        let k ← kOf
        let pa := s.unplace k.stack la
        match (List.range 32).find? fun i => s.badIn (pa + 64 * i) 64 with
        | some i => throw (.bad (s.core.reads + BitVec.ofNat 32 i))
        | none => pure ()
        modCore fun c => { c with reads := c.reads + 32 }
        writeRow lb (Mem.readN s.mem pa 2048)
        kInc a ia
        kInc b ib
        rowDone) s

end Sys2Proof.Machine
end

