-- ==== Sys2Proof/Machine/Fetch.lean ====
section
/-!
DEFINITION. Bringing a strand forward to be stepped, fetching its next pair (R87, R95, R160, R161), and the data errors that
wait for a pair boundary (R370).
-/

namespace Sys2Proof.Machine

/-! ### The strand being stepped -/

/-- The stepped strand goes back among the others. -/
def State.unload (s : State) : State :=
  if s.me.key = Strand.reset.key then s else { s.putStrand s.me with me := Strand.reset, view := none }

/-- Another strand comes forward. -/
def State.load (s : State) (t : Strand) : State := { s.unload with me := t, view := none }

/-- Does something as one strand; nothing when there is no such strand. -/
def State.as (s : State) (key : Key) (f : State → State) : State :=
  match s.theStrand? key with
  | some t => (f (s.load t)).unload
  | none => s

/-- The strand being stepped is gone. -/
def State.noOne (s : State) : State := { s with me := Strand.reset, view := none }

/-! ### Instruction fetch -/

/-- What a fetch meets: the two words, a condition, a miss of a line, or a wait for a walk. -/
inductive Fetched
  | words (w0 w1 : BitVec 32)
  | cond (c : Cond)
  | miss (line : Nat)
  | stall
  deriving DecidableEq, Repr

/-- A line enters the instruction cache, most recent of its 4 ways (R160). -/
def icachePut (line : Nat) (x : Line) (l : List (Nat × Line)) : List (Nat × Line) :=
  let rest := l.filter fun e => e.1 ≠ line
  let keep := (rest.filter fun e => e.1 % 128 = line % 128).take 3
  (line, x) :: rest.filter fun e => e.1 % 128 ≠ line % 128 || keep.any fun k => k.1 = e.1

/-- The pair at the PC of the strand being stepped. -/
def State.fetch (s : State) : Fetched × State :=
  let pc := s.me.pc
  if !canon pc then (.cond { code := ADDRFORM, taddr := pc }, s) else
  match translate s s.whoFetch (va57 pc) with
  | .error e =>
    match e.stop s.whoFetch pc pc with
    | .cond c => (.cond c, s.denied s.whoFetch (va57 pc))
    | .wait _ => (.stall, s)
  | .ok (x, s1) =>
    if x.mt = 3 then (.cond (typeCond pc), s1) else
    match s1.win x.pa with
    | .none | .remote _ | .reg _ => (.cond (windowCond s.whoFetch pc), s1)
    | _ =>
      match look (x.pa / 128) s1.myTile.icache with
      | some d =>
        let w := wordAt d (x.pa % 128 / 8)
        (.words (w.setWidth 32) (w.extractLsb' 32 32), s1.modMyTile fun t => { t with icache := icachePut (x.pa / 128) d t.icache })
      | none =>
        if s1.badIn (x.pa / 128 * 128) 128 then (.cond { code := DATAERR, tinfo := pc, taddr := pc }, s1.logOut s1.here (x.pa / 128 * 128) 128)
        else (.miss (x.pa / 128), s1)

/-- The register lines that the pair at the PC lacks (R35). -/
def State.lacks (s : State) (p : Pair) : BitVec 32 := Pair.lines p &&& ~~~ s.me.present

/-! ### Deferred data errors (R370) -/

/-- The oldest error decides; the others are dropped and logged. -/
def State.takeErrs (s : State) : State :=
  match s.me.errs with
  | [] => s
  | (a, pair) :: r =>
    let s1 := r.foldl (fun s e => s.logDrop s.here e.1) s
    ({ s1 with me := { s1.me with errs := [] } } : State).takeCond { code := DATAERR, tinfo := pair, taddr := a }

end Sys2Proof.Machine
end

