-- ==== Sys2Proof/Machine/Schedule.lean ====
section
/-!
DEFINITION. Scheduling of strands: what ends a wait, dispatch of ready records (R37–R54, R275, R403, R404), deactivation, slot
rotation and watchdog notices (R37, R40, R374), and the fills that a stalled strand waits for (R35, R160, R275).
-/

namespace Sys2Proof.Machine

/-! ### The end of a wait (R37, R38) -/

/-- Whether the word that a strand watches now differs from the value it had (R192), read without any effect. -/
def State.wordDiffers (s : State) (t : Strand) (va : Word) (p : Word → Bool) : Bool :=
  if isScratch va.toNat then p (word ((s.tile t.tile.toNat).scrRead (va.toNat - Config.scratchBase) 8))
  else match agentXl s (agentWho t.key.asid t.tile.toNat t.supv false 0) va with
    | .error _ => true
    | .ok (x, _) => match s.win x.pa with
      | .reg _ | .remote _ | .none => false
      | _ => p (word (s.homeRead x.pa 8))

/-- The words that a strand watches, each with the test that ends its wait: `waitw`'s, or the cells of imported handles (R192, R202). -/
def Strand.watched (t : Strand) : List (Word × (Word → Bool)) :=
  let cell : Word → Bool := fun x => hState x = 2
  match t.wait with
  | some (.word va old) => [(va, fun x => x != old)]
  | some (.cell va) => [(va, cell)]
  | some (.handle k) => (List.finRange 8).filterMap fun n => if k.getLsbD n.val && hPending t.k[n] && hKind t.k[n] = 5 then some (t.xw[n], cell) else none
  | _ => []

/-- Whether what a strand waits for has happened. -/
def State.waitOver (s : State) (t : Strand) (w : Wait) : Bool :=
  let u := s.tile t.tile.toNat
  let first (n : Nat) : Bool := u.waiter n == none || u.waiter n == some t.key
  match w with
  | .handle k => ((List.range 8).any fun n => k.getLsbD n && !hPending ((t.k.toList[n]?).getD 0)) || t.watched.any fun e => s.wordDiffers t e.1 e.2
  | .handles _ => t.pendingEngines = 0
  | .word _ _ | .cell _ => t.watched.any fun e => s.wordDiffers t e.1 e.2
  | .full off take => t.ans.isSome || (u.isFull off && (!take || first (3 * (off / 8) + 1)))
  | .empty off _ => t.ans.isSome || (!u.isFull off && first (3 * (off / 8) + 2))
  | .barrier => match t.arrival with
    | some a => a.result.isSome
    | none => true
  | .credit dst => u.credit dst < 2
  | .deque => u.hasRoom
  | .deferral => u.freeDefer.isSome && !(u.items.any fun i => match i with | .defer k _ _ => k = t.key | _ => false)
  | .copies => u.copies.length < 32
  | .launches => u.launches < 8
  | .eyelet id =>
    let e := u.eyelet (eyIndex id)
    !e.live || e.gen ≠ eyGen id || !e.queue.isEmpty
  | .ring | .invl => t.ans ≠ some .asked
  | .acc => u.freeAcc.isSome
  | .image off => (List.range 1064).all fun j => u.isFull (off + 8 * j)
  | .way n => (s.wayWait t (lineBit n)).isNone
  | .answer | .unit | .line => true

/-- A waiting strand whose event has happened becomes ready (R38); a killed one ends once its engines have (R369). -/
def State.wake (s : State) (key : Key) : State :=
  match s.strand? key with
  | none => s
  | some t =>
    if t.state ≠ 2 then s
    else if t.killed then
      if t.pendingEngines ≠ 0 && !(s.tile t.tile.toNat).out then s else
      let (s1, gone) := s.endKilled t
      if gone then s1.evalBarriers else s1
    else match t.wait with
      | none => s
      | some w => if s.waitOver t w then (s.modStrand key fun t => { t with blocked := 0, noticed := false }).makeReady key else s

def State.wakeAll (s : State) : State := (s.strands.map (·.key)).foldl State.wake s

/-! ### Dispatch decisions (R53) -/

/-- The issue slots that no strand of the tile holds, lowest first (R40). -/
def State.freeSlot (s : State) (tile : Nat) : Option (Fin 16) :=
  (List.finRange 16).find? fun n => !(s.strands.any fun t => t.tile.toNat = tile && t.slot = some n)

/-- EFF of R53. -/
def Rec.level (r : Rec) (d : Word) : Nat := min 3 (r.prio + (d - r.stamp).toNat / 1024)

/-- Whether record r goes before record q, which was enqueued earlier. -/
def Rec.before (d : Word) (r q : Rec) : Bool :=
  decide (q.level d < r.level d) || (r.level d == q.level d && decide (r.stamp < q.stamp))

/-- The first record in dispatch order among those that satisfy `p`. -/
def bestRec (d : Word) (p : Rec → Bool) (l : List Rec) : Option Rec :=
  (l.filter p).foldl (fun o r => match o with
    | none => some r
    | some q => some (if r.before d q then r else q)) none

/-- The last record in dispatch order (R55). -/
def lastRec (d : Word) (p : Rec → Bool) (l : List Rec) : Option Rec :=
  (l.filter p).foldl (fun o r => match o with
    | none => some r
    | some q => some (if r.before d q then q else r)) none

def Rec.key (r : Rec) : Key := { asid := r.asid, handle := BitVec.ofNat 45 r.frame }
def Rec.team (r : Rec) : BitVec 12 × Nat := (r.asid, bits r.dom 63 48)
def Strand.team (t : Strand) : BitVec 12 × Nat := (t.key.asid, bits t.dom 63 48)

/-- The (ASID, TEAM) pairs that a tile tracks (R61). -/
def State.teams (s : State) (tile : Nat) : List (BitVec 12 × Nat) :=
  ((s.strands.filter fun t => t.tile.toNat = tile).map Strand.team).eraseDups

def State.teamFits (s : State) (tile : Nat) (r : Rec) : Bool := (s.teams tile).contains r.team || decide ((s.teams tile).length < 32)

/-- Accumulators of a strand that dispatch must bind: held ones that no physical accumulator keeps (R275, R373). -/
def Tile.unbound (t : Tile) (u : Strand) : List QReg :=
  (List.finRange 16).filter fun q => u.qheld.getLsbD q.val && (t.boundTo u.key q).isNone

def Tile.freeAccs (t : Tile) : Nat := (t.accs.toList.filter fun a => a.bind.isNone && !a.retained).length

/-- Whether a record may be taken: its space is resident, it is not held, and a strand that it resumes is ready. -/
def State.eligible (s : State) (tile : Nat) (r : Rec) : Bool :=
  s.resident r.asid &&
  (r.hold = 0 || (r.hold = 3 && s.teamFits tile r)) &&
  (!r.resume || match s.strand? r.key with
    | some t => t.state = 0 && decide (((s.tile tile).unbound t).length ≤ (s.tile tile).freeAccs)
    | none => true)

/-- Takes the first record that equals r out of a list. -/
def dropRec (r : Rec) : List Rec → List Rec
  | [] => []
  | q :: l => if q = r then l else q :: dropRec r l

def Tile.dropRec (t : Tile) (r : Rec) : Tile := { t with deque := Machine.dropRec r t.deque }

/-- Puts q where r stands. -/
def swapRec (r q : Rec) : List Rec → List Rec
  | [] => []
  | x :: l => if x = r then q :: l else x :: swapRec r q l

/-- The record is held where it waits, and a HELD record says why (R403). -/
def State.holdRec (s : State) (tile : Nat) (r : Rec) (why : Nat) (h : BitVec 45) (a : Word) (c : RecInfo := {}) : State :=
  let q := { r with hold := why }
  let (s1, token) := s.sendItem tile 6 { c with asid := r.asid, handle := h, pc := r.entry, addr := a, info := word why }
  s1.modTile tile fun t => { t with deque := swapRec r q t.deque, items := t.items ++ [.hold q token] }

/-- What a record says of a failed translation. -/
def XErr.info (e : XErr) (acc : Nat) : RecInfo :=
  { code := BitVec.ofNat 16 e.code, info := match e with | .quota size c => quotaInfo 0 size c (sizeUnits size) | _ => faultInfo acc e.level,
    acc := faultInfo acc e.level, pte := e.pte }
def Cond.info (c : Cond) : RecInfo := { code := BitVec.ofNat 16 c.code, info := c.tinfo, acc := c.acc, pte := c.pte }

/-- A hold that has cleared by itself is over: no reply to its record is awaited (R404). -/
def Tile.unhold (t : Tile) (r : Rec) : Tile :=
  let tokens := t.items.filterMap fun i => match i with | .hold h k => if h.like r then some k else none | _ => none
  { t with
    deque := swapRec r { r with hold := 0 } t.deque
    items := t.items.filter fun i => match i with | .hold h _ => !h.like r | _ => true
    owed := t.owed.filter fun e => !tokens.contains e.1 }

/-- A decision is made: D counts it (R53). -/
def State.decided (s : State) (tile : Nat) (r : Rec) : State := s.modTile tile fun t => { t.dropRec r with d := t.d + 1 }

/-- The accumulators of a resumed strand are bound; their contents are still in the save areas (R275). -/
def Tile.bindAll (t : Tile) (u : Strand) : List QReg → Tile
  | [] => t
  | q :: r =>
    match t.freeAcc with
    | none => t
    | some i => (t.setAcc i { Accum.reset with bind := some (u.key, q), anchor := u.savedAnchor q.val, restoring := true }).bindAll u r

/-- A retained accumulator of a strand that is dispatched again is in use as before; its DRAIN record is answered by that (R373). -/
def Tile.keepRetained (t : Tile) (key : Key) : Tile :=
  let mine (a : Accum) : Bool := a.retained && a.bind.any fun b => b.1 = key
  { t with
    accs := t.accs.map fun a => if mine a then { a with retained := false } else a
    items := t.items.filter fun i => match i with
      | .drain n _ => !(mine (t.acc n))
      | _ => true }

/-- What a DELIVER reply left for the first dispatch after its park (R369). -/
def Strand.deliverNow (t : Strand) : Strand :=
  if t.deliver then { t with intrap := true, trappc := t.pc, pc := t.tvec, npc := t.tvec, deliver := false } else t

/-- Dispatch of a resume record (R44, R275): line 0 that fails holds the record; the save areas' line that fails parks the strand (R368, R402). -/
def State.dispatchResume (s : State) (tile : Nat) (slot : Fin 16) (r : Rec) : State :=
  match s.strand? r.key with
  | none => s.modTile tile fun t => t.dropRec r
  | some t =>
    match s.fetchLines t 1 32 with
    | .error (.wait s1) => s1
    | .error (.cond c s1) => s1.holdRec tile r 4 t.key.handle (frameVA t.key) c.info
    | .ok (s0, t0) =>
    match s0.fetchLines t0 (if t0.qheld = 0 then 0 else lineBit 24) 32 with
    | .error (.wait s1) => s1.modStrand r.key fun _ => t0
    | .error (.cond c s1) => s1.parkFrame r.key t0 c
    | .ok (s1, t1) =>
      let t2 := { t1.deliverNow with state := 1, slot := some slot, slotCycles := 0, wait := none, dirty := t1.dirty ||| lineBit 0 }
      ((s1.decided tile r).modTile tile fun u => (u.keepRetained t2.key).bindAll t2 (u.unbound t2)).putStrand { t2 with npc := t2.pc }

/-- The fields of R43 that every new strand gets. -/
def Strand.start (t : Strand) (r : Rec) (slot : Fin 16) : Strand :=
  { t with
    pc := r.entry, npc := r.entry, qheld := 0, intrap := false, state := 1, prio := BitVec.ofNat 2 r.prio, cgrp := r.cgrp, dom := r.dom,
    home := r.doneVA, reason := 0, pend := 0, slot := some slot,
    g := (((t.g.set 1 (r.arg 0)).set 2 (r.arg 1)).set 3 (r.arg 2)).set 4 (r.arg 3),
    present := 3, dirty := 3 }

/-- Both lines of a new strand have ways in the register cache (R33, R373). -/
def State.waysFor (s : State) (tile : Nat) (key : Key) : State := (s.makeWay tile key 0).makeWay tile key 1
def State.hasWays (s : State) (tile : Nat) (key : Key) : Bool := s.hasWay tile key 0 && s.hasWay tile key 1

/-- A new strand enters its slot; its first instruction is an acquire (R59). -/
def State.enter (s : State) (tile : Nat) (r : Rec) (t : Strand) : State :=
  (((((s.decided tile r).putStrand t).install tile t.key 0).install tile t.key 1).acquireAt tile t.key.asid)

/-- A strand that a record would create, before R43's writes. -/
def newStrand (key : Key) (tile : Nat) : Strand :=
  { Strand.reset with key := key, tile := BitVec.ofNat 10 tile, supv := itemSupv key.asid tile }

/-- Dispatch of a prepared frame (R43): lines 0 and 1 are read, and a frame that is not done starts nothing. -/
def State.dispatchPrepared (s0 : State) (tile : Nat) (slot : Fin 16) (r : Rec) : State :=
  let t := newStrand r.key tile
  let s := s0.waysFor tile t.key
  let failed (e : FrameErr) : State := match e with
    | .wait s1 => s1
    | .cond c s1 => s1.holdRec tile r 4 t.key.handle (frameVA t.key) c.info
  if !s.hasWays tile t.key then s else
  match frameRead s t 0 with
  | .error e => failed e
  | .ok (x0, s1) =>
    let t0 := t.setLine 0 x0
    if t0.state ≠ 4 || (s.strand? t.key).isSome then
      ((s1.modTile tile fun u => u.dropRec r).sendItem tile 7 { asid := r.asid, handle := t.key.handle, pc := r.entry, addr := frameVA t.key }).1
    else
      match frameRead s1 t 1 with
      | .error e => failed e
      | .ok (x1, s2) => s2.enter tile r { (t0.setLine 1 x1).start r slot with supv := t.supv }

/-- LFSR of a new pool frame (R43). -/
def frameSeed (frame : Word) : BitVec 32 := frame.extractLsb' 12 32 ||| 1

/-- What the walks of an attempt that is given up have left in the translation caches stays (R400). -/
def State.keepWalks (s s1 : State) (tile : Nat) : State :=
  let s2 := s.modTile tile fun t => { t with tlb1 := (s1.tile tile).tlb1, tlb2 := (s1.tile tile).tlb2 }
  s2.setLayer (tile / 64) { s2.layer (tile / 64) with lltlb := (s1.layer (tile / 64)).lltlb }

/-- Dispatch from a frame pool (R46): pop, charge, and the check of the frame's page. A frame whose page fails goes back to its pool with its
charge, so that nothing of the pop stands but the hold (R368). -/
def State.dispatchPool (s : State) (tile : Nat) (slot : Fin 16) (r : Rec) : State :=
  let supv := itemSupv r.asid tile
  let w := agentWho r.asid tile supv true 1
  let pool := frameVA r.key
  let keyOf (frame : Word) : Key := { asid := r.asid, handle := frame.extractLsb' 12 45 }
  match agentXl s w pool with
  | .error (.busy, s1) => s1
  | .error (e, s1) => s1.holdRec tile r 7 0 pool (e.info 1)
  | .ok (p, s1) =>
    let entry := chgEntry s1 r.asid r.cgrp
    if s1.badIn p.pa 64 || !s1.hasHome p.pa then s1.holdRec tile r 7 0 pool (XErr.dataErr.info 1)
    else if s1.barred tile p.pa || (chgOn s1 && s1.barred tile entry) then s1
    else if s1.homeRead p.pa 8 = 0 then s1.holdRec tile r 1 0 pool
    else if chgOn s1 && s1.badIn entry 16 then s1.holdRec tile r 7 0 pool (XErr.dataErr.info 1)
    else
      if chgOn s1 && chgLimit s1 entry < chgUsed s1 entry + 1 then s1.holdRec tile r 2 0 pool
      else match popFrame s1 w p with
        | .error (.busy, _, s2) => s2
        | .error (e, frame, s2) => s2.holdRec tile r 4 (keyOf frame).handle (frameVA (keyOf frame)) (e.info 3)
        | .ok (frame, low, s2) =>
          let s3 := if chgOn s2 then s2.setUsed entry (chgUsed s2 entry + 1) else s2
          let s4 := if low then (s3.sendItem tile 5 { asid := r.asid, pc := r.entry, addr := pool }).1 else s3
          let key := keyOf frame
          let t := newStrand key tile
          match frameXl s4 t (frameVA key) 3 with
          | .error (.wait s5) => s1.keepWalks s5 tile
          | .error (.cond c s5) => (s1.keepWalks s5 tile).holdRec tile r 4 key.handle (frameVA key) c.info
          | .ok (_, s4) =>
            let s5 := s4.waysFor tile key
            if !s5.hasWays tile key then s1.waysFor tile key else s5.enter tile r { t.start r slot with fresh := true, made := 3, pool := some pool, lfsr := frameSeed frame }

/-- The access to the overflow area failed: a SPILL record, and the record of the deque waits for the reply (R414). -/
def State.spillFault (s : State) (tile : Nat) (r : Rec) (pa code : Nat) : State := (s.modTile tile fun t => t.dropRec r).spillItem tile r pa code

/-- A spilled record comes back into the hardware, in its place in the order (R51). -/
def State.refill (s : State) (tile : Nat) (r : Rec) : State × Option Rec :=
  match r.spill with
  | none => (s, some r)
  | some i =>
    let pa := (s.tile tile).ovfBase + 128 * i
    match s.areaFault pa with
    | some code => (s.spillFault tile r pa code, none)
    | none =>
      if s.barred tile pa then (s, none) else
      let q := { recOfEntry (s.homeRead pa 128) with hold := r.hold }
      (s.modTile tile fun t => { t with deque := swapRec r q t.deque }, some q)

/-- A record of the deque is dispatched into a slot, or its hold or its drop takes the place of that (R53, R61). -/
def State.dispatchRec (s0 : State) (tile : Nat) (slot : Fin 16) (r0 : Rec) : State :=
  match s0.refill tile r0 with
  | (s, none) => s
  | (s, some r1) =>
    let r := if r1.hold = 3 then { r1 with hold := 0 } else r1
    let s := if r1.hold = 3 then s.modTile tile fun t => t.unhold r1 else s
    if r.resume then s.dispatchResume tile slot r
    else if !s.teamFits tile r then s.holdRec tile r 3 (if r.preset then r.key.handle else 0) 0
    else if r.preset then s.dispatchPrepared tile slot r
    else s.dispatchPool tile slot r

/-- One decision (R53). -/
def State.dispatch (s : State) (tile : Nat) : State :=
  if (s.tile tile).out then s else
  match s.freeSlot tile with
  | none => s
  | some slot =>
    match bestRec (s.tile tile).d (s.eligible tile) (s.tile tile).deque with
    | none => s
    | some r => s.dispatchRec tile slot r

/-- A stolen record is dispatched at once (R55). -/
def State.dispatchStolen (s : State) (tile : Nat) (r : Rec) : State :=
  match s.freeSlot tile, (s.tile tile).deque.getLast? with
  | some slot, some q => if q.body = r.body && q.spill.isNone && s.eligible tile q then s.dispatchRec tile slot q else s
  | _, _ => s

/-- R53. -/
def execDispatch (tile : BitVec 10) (s : State) : Host.Outcome State Fault Refusal :=
  done (s.dispatch tile.toNat)

/-- R51: the oldest spilled record of a resident space, while the hardware holds fewer than 192. -/
def execDequeRefill (tile : BitVec 10) (s : State) : Host.Outcome State Fault Refusal :=
  let t := s.tile tile.toNat
  match (if t.inHw.length < 192 && !t.out then t.deque.find? fun r => r.spill.isSome && s.resident r.asid else none) with
  | none => done s
  | some r => done (s.refill tile.toNat r).1

/-! ### Leaving a slot (R37, R40), the watchdog (R204, R374) -/

/-- R37. -/
def execBlockDeactivate (key : Key) (s : State) : Host.Outcome State Fault Refusal :=
  done (s.as key fun s =>
    let t := s.me
    if t.state = 1 && t.late.isEmpty && t.pieces.isEmpty && !t.inSecond && (t.wait.any Wait.blocking) && 256 ≤ t.blocked then { s with me := t.deactivate 2 } else s)

/-- R40, R242: rotation at a pair boundary, outside packets, after the events that R372 puts first. -/
def execSlotRotation (key : Key) (s : State) : Host.Outcome State Fault Refusal :=
  match s.theStrand? key with
  | none => done s
  | some t =>
    let u := s.tile t.tile.toNat
    let due := t.state = 1 && t.late.isEmpty && t.pieces.isEmpty && !t.inSecond && t.wait.isNone && 65536 ≤ t.slotCycles && t.errs.isEmpty && !t.killed && s.resident key.asid && !pkOpen t.pkst &&
      u.deque.any fun r => s.eligible t.tile.toNat r && decide (t.prio.toNat ≤ r.level u.d)
    if due then done ((s.modStrand key fun t => t.deactivate 0).makeReady key) else done s

/-- ADDR of a WATCHDOG record (R374): the word, cell or descriptor waited on, or the handle register's number. -/
def Strand.waitAddr (t : Strand) : Word :=
  match t.wait with
  | some (.handle k) | some (.handles k) => word (((List.range 8).find? fun n => k.getLsbD n).getD 0)
  | some (.word va _) | some (.cell va) => va
  | some (.full off _) | some (.empty off _) | some (.image off) => scrVA off
  | some (.eyelet id) => id
  | some (.way n) => lineVA t.key n
  | _ => 0

/-- R374. -/
def execWatchdogNotice (key : Key) (s : State) : Host.Outcome State Fault Refusal :=
  done (s.as key fun s =>
    let t := s.me
    let limit := s.myTile.wdogt.toNat
    if (t.state = 1 || t.state = 2) && t.wait.any Wait.blocking && limit ≠ 0 && limit ≤ t.blocked && !t.noticed then
      -- an older notice's pair is behind the strand
      let (s1, t1) := s.sendStrand { t with tokens := t.tokens.filter fun e => e.2 ≠ 4 } 4 { pc := t.pc, addr := t.waitAddr, info := word limit }
      { s1 with me := { t1 with noticed := true } }
    else s)

/-- R192: the 1,024-cycle period ends; the words that the strand watches are read again as its instruction reads them. An active strand reads
them when it issues, a waiting one becomes ready. -/
def execWaitwRecheck (key : Key) (s : State) : Host.Outcome State Fault Refusal :=
  match s.theStrand? key with
  | none => done s
  | some t =>
    if t.state ≠ 2 then done s else
    let (again, s1) := t.watched.foldl (fun o e =>
      if o.1 then o else
      match waitRead e.1 o.2 with
      | .ok x s' => (e.2 x, s')
      | .error (.wait _) s' => (false, s')
      | .error (.cond _) _ => (true, o.2)) (false, s.load t)
    let s2 : State := { s1 with walkLog := s.walkLog }.unload
    done (if again then (s2.modStrand key fun t => { t with blocked := 0, noticed := false }).makeReady key else s2)

/-! ### Parking for pre-emption (R63, R405) -/

/-- REASON 3 unless a fault reason is set; a request that is out keeps its answer. -/
def Strand.parkAway (t : Strand) : Strand :=
  { t.park (if t.reason = 0 then 3 else t.reason) with pend := t.pend, ans := t.ans, did := t.did, spawning := t.spawning, deliver := t.deliver }

/-- A strand of a space that is being pre-empted is parked, and its resume record goes to the overflow area. -/
def State.parkAway (s : State) (key : Key) : State :=
  match s.theStrand? key with
  | none => s
  | some t => ((s.as key fun s => s.leaveQueues key).modStrand key Strand.parkAway).enqueue t.tile.toNat t.resumeRec

/-! ### Time -/

/-- A tile has a free slot and no record that it could dispatch (R55). -/
def State.isIdle (s : State) (tile : Nat) : Bool :=
  !(s.tile tile).out && (s.freeSlot tile).isSome && !((s.tile tile).deque.any (s.eligible tile))

/-- A tile's clock runs: its tiles have started (R335 step 9) and it is in service. -/
def State.clockOn (s : State) (tile : Nat) : Bool :=
  !(s.tile tile).out && match s.phase with
    | .running => true
    | .starting n => decide (9 ≤ n.val)
    | _ => false

/-- `n` cycles of one tile pass: CYC (R207), the blocked cycles of its strands (R37, R204), the cycles in a slot (R40) and with an open packet
while their space leaves (R242), idleness (R55). -/
def State.pass (s : State) (tile n : Nat) : State :=
  if !s.clockOn tile then s else
  let idle := s.isIdle tile
  let s1 := s.modTile tile fun t =>
    { t with
      cyc := t.cyc + word n
      idle := { t.idle with cycles := if idle then t.idle.cycles + n else 0, wait := t.idle.wait - n } }
  { s1 with strands := s1.strands.map fun t =>
      if t.tile.toNat ≠ tile then t else
      let t := if (t.state = 1 || t.state = 2) && t.wait.any Wait.blocking then { t with blocked := t.blocked + n } else t
      let t := { t with pktCycles := if pkOpen t.pkst && !s.resident t.key.asid then t.pktCycles + n else 0 }
      if t.state = 1 then { t with slotCycles := t.slotCycles + n } else t }

/-! ### Fills and returns that a stalled strand waits for -/

/-- Results whose windows have issued are written. -/
def Strand.deliverDue (t : Strand) : Strand := (t.held.filter fun h => h.left = 0).foldl Strand.deliverHeld t

/-- The data of an outstanding load is there: it goes to the destination, or waits for the window's end, unless a window word has written the
destination (R152). A request that has failed and uncorrectable data are an error of the load's own pair (R370, R425). -/
def Strand.receive (t : Strand) (l : Late) (xs : List Nat) (bad : Option Word) : Strand :=
  match bad with
  | some a => { t with errs := t.errs ++ [(a, l.pc)] }
  | none => if l.gone then t else let x := l.value xs; t.result { dst := l.dst, left := l.left, val := x.1, tag := x.2 }

/-- R152: the strand's oldest outstanding load is served if it now can be, and results whose windows have issued are written. -/
def execLoadDataReturn (key : Key) (s : State) : Host.Outcome State Fault Refusal :=
  done (match s.theStrand? key with
  | none => s
  | some t =>
    match t.late with
    | [] => s.modStrand key Strand.deliverDue
    | l :: r =>
      let u := { t with late := r }
      match s.onBehalf u (do loadLanes (← get).whoLoad l.pieces) with
      | .ok (xs, bad) s1 => s1.modStrand key fun _ => (u.receive l xs bad).deliverDue
      | .error (.cond c) s1 => s1.modStrand key fun _ => (u.receive l [] (some c.taddr)).deliverDue
      | .error (.wait _) s1 => s1)

/-- R370, R372. -/
def execDeferredDataError (key : Key) (s : State) : Host.Outcome State Fault Refusal :=
  done (s.as key fun s => if s.me.state = 1 && s.me.wait.isNone then s.stay s.takeErrs else s)

/-- A strand waits for a register line, or for a way of its set. -/
def Strand.waitsForLine (t : Strand) : Bool := match t.wait with
  | some .line | some (.way _) => true
  | _ => false

/-- R35, R36: every line that the pair lacks; a fetch that fails parks the strand. -/
def execRegisterLineFill (key : Key) (s : State) : Host.Outcome State Fault Refusal :=
  done (s.as key fun s =>
    if s.me.state = 1 && s.me.waitsForLine then
      match s.fetch with
      | (.words w0 w1, s1) =>
        match decodePair w0 w1 with
        | .error _ => s
        | .ok p =>
          match s1.fetchLines s1.me (Pair.lines p) 32 with
          | .error (.wait s2) => s2
          | .error (.cond c s2) => s.stay (s2.takeCond c)
          | .ok (s2, t) => { s2 with me := { t with wait := none } }
      | _ => s
    else s)

/-- The line that a stalled strand's fetch misses. -/
def State.missing (s : State) (t : Strand) : Option (Key × Nat) :=
  match (s.load t).fetch.1 with
  | .miss n => some (t.key, n)
  | _ => none

/-- R160: the first stalled strand of the tile gets its line from the line's home, past the L1; one whose request has failed for good takes
DATAERR (R425). -/
def execIcacheFill (tile : BitVec 10) (s : State) : Host.Outcome State Fault Refusal :=
  match (s.strands.filter fun t => t.tile = tile && t.state = 1 && t.wait = some .line).findSome? s.missing with
  | none => done s
  | some (key, n) =>
    let failed (s1 : State) : State := s1.as key fun s => s.stay (s.takeCond { code := DATAERR, tinfo := s.me.pc, taddr := s.me.pc })
    match s.ask key tile.toNat 1024 (.read (n * 128) 128) with
    | .got _ (.data x bad) s1 =>
      if bad ≠ 0 then done (failed s1) else
      let missed (t : Strand) : Bool := t.tile = tile && t.state = 1 && t.wait = some .line && (s.missing t).any fun e => e.2 = n
      done ({ s1 with strands := s1.strands.map fun t => if missed t then { t with wait := none } else t }.modTile tile.toNat fun t =>
        { t with icache := icachePut n x t.icache })
    | .waits _ s1 => done s1
    | .got _ _ s1 | .failed s1 => done (failed s1)

/-- R107: the tile's own choice; a translation that fails, or a page not yet charged, leaves the line dirty. -/
def execStashWriteback (tile : BitVec 10) (line : BitVec 14) (s : State) : Host.Outcome State Fault Refusal :=
  let t := s.tile tile.toNat
  let n := line.toNat
  match (t.stashes.map (·.2)).find? fun m => m.off ≤ n * 128 && n * 128 < m.off + m.len with
  | none => done s
  | some m =>
    let w := agentWho m.asid tile.toNat (itemSupv m.asid tile.toNat) true 1
    match agentXl s w (m.base + word (n * 128 - m.off)) with
    | .error (_, s') => done s'
    | .ok (x, _) =>
      if chgOn s && !x.leaf.getLsbD 5 then done s else
      match s.onBehalf { newStrand (agentKey m.asid 0) tile.toNat with supv := itemSupv m.asid tile.toNat } (stashLineOut w m n) with
      | .ok _ s' | .error _ s' => done s'

/-- The pieces of a save area, one after another; uncorrectable bytes are a DATAERR. -/
def readPieces (w : Who) : List Piece → M Nat
  | [] => pure 0
  | p :: r => do
    let x ← memLoad w [p]
    trapIf x.bad { code := DATAERR, tinfo := faultInfo w.acc 15, taddr := p.va, acc := faultInfo w.acc 15 }
    let y ← readPieces w r
    return x.val + 256 ^ p.len * y

/-- A save area is read as its tile's own loads are: through the L1, a stash map or another package (R90, R106, R275). -/
def areaRead (w : Who) (a : Word) : M Nat := do
  let l ← check w a saveSize
  noOrdered l
  readPieces w l

/-- The first accumulator of a strand whose contents are still in its save area. -/
def Tile.toRestore (t : Tile) (key : Key) : Option (Nat × QReg) :=
  (List.range 16).findSome? fun i =>
    let a := t.acc i
    match a.bind with
    | some (k, q) => if k = key && a.restoring then some (i, q) else none
    | none => none

/-- R275: one save area is read into its accumulator; a fault parks the strand with REASON 1 (R402). -/
def execSaveAreaRestore (key : Key) (s : State) : Host.Outcome State Fault Refusal :=
  done (s.as key fun s =>
    if s.me.state ≠ 1 then s else
    match s.myTile.toRestore key with
    | none => s
    | some (i, q) =>
      match s.onBehalf s.me (areaRead (agentWho key.asid s.here s.me.supv false 5) (s.me.area q.val)) with
      | .error (.wait _) s1 => s1
      | .error (.cond c) s1 => s.stay (s1.takeCond { c with fwd := false, frame := true })
      | .ok v s1 =>
        let s2 := s1.modMyTile fun t => t.setAcc i { t.acc i with elems := elemsOf v, restoring := false }
        if s2.me.wait = some .line && (s2.myTile.toRestore key).isNone then { s2 with me := { s2.me with wait := none } } else s2)

end Sys2Proof.Machine
end

