-- ==== Sys2Proof/Machine/Engines.lean ====
section
/-!
DEFINITION. Completions: how an engine's handle becomes done (R194, R195, R201), and the engines of a tile: the matrix unit
(R283, R286), async copies (R229, R230) and prefetches (R232).
-/

namespace Sys2Proof.Machine

/-! ### Acting on a strand's behalf without the strand -/

/-- Runs an access as an agent of a tile, in a space. -/
def State.agent {α : Type} (s : State) (tile : Nat) (key : Key) (cgrp : Byte) (supv : Bool) (m : M α) : EStateM.Result Stop State α :=
  m (s.load { newStrand key tile with cgrp := cgrp, supv := supv })

/-- The machine after an agent's access; the translations are no pair's. -/
def State.after (s' s : State) : State := { s'.noOne with walkLog := s.walkLog }

/-- The agent that performs the accesses of an engine's operation (R229, R232, R286). -/
def engineKey (asid : BitVec 12) (seq : BitVec 16) : Key := agentKey asid (2 ^ 17 + seq.toNat)

/-! ### Handles (R194, R195, R201) -/

/-- A done handle word. -/
def doneWord (kind : Nat) (rmt : Bool) (seq : BitVec 16) (status : Byte) (info : BitVec 32) : Word :=
  doneHandle (newHandle kind rmt seq) status info

/-- What an attempt of an agent came to: done, not yet, or failed. -/
inductive Try
  | ok (s : State)
  | wait (s : State)
  | fail (c : Cond) (s : State)

/-- R201: the release at .c, then the write of an export cell, which its home acknowledges. A condition is the fault that the EXPORT record
names. -/
def State.cellWrite (s : State) (tile : Nat) (key : Key) (cell w : Word) : Try :=
  let seq := w.extractLsb' 32 16
  let acked (s : State) : State := s.modTile tile fun t => { t with exported := t.exported.filter fun n => n ≠ seq }
  match s.agent tile (agentKey key.asid (seq.toNat + 1)) 0 (itemSupv key.asid tile) (do
      release .c
      let s ← get
      if !s.myTile.exported.contains seq then
        let l ← check { s.whoStore with charge := none } cell 8 8
        memStore s.whoStore l w.toNat
        modify fun s => s.modMyTile fun t => { t with exported := seq :: t.exported }
        release .c) with
  | .ok _ s' => .ok (acked (s'.after s))
  | .error (.cond c) s' => .fail c (acked (s'.after s))
  | .error (.wait _) s' => .wait (s'.after s)

/-- The write that no agent could make becomes an item that waits for a reply (R365, KIND 8): an access of an engine (R364, R399). -/
def State.cellItem (s : State) (tile : Nat) (key : Key) (cell w : Word) (c : Cond) : State :=
  let (s1, token) := s.sendItem tile 8 { c.info with asid := key.asid, handle := key.handle, addr := cell, acc := setBits c.acc 7 0 7 }
  s1.modTile tile fun t => { t with items := t.items ++ [.cell key cell w token] }

/-- A line of a frame that is out lies at its home: reads it, changes it and writes it back, as one operation (R195, R405). -/
def State.atHome (s : State) (t : Strand) (n : Nat) (f : Strand → Strand) : Except FrameErr State :=
  match frameXl s t (lineVA t.key n) 4 with
  | .error e => .error e
  | .ok (x, s1) =>
    let line := x.pa / 128
    if s1.barred t.tile.toNat (line * 128) then .error (.wait s1)
    else if s1.badIn (line * 128) 128 || !s1.hasHome x.pa then .error (.cond (frameCond 4 .dataErr (lineVA t.key n)) s1)
    else
      let t1 := f (t.setLine n (s1.homeLine line))
      .ok ((s1.homeWriteLine line (BitVec.allOnes 128) (t1.line n)).putStrand t1)

/-- Whether a space's frames lie at their homes: its pre-emption has passed step 4 (R63). -/
def State.isOut (s : State) (asid : BitVec 12) : Bool := s.absent.contains asid || s.preempts.any fun p => p.asid = asid && decide (4 < p.step)

/-- A done word enters a handle register whose pending handle it ends; a strand that has gone loses it (R195). A line 4 that the register cache
lacks is fetched for it; one whose page is being moved is waited for. -/
def State.putHandle (s : State) (tile : Nat) (key : Key) (k : KReg) (w : Word) : Try :=
  match s.theStrand? key with
  | none => .ok s
  | some t =>
    if !(hPending t.k[k] && seqOf t.k[k] = seqOf w && hKind t.k[k] ≠ 5) then .ok s
    else if s.isOut key.asid then
      match s.atHome t 4 fun t => { t with k := t.k.set k w } with
      | .ok s' => .ok s'
      | .error (.wait s') => .wait s'
      | .error (.cond _ s') => .ok (s'.logDrop tile (lineVA key 4))
    else if !s.resident key.asid then .ok (s.modTile tile fun u => { u with items := u.items ++ [.handle key k w] })
    else match s.fetchLine t 4 with
      | .error (.wait s1) => .wait s1
      | .error (.cond _ s1) => .ok (s1.modStrand key fun t => t.setK k w)
      | .ok (s1, t1) => .ok (s1.modStrand key fun _ => t1.setK k w)

/-- An engine operation of a tile ends: its export cell or its handle register takes the done word. -/
def State.finishHandle (s : State) (tile : Nat) (key : Key) (k : KReg) (w : Word) : Try :=
  match (s.tile tile).exports.find? fun e => e.1 = seqOf w with
  | none => s.putHandle tile key k w
  | some (seq, key', cell) =>
    let gone (s : State) : State := s.modTile tile fun t => { t with exports := t.exports.filter fun e => e.1 ≠ seq }
    match s.cellWrite tile key' cell w with
    | .ok s' => .ok (gone s')
    | .fail c s' => .ok (gone (s'.cellItem tile key' cell w c))
    | .wait s' => .wait s'

/-- An operation ends with what `f` still has to do, once its handle is done. -/
def State.finish (s : State) (tile : Nat) (key : Key) (k : KReg) (w : Word) (f : State → State) : State :=
  match s.finishHandle tile key k w with
  | .ok s1 => f s1
  | .wait s1 | .fail _ s1 => s1

/-- STATUS of a failed engine access (R193). -/
def Cond.status (c : Cond) : Byte :=
  if c.code = PERM || c.code = PRIV then 3 else if c.code = QUOTA then 4 else if c.code = DATAERR then 5 else 2

/-! ### The matrix unit (R283, R286) -/

/-- The operation at the head of the unit's queue, when it is of the wanted kind. -/
def Tile.matHead (t : Tile) (mma : Bool) : Option MatOp :=
  match t.mat with
  | o :: _ => if o.form.isSome = mma then some o else none
  | [] => none

def Tile.matPop (t : Tile) : Tile := { t with mat := t.mat.drop 1 }

/-- The scratchpad as an MMA has read it: granules already read hold what they then held (R139). -/
def Tile.asRead (t : Tile) (o : MatOp) : Tile :=
  { t with scratch := o.got.foldl (fun m g => Mem.writeN m g.1 64 g.2.1) t.scratch }
def Tile.granuleBad (t : Tile) (o : MatOp) (g : Nat) : Bool := ((look g o.got).map (·.2)).getD (t.scrBad g 64)

/-- What an MMA does to the accumulator and its handle. -/
def Tile.mmaRun (t : Tile) (o : MatOp) (form : MmaForm) : Tile × Byte × BitVec 32 :=
  match t.boundTo o.key o.q with
  | none => (t, 0, 0)
  | some i =>
    if (t.acc i).bad then (t, 5, BitVec.allOnes 32) else
    match firstIdx (t.granuleBad o) (mmaGranules (mmaRow form) o.a o.b) with
    | some n => (t, 5, BitVec.ofNat 32 n)
    | none => (t.setAcc i { t.acc i with elems := mmaElems (t.asRead o) o form (t.acc i) }, 0, 0)

/-- One operand granule is read for the first MMA of the queue that has yet to read it (R139). -/
def readFor (t : Tile) (g : Nat) : List MatOp → List MatOp
  | [] => []
  | o :: r =>
    let wants := (o.form.any fun f => (mmaGranules (mmaRow f) o.a o.b).contains g) && (look g o.got).isNone
    if wants then { o with got := put g (t.scrRead g 64, t.scrBad g 64) o.got } :: r else o :: readFor t g r

/-- Whether an image is accepted: its first granule that its destination refuses (R229), unless it has accepted the image already. -/
def State.imageRefused (s : State) (o : MatOp) (dst : Nat) : Option Nat :=
  if o.got.isEmpty then (s.tile dst).refuses dst o.key.asid o.a.toNat imageSize else none

/-- A `qsend` at the head of the queue delivers granule i of its image before the others, when nothing keeps a request to its destination (R138). -/
def State.imageGranule (s : State) (tile i : Nat) (o : MatOp) : State :=
  let dst := bits o.b 9 0
  let m := s.request (engineKey o.key.asid o.seq) tile dst (.put o.a.toNat imageSize 0 none [] [])
  let kept : Bool := dst ≠ tile && (s.crowdedFrom .req tile dst || s.travels m || s.msgs.any fun m => m.src = tile && match m.body with
    | .access k _ _ => k = engineKey o.key.asid o.seq
    | _ => false)
  match (s.tile tile).boundTo o.key o.q with
  | none => s
  | some a =>
    if kept || ((s.tile tile).acc a).bad || (s.imageRefused o dst).isSome || (look i o.got).isSome || imageSize / 64 ≤ i then s else
    (s.putGranule dst o.a.toNat imageSize ((s.tile tile).acc a).imageBytes (decide (dst ≠ tile)) [] i).modTile tile fun t =>
      { t with mat := match t.mat with
          | [] => []
          | o :: r => { o with got := put i (0, false) o.got } :: r }

/-- The matrix unit handles one granule: a `qsend` at the head of its queue writes it, else an MMA reads it. -/
def State.mmaRead (s : State) (tile g : Nat) : State :=
  match (s.tile tile).matHead false with
  | some o => s.imageGranule tile g o
  | none => s.modTile tile fun t => { t with mat := readFor t (64 * g) t.mat }

/-- R283. -/
def execMmaComplete (tile : BitVec 10) (s : State) : Host.Outcome State Fault Refusal :=
  let n := tile.toNat
  match (s.tile n).matHead true with
  | none => done s
  | some o =>
    let run (t : Tile) : Tile × Byte × BitVec 32 := t.mmaRun o (o.form.getD .e4m3)
    let (_, status, info) := run (s.tile n)
    done (s.finish n o.key o.kreg (doneWord 2 false o.seq status info) fun s => s.modTile n fun t => (run t).1.matPop)

/-- R286: the granules that are not yet there are written, and a request that has failed for good is a DATAERR (R425). -/
def execQsendComplete (tile : BitVec 10) (s : State) : Host.Outcome State Fault Refusal :=
  let n := tile.toNat
  match (s.tile n).matHead false with
  | none => done s
  | some o =>
    let dst := bits o.b 9 0
    let rmt := decide (dst ≠ n)
    let fin (s : State) (status : Byte) (info : BitVec 32) (f : State → State := id) : State :=
      s.finish n o.key o.kreg (doneWord 2 rmt o.seq status info) fun s => f (s.modTile n Tile.matPop)
    match (s.tile n).boundTo o.key o.q with
    | none => done (fin s 0 0)
    | some i =>
      if ((s.tile n).acc i).bad then done (fin s 5 0) else
      let image := ((s.tile n).acc i).imageBytes
      let skip := o.got.map (·.1)
      if !rmt then
        match s.imageRefused o n with
        | some g => done (fin s 3 (BitVec.ofNat 32 g))
        | none => done (fin s 0 0 fun s => s.putGranules n o.a.toNat imageSize image false [] skip)
      else if o.sent.isSome then done (fin s (o.sent.elim 0 (·.1)) (o.sent.elim 0 (·.2)))
      else
        let ended (s : State) (status : Byte) (info : BitVec 32) : State :=
          fin (s.modTile n fun t => { t with mat := match t.mat with
            | [] => []
            | o :: r => { o with sent := some (status, info) } :: r }) status info
        match s.ask (engineKey o.key.asid o.seq) n dst (.put o.a.toNat imageSize image (if skip.isEmpty then some o.key.asid else none) [] skip) with
        | .waits _ s => done s
        | .failed s => done (ended s 5 0)
        | .got _ (.refused g) s => done (ended s 3 (BitVec.ofNat 32 g))
        | .got _ _ s => done (ended s 0 0)

/-! ### Async copies (R228–R230) -/

/-- Pieces of a row of `len` bytes to `d`: cut at the 64 B boundaries of the destination. -/
def rowPieces (d len : Nat) : Nat := (d % 64 + len + 63) / 64

/-- Row and byte offset, length, of piece n of a copy; rows are numbered from `r`. -/
def Copy.pieceFrom (c : Copy) : Nat → Nat → Nat → Option (Nat × Nat × Nat)
  | 0, _, _ => none
  | left + 1, r, n =>
    let d := (c.dst + word r * c.dstride).toNat
    let k := rowPieces d c.rowlen
    if n < k then
      let start := if n = 0 then 0 else 64 * n - d % 64
      some (r, start, min c.rowlen (64 * (n + 1) - d % 64) - start)
    else c.pieceFrom left (r + 1) (n - k)

def Copy.piece (c : Copy) (n : Nat) : Option (Nat × Nat × Nat) := c.pieceFrom c.rows 0 n

/-- The number of the first piece of row r. -/
def Copy.before (c : Copy) (r : Nat) : Nat := ((List.range r).map fun i => rowPieces (c.dst + word i * c.dstride).toNat c.rowlen).sum

/-- A scratchpad destination refuses the copy, which then writes nothing (R229). A supervisor's local copy is not checked. -/
def State.copyRefused (s : State) (tile : Nat) (c : Copy) : Bool :=
  !(c.supv && !c.remote) && (List.range c.rows).any fun r => (c.scrPart tile r).any fun (t, off, n) => ((s.tile t).refuses t c.asid off n).isSome

def Tile.setCopy (t : Tile) (i : Nat) (c : Copy) : Tile := { t with copies := t.copies.set i c }

/-- Whether a row after r has bytes in word w of the destination's scratchpad (R104). -/
def Copy.more (c : Copy) (tile r w : Nat) : Bool :=
  (List.range c.rows).any fun i => decide (r < i) && (c.scrPart tile i).any fun (_, off, n) => decide (off < 8 * w + 8) && decide (8 * w < off + n)

/-- One piece of a copy: both ends are checked, and its bytes are read as a load of the tile. -/
def copyRead (c : Copy) (tile r off len : Nat) : M CopyWrite := do
  let s ← get
  let src := c.src + word r * c.sstride + word off
  let dst := c.dst + word r * c.dstride + word off
  let l ← check s.whoLoad src len
  noOrdered l
  let pieces ← (if c.remote then pure [] else check s.whoStore dst len)
  noOrdered pieces
  let x ← memLoad s.whoLoad l
  if x.bad then dataErrNow src
  let start := if c.remote then dst.toNat else dst.toNat - Config.scratchBase
  let hold := (List.range (len / 8 + 2)).filterMap fun i => if c.more tile r (start / 8 + i) then some (start / 8 + i) else none
  return { n := c.next, dst := dst, len := len, pieces := pieces, hold := hold, val := x.val }

/-- An uncached piece is written and acknowledged, so that its failure ends the copy (R230, R425); any other is a store of the tile. -/
def copyStore (w : Who) (v : Nat) (p : Piece) : M Unit := do
  let s ← get
  match p.place with
  | .mem x =>
    if x.mt ≠ 1 then memStore w [p] v
    else match s.win x.pa with
      | .remote _ =>
        let r ← remote w p.va 1 x.pa p.len 0 0 0 (natBytes p.len v) false
        if r.bad then dataErrNow p.va
      | .reg _ => memStore w [p] v
      | _ =>
        match ← asked (.back (x.pa / 128) (lineMask (x.pa % 128) p.len) (linePut (x.pa % 128) (v % 256 ^ p.len))) with
        | some _ => pure ()
        | none => dataErrNow p.va
  | _ => memStore w [p] v

/-- The bytes of a piece enter its destination, with full bits in a scratchpad (R104). -/
def copyWritten (c : Copy) (tile : Nat) (w : CopyWrite) : M Unit := do
  let s ← get
  if c.remote then
    if c.dtile = tile then set (s.engineWrite tile w.dst.toNat w.len w.val true fun n => w.hold.contains n)
    else match s.ask s.me.key tile c.dtile (.put w.dst.toNat w.len w.val none w.hold []) with
      | .got _ _ s => set s
      | .waits a s =>
        set s
        throw (.wait a)
      | .failed s =>
        set s
        dataErrNow w.dst
  else if isScratch w.dst.toNat then
    set (s.engineWrite tile (w.dst.toNat - Config.scratchBase) w.len w.val false fun n => w.hold.contains n)
  else copyEach s.whoStore w.val w.pieces
where
  /-- The pieces of a destination, from its lowest byte. -/
  copyEach (a : Who) (v : Nat) : List Piece → M Unit
    | [] => pure ()
    | p :: r => do
      copyStore a v p
      copyEach a (v / 256 ^ p.len) r

/-- A copy ends at piece n with a STATUS: what it has not written from there on stays unwritten. -/
def Copy.stopAt (c : Copy) (n : Nat) (status : Byte) : Copy :=
  { c with
    stop := if c.stop.all fun x => x.1 = 0 || n < x.2.toNat then some (status, BitVec.ofNat 32 n) else c.stop
    pend := c.pend.filter fun p => p.n < n }

/-- A piece whose write another package may still refuse: the pieces after it wait (R90, R230). -/
def State.mayRefuse (s : State) (w : CopyWrite) : Bool := w.pieces.any fun p => match p.place with
  | .mem x => (match s.win x.pa with | .remote _ => true | _ => false) && x.mt = 1
  | _ => false

/-- The copy's next piece is checked and read (R230). A refused copy writes no piece, so its INFO is 0. -/
def State.copyIssue (s : State) (tile i : Nat) : State :=
  match (s.tile tile).copies[i]? with
  | none => s
  | some c =>
    let stop (s : State) (status : Byte) (n : Nat) : State := s.modTile tile fun t => t.setCopy i (c.stopAt n status)
    if c.stop.isSome || c.pend.any s.mayRefuse then s
    else if c.next = 0 && s.copyRefused tile c then stop s 3 0 else
    match c.piece c.next with
    | none => s.modTile tile fun t => t.setCopy i { c with stop := some (0, 0) }
    | some (r, off, len) =>
      match s.agent tile (engineKey c.asid c.seq) c.cgrp c.supv (copyRead c tile r off len) with
      | .ok w s' =>
        let c' := { c with next := c.next + 1, pend := c.pend ++ [w], stop := if (c.piece (c.next + 1)).isNone then some (0, 0) else none }
        (s'.after s).modTile tile fun t => t.setCopy i c'
      | .error (.cond e) s' => stop (s'.after s) e.status c.next
      | .error (.wait _) s' => s'.after s

/-- Pieces that share a word of their destination are written in the order of their numbers, so that the last one sets it full (R104). -/
def CopyWrite.after (w x : CopyWrite) : Bool :=
  x.n < w.n && x.dst.toNat / 8 ≤ (w.dst.toNat + w.len - 1) / 8 && w.dst.toNat / 8 ≤ (x.dst.toNat + x.len - 1) / 8

/-- A piece that a copy has read is written (R137). -/
def State.copyWrite (s : State) (tile i n : Nat) : State :=
  match (s.tile tile).copies[i]? with
  | none => s
  | some c =>
    match c.pend.find? fun w => w.n = n with
    | none => s
    | some w =>
      if c.pend.any w.after then s else
      match s.agent tile (engineKey c.asid c.seq) c.cgrp c.supv (copyWritten c tile w) with
      | .ok _ s' => (s'.after s).modTile tile fun t => t.setCopy i { c with pend := c.pend.filter fun x => x.n ≠ n }
      | .error (.cond e) s' => (s'.after s).modTile tile fun t => t.setCopy i (c.stopAt n e.status)
      | .error (.wait _) s' => s'.after s

/-- R230: the oldest copy of the tile's queue with a piece left moves one: the first that it has read and not yet written, or else its next. -/
def execCopyPieceWrite (tile : BitVec 10) (s : State) : Host.Outcome State Fault Refusal :=
  let n := tile.toNat
  match firstIdx (fun c => c.stop.isNone || !c.pend.isEmpty) (s.tile n).copies with
  | none => done s
  | some i =>
    let first (s : State) : Option Nat := ((s.tile n).copies[i]?).bind fun c => c.pend.head?.map (·.n)
    match first s with
    | some k => done (s.copyWrite n i k)
    | none =>
      let s1 := s.copyIssue n i
      match first s1 with
      | some k => done (s1.copyWrite n i k)
      | none => done s1

/-- R230: the oldest stopped copy resolves its handle, once every issued piece is written. -/
def execAcopyComplete (tile : BitVec 10) (s : State) : Host.Outcome State Fault Refusal :=
  let n := tile.toNat
  match firstIdx (fun c => c.stop.isSome && c.pend.isEmpty) (s.tile n).copies with
  | none => done s
  | some i =>
    match (s.tile n).copies[i]? with
    | some { key := key, kreg := k, seq := seq, remote := rmt, stop := some (status, info), .. } =>
      done (s.finish n key k (doneWord 1 rmt seq status info) fun s => s.modTile n fun t => { t with copies := dropAt i t.copies })
    | _ => done s

/-! ### Prefetch (R232) -/

/-- What a prefetch came to: every line is filled or passed over, a line must wait, or one is a DATAERR. -/
inductive Filled
  | all (s : State)
  | held (n : Nat) (s : State)
  | bad (n : Nat) (s : State)

/-- Lines of a prefetch in ascending order; a line that does not translate to this package's memory, or is not charged, is passed over (R116). A
fill waits as any read of its line does (R142, R323), and one that fails or comes back uncorrectable, or whose walk does, is a DATAERR (R399, R425). -/
def State.prefetch (s : State) (key : Key) (w : Who) (va : Word) : Nat → Nat → Filled
  | 0, _ => .all s
  | left + 1, i =>
    let a := va + word (128 * i)
    match agentXl s w a with
    | .error (.busy, s1) => .held i s1
    | .error (.dataErr, s1) => .bad i s1
    | .error (_, s1) => s1.prefetch key w va left (i + 1)
    | .ok (x, s1) =>
      match (if x.leaf.getLsbD 5 then s1.win x.pa else .none) with
      | .inter | .near _ _ | .host =>
        match s1.ask key w.tile 1024 (.read (x.pa / 128 * 128) 128) with
        | .waits _ s2 => .held i s2
        | .got _ (.data _ 0) s2 => s2.prefetch key w va left (i + 1)
        | .got _ _ s2 | .failed s2 => .bad i s2
      | _ => s1.prefetch key w va left (i + 1)

/-- R232: a fill that waits keeps the handle pending. -/
def execPrefetchComplete (tile : BitVec 10) (s : State) : Host.Outcome State Fault Refusal :=
  let n := tile.toNat
  match (s.tile n).prefetches with
  | [] => done s
  | p :: r =>
    let lines := (p.va.toNat % 128 + p.len + 127) / 128
    let base := p.va - word (p.va.toNat % 128)
    let with' (s : State) (i : Nat) (stop : Option (Byte × BitVec 32)) : State :=
      s.modTile n fun t => { t with prefetches := { p with done := i, stop := stop } :: r }
    let fin (s : State) (status : Byte) (info : BitVec 32) : State :=
      s.finish n p.key p.kreg (doneWord 3 false p.seq status info) fun s => s.modTile n fun t => { t with prefetches := r }
    match p.stop with
    | some (st, i) => done (fin s st i)
    | none =>
      match s.prefetch (engineKey p.asid p.seq) (agentWho p.asid n p.supv false 7) base (lines - p.done) p.done with
      | .all s1 => done (fin (with' s1 lines (some (0, 0))) 0 0)
      | .held i s1 => done (with' s1 i none)
      | .bad i s1 => done (fin (with' s1 i (some (5, BitVec.ofNat 32 i))) 5 (BitVec.ofNat 32 i))

end Sys2Proof.Machine
end

