-- ==== Sys2Proof/Machine/Routes.lean ====
section
/-!
DEFINITION. How a message is performed once and answered (R323, R422–R425).
-/

namespace Sys2Proof.Machine

/-! ### Performing a message once -/

def State.modMsg (s : State) (i : Nat) (f : Msg → Msg) : State := { s with msgs := s.msgs.modify i f }

/-- A message lost on its way, or the answer to one lost. -/
def MsgSt.lose : MsgSt → MsgSt
  | .sent => .lost
  | .answered a | .dup a => .ansLost a
  | m => m

/-- No earlier message of its class between the same ends is still to be performed (R323); RSP is not sequenced. -/
def State.inOrder (s : State) (i : Nat) (m : Msg) : Bool :=
  m.cls = .rsp || !((s.msgs.take i).any fun n => n.cls = m.cls && n.src = m.src && destOf n.dst n.body = destOf m.dst m.body && n.pending)

/-- A message has been sent: at most 32 of its class from its source to its destination are in flight (R323). -/
def State.windowed (s : State) (i : Nat) (m : Msg) : Bool :=
  m.cls = .rsp || decide (((s.msgs.take i).filter fun n => n.cls = m.cls && n.src = m.src && destOf n.dst n.body = destOf m.dst m.body).length < 32)

/-- A request that its receiver performs as often as it arrives (R424). -/
def Msg.reads (m : Msg) : Bool := match m.body with
  | .access _ (.read ..) _ => true
  | _ => false

/-- A message of the wanted kind arrives: it is discarded at a failed link and counted there (R421), performed in its turn and answered, or, when it
is a duplicate, answered again, a read performed again (R424). `perform` gives the answer, or none while the receiver does not take it. -/
def State.arrive (s : State) (i : Nat) (want : Body → Bool) (perform : Msg → Option (Ans × State)) : State :=
  match s.msgs[i]? with
  | none => s
  | some m =>
    let taken : State := match perform m with
      | some (a, s') => s'.modMsg i fun m => { s.stamp m with st := .answered a }
      | none => s
    let go (s1 : State) : State := match s.lostOn m.trip with
      | some r => (s.modMsg i fun m => { m with st := m.st.lose }).countLost r
      | none => s1
    if !want m.body || !s.windowed i m then s
    else match m.st with
      | .sent => go (if s.inOrder i m then taken else s)
      | .dup a => go (if m.reads then taken else s.modMsg i fun m => { s.stamp m with st := .answered a })
      | _ => s

def State.dropMsg (s : State) (i : Nat) : State := { s with msgs := dropAt i s.msgs }

/-- NET entry of the log (R378); the manual does not lay out its DETAIL (log 21). -/
def State.logNet (s : State) (source : Nat) (l : List Nat) : State := s.logEntry 8 source (l.map word)

/-! ### Command queues (R333) -/

def State.modQueue (s : State) (q : Fin 4) (f : Queue → Queue) : State := { s with queues := s.queues.set q (f s.queues[q]) }

/-- The status is written to the command's DONE cell, and the queue goes on to its next command. -/
def State.answerCmd (s : State) (c : CmdRef) (status : Nat) : State :=
  (s.homeWrite (s.hostPa c.done.toNat) 8 status).modQueue c.queue fun q =>
    { q with head := BitVec.ofNat 64 ((q.head.toNat + 1) % (if q.size = 0 then 1 else q.size.toNat)), busy := false }

end Sys2Proof.Machine
end

