-- ==== Sys2Proof/Machine/Network.lean ====
section
/-!
DEFINITION. Arrivals: requests at the homes (R56, R58, R141), answers, ENQ records (R49, R50), eyelet messages (R237), stealing
(R55), barriers (R61, R326), and INVL (R100).
-/

namespace Sys2Proof.Machine

/-! ### Requests at a home -/

/-- A return-free reduction at its home (R225); one that meets a bad granule is logged and changes nothing (R375). -/
def State.reduceAt (s : State) (pa op : Nat) (wide : Bool) (v : Word) : State :=
  let n := if wide then 8 else 4
  if s.badIn pa n then s.logUncorr 0x7FE pa 5 (lineMask (pa % 128) n) else s.homeWrite pa n (rednOp op wide (s.homeRead pa n) v.toNat)

/-- R225, R141, R424: a request is performed where it arrives. -/
def execReq (i : Nat) (s : State) : Host.Outcome State Fault Refusal :=
  done (s.arrive i (fun b => match b with | .redn .. | .access .. => true | _ => false) fun m =>
    match m.body with
    | .access _ op none => (s.served m.src m.dst op).map fun r => (.home r.1, r.2)
    | .redn _ pa op wide v => if s.heldAtHome pa then none else some (.accepted, s.reduceAt pa op wide v)
    | _ => none)

/-- The waiter slots of a counter cell: their deferral entries leave for their tiles, and the slots are empty (R56). -/
def State.releaseWaiters (s : State) (pa : Nat) : Nat → Nat → State
  | 0, _ => s
  | n + 1, j =>
    let w := BitVec.ofNat 64 (s.homeRead (pa + 8 * j) 8)
    let s1 := if w = 0 then s else (s.homeWrite (pa + 8 * j) 8 0).send .sync 1024 (bits w 63 54) (.release (bits w 31 0 - 1))
    s1.releaseWaiters pa n (j + 1)

/-- One decrement at a cell's home (R56); one that fails is logged under the cell's VA (R369). -/
def State.decrementAt (s : State) (tile : Nat) (pa : Nat) (cell : Word) : State :=
  if s.badIn pa 64 then s.logDrop tile cell
  else
    let count := BitVec.ofNat 64 (s.homeRead pa 8)
    let s0 := s.homeWrite pa 8 (count - 1).toNat
    let s1 : State := if s0.counts.contains (pa, count - 1) then s0 else { s0 with counts := s0.counts ++ [(pa, count - 1)] }
    if count = 1 then s1.releaseWaiters pa 7 1 else s1

/-- R56. -/
def execCounterDecrement (i : Nat) (s : State) : Host.Outcome State Fault Refusal :=
  done (s.arrive i (fun b => match b with | .decrement .. => true | _ => false) fun m =>
    match m.body with
    | .decrement _ pa cell => if s.heldAtHome pa then none else some (.accepted, s.decrementAt m.src pa cell)
    | _ => none)

/-- What a cell's home answers to a deferral (R58). -/
def State.deferAt (s : State) (tile entry pa : Nat) : Ans × State :=
  if s.badIn pa 64 then (.failed, s)
  else if (BitVec.ofNat 64 (s.homeRead pa 8)).toInt ≤ 0 then (.placeNow entry, s)
  else match (List.range 7).find? fun j => s.homeRead (pa + 8 * (j + 1)) 8 = 0 with
    | none => (.full entry, s)
    | some j => (.accepted, s.homeWrite (pa + 8 * (j + 1)) 8 (tile * 2 ^ 54 + entry + 1))

/-- R58. -/
def execCounterWaiter (i : Nat) (s : State) : Host.Outcome State Fault Refusal :=
  done (s.arrive i (fun b => match b with | .waiter .. => true | _ => false) fun m =>
    match m.body with
    | .waiter _ pa entry => if s.heldAtHome pa then none else some (s.deferAt m.src entry pa)
    | _ => none)

/-! ### Records that arrive (R49, R50, R436) -/

/-- The records of a tile out of service go to its overflow area as far as it has entries, each with its HELD record. -/
def State.evacuate (s : State) (tile : Nat) : State :=
  ((s.tile tile).deque.filter fun r => r.hold ≠ 5).foldl (fun s r =>
    let t := s.tile tile
    match (match r.spill with | some i => some i | none => t.freeSpill) with
    | none => s
    | some i =>
      let pa := t.ovfBase + 128 * i
      match s.areaFault pa with
      | some code => s.spillFault tile r pa code
      | none =>
        if s.barred tile pa then s else
        let (s1, q) := s.spillTo tile { r with hold := 5 } i
        let (s2, token) := s1.sendItem tile 6
          { asid := r.asid, handle := if r.resume then r.key.handle else 0, pc := r.entry, addr := word pa, info := 5 }
        s2.modTile tile fun t =>
          { t with
            deque := swapRec r q t.deque
            items := (t.items.filter fun i => match i with | .hold h _ => !h.like r | _ => true) ++ [.hold q token] }) s

/-- A tile takes a record: a tile out of service hands it over (R436). -/
def State.deposit (s : State) (tile : Nat) (r : Rec) : State :=
  if (s.tile tile).out then (s.modTile tile fun t => { t with deque := t.deque ++ [{ r with stamp := t.d }] }).evacuate tile
  else s.enqueue tile r

/-- A record that a LAUNCH command sends is stored: the command has its status then, or once a fault of the overflow area is dealt with (R334,
R414). -/
def State.storedFor (s s1 : State) (tile : Nat) (r : Rec) (cmd : Option CmdRef) : State :=
  match cmd with
  | none => s1
  | some c =>
    let held (i : Item) : Bool := match i with
      | .spill q none _ => q.body = r.body && q.asid = r.asid && !(s.tile tile).items.contains i
      | _ => false
    if (s1.tile tile).items.any held then
      s1.modTile tile fun t => { t with items := t.items.map fun i => match i with
        | .spill q none n => if held i then .spill q (some c) n else i
        | i => i }
    else s1.answerCmd c 1

/-- The next free entry of a tile's overflow area can be written now (R142, R421). -/
def State.spillOpen (s : State) (tile : Nat) : Bool := (s.tile tile).freeSpill.any fun i => !s.barred tile ((s.tile tile).ovfBase + 128 * i)

/-- Whether a tile can store a record now: one of a space that is out needs an entry of the overflow area (R58, R414). -/
def State.canTake (s : State) (tile : Nat) (r : Rec) : Bool :=
  if s.resident r.asid then ((s.tile tile).inHw.length < 256 && !(s.tile tile).out) || s.spillOpen tile || (s.tile tile).out else s.spillOpen tile

/-- The figure that (x, y, 0) uses for a tile of its column (R50, R432, R436). -/
def State.figure (s : State) (base tile : Nat) : Nat :=
  let y := s.layer (tile / 64)
  if (s.tile tile).out || y.clk.toNat < y.req.toNat then 65535 else (look tile (s.tile base).figures).getD 0

/-- The tile of a column with the lowest figure, the lowest z on a tie (R50). -/
def State.lightest (s : State) (base : Nat) : Nat :=
  (List.range 16).foldl (fun best z => if s.figure base (base + 64 * z) < s.figure base best then base + 64 * z else best) base

/-- R49, R50: the record goes into the deque, or from (x, y, 0) up the column; the answer is the slot's credit. A record of MODE 3 that no
command sends comes to a thief, which dispatches it (R55). -/
def execEnq (i : Nat) (s : State) : Host.Outcome State Fault Refusal :=
  done (s.arrive i (fun b => match b with | .enq .. => true | _ => false) fun m =>
    match m.body with
    | .enq r climb cmd =>
      let dst := if climb then s.lightest m.dst else m.dst
      if dst = m.dst then
        if s.canTake m.dst r then
          let s1 := s.storedFor (s.deposit m.dst r) m.dst r cmd
          some (.accepted, if cmd.isNone && r.mode = 3 then s1.dispatchStolen m.dst r else s1)
        else none
      else if 2 ≤ (s.tile m.dst).credit dst then none
      else some (.accepted, s.sendEnq m.dst dst r false cmd)
    | _ => none)

/-- The record of a deferral entry is placed by the tile that deferred it (R48, R58); none while it must wait. -/
def State.placeReleased (s : State) (tile : Nat) (r : Rec) : Option State :=
  if r.mode = 1 then
    if 2 ≤ (s.tile tile).credit (r.place % 1024) then none else some (s.sendEnq tile (r.place % 1024) r false)
  else if r.mode = 2 then
    let w := agentWho r.asid tile (itemSupv r.asid tile) false 0
    match translate s w (va57 r.affinity) with
    | .error .busy => none
    | .error e =>
      let q := { r with hold := 6 }
      let (s1, token) := (s.denied w (va57 r.affinity)).sendItem tile 6 { e.info 0 with asid := r.asid, pc := r.entry, addr := r.affinity, info := 6 }
      some (s1.modTile tile fun t => { t with deque := t.deque ++ [{ q with stamp := t.d }], items := t.items ++ [.hold { q with stamp := t.d } token] })
    | .ok (x, s1) => if 2 ≤ (s1.tile tile).credit (slice x.pa) then none else some (s1.sendEnq tile (slice x.pa) r true)
  else if s.canTake tile r then some (s.deposit tile r) else none

def State.freeDeferral (s : State) (tile entry : Nat) : State := s.modTile tile fun t => { t with deferrals := t.deferrals.filter fun j => j ≠ entry }

/-- A message that its tile holds until a reply arrives. -/
def State.isHeld (s : State) (tile : Nat) (m : Msg) : Bool :=
  (s.tile tile).items.any fun it => match it with
    | .ring n _ => n.src = m.src && n.cls = m.cls && n.seq = m.seq && destOf n.dst n.body = destOf m.dst m.body
    | _ => false

/-- An access to the deferral area that fails holds the entry number at its tile, with a SPILL record (R58, R365). -/
def State.holdRelease (s : State) (i : Nat) : State :=
  match s.msgs[i]? with
  | some m =>
    match m.body with
    | .release entry =>
      let pa := (s.tile m.dst).dfrBase + 128 * entry
      match (if m.st = .sent && s.windowed i m && s.inOrder i m && !s.isHeld m.dst m && (s.lostOn m.trip).isNone then s.areaFault pa else none) with
      | some code =>
        let (s1, token) := s.sendItem m.dst 11 { addr := word pa, code := BitVec.ofNat 16 code, info := faultInfo 7 15, acc := faultInfo 7 15 }
        s1.modTile m.dst fun t => { t with items := t.items ++ [.ring m token] }
      | none => s
    | _ => s
  | none => s

/-- R58: the entry is read and freed, and its record placed. -/
def execDeferredRelease (i : Nat) (s : State) : Host.Outcome State Fault Refusal :=
  let s := s.holdRelease i
  done (s.arrive i (fun b => match b with | .release _ => true | _ => false) fun m =>
    match m.body with
    | .release entry =>
      let t := s.tile m.dst
      let pa := t.dfrBase + 128 * entry
      let r := recOfEntry (s.homeRead pa 128)
      let s1 := s.freeDeferral m.dst entry
      if s.isHeld m.dst m || (s.areaFault pa).isSome || s.barred m.dst pa then none
      else if s.resident r.asid then (s1.placeReleased m.dst r).map fun s2 => (.accepted, s2)
      else if s.canTake m.dst r then some (.accepted, s1.deposit m.dst r) else none
    | _ => none)

/-- R50: ready records and active strands, as (x, y, 0) then has them. -/
def execLoadFigureReport (tile : BitVec 10) (s : State) : Host.Outcome State Fault Refusal :=
  let n := tile.toNat
  let active := (s.strands.filter fun t => t.tile = tile && t.state = 1).length
  done (s.modTile (n % 64) fun t => { t with figures := put n ((s.tile n).deque.length + active) t.figures })

/-! ### Eyelet messages (R237) -/

/-- A ring fault holds the message at its tile, with a RING record (R237, R365). -/
def State.holdMessage (s : State) (i : Nat) : State :=
  match s.msgs[i]? with
  | some m =>
    match m.body with
    | .eyelet _ id cls pkt words seq =>
      if m.st ≠ .sent || !s.windowed i m || !s.inOrder i m || s.isHeld m.dst m || (s.lostOn m.trip).isSome then s else
      match s.accept m.dst id (eyHeader cls pkt 0 words.length m.src seq) words with
      | .ringFault a e s' =>
        let (s1, token) := s'.sendItem m.dst 9
          { code := BitVec.ofNat 16 e.code, asid := ((s.tile m.dst).eyelet (eyIndex id)).owner.asid, addr := a, info := faultInfo 7 e.level, acc := faultInfo 7 e.level, pte := e.pte }
        s1.modTile m.dst fun t => { t with items := t.items ++ [.ring m token] }
      | .busy s' => s'
      | .done .. => s
    | _ => s
  | none => s

/-- A message enters a free slot of its eyelet word by word: it is accepted, and the next one waits until its words are there (R138, R237). -/
def State.slotOpen (s : State) (i : Nat) : State :=
  s.arrive i (fun b => match b with | .eyelet .. => true | _ => false) fun m =>
    match m.body with
    | .eyelet _ id cls pkt words seq =>
      let e := (s.tile m.dst).eyelet (eyIndex id)
      if s.isHeld m.dst m || e.arriving.isSome || !e.live || e.gen ≠ eyGen id || e.owner.asid ≠ eyAsid id || e.rcount ≠ 0 then none
      else e.freeSlot.map fun slot => (.accepted, s.openSlot m.dst (eyIndex id) slot (eyHeader cls pkt 0 words.length m.src seq) words)
    | _ => none

/-- R237, R238. -/
def execEyeletMessage (i : Nat) (s : State) : Host.Outcome State Fault Refusal :=
  let s := s.holdMessage i
  done (s.arrive i (fun b => match b with | .eyelet .. => true | _ => false) fun m =>
    match m.body with
    | .eyelet _ id cls pkt words seq =>
      if s.isHeld m.dst m then none else
      match s.accept m.dst id (eyHeader cls pkt 0 words.length m.src seq) words with
      | .done a s' => some (a, s')
      | .busy _ => none
      | .ringFault _ _ _ => none
    | _ => none)

/-- R237: the head of the ring enters a free slot. -/
def execRingToSlot (tile : BitVec 10) (idx : Fin 64) (s : State) : Host.Outcome State Fault Refusal :=
  done (if ((s.tile tile.toNat).eyelet idx.val).live then s.pump tile.toNat idx.val 1 else s)

/-! ### Stealing (R55) -/

def dirPort : Nat → Port
  | 0 => .xp | 1 => .xm | 2 => .yp | 3 => .ym | 4 => .zp | _ => .zm

/-- The next probe of a thief. -/
def State.probe (s : State) (tile dir : Nat) : State :=
  (s.modTile tile fun t => { t with idle := { t.idle with on := true, dir := dir } }).send .sync tile (neighbour tile (dirPort dir)) (.probe dir)

/-- R55: after 64 idle cycles. -/
def execTileIdle (tile : BitVec 10) (s : State) : Host.Outcome State Fault Refusal :=
  let t := s.tile tile.toNat
  done (if s.isIdle tile.toNat && 64 ≤ t.idle.cycles && !t.idle.on then s.probe tile.toNat 0 else s)

/-- The record that a probed tile surrenders. -/
def State.surrendered (s : State) (tile : Nat) : Option Rec :=
  lastRec (s.tile tile).d (fun r => r.spill.isNone && r.mode = 3 && !r.resume && r.hold = 0 && s.resident r.asid) (s.tile tile).deque

/-- R55: the probed tile sends a record in the thief's ENQ slot, or refuses. -/
def execStealProbe (i : Nat) (s : State) : Host.Outcome State Fault Refusal :=
  done (s.arrive i (fun b => match b with | .probe _ => true | _ => false) fun m =>
    match s.surrendered m.dst with
    | none => some (.refused, s)
    | some r =>
      if 2 ≤ (s.tile m.dst).credit m.src then none
      else some (.accepted, (s.modTile m.dst fun t => t.dropRec r).sendEnq m.dst m.src { r with spill := none } false))

/-- R55: six refusals and 256 cycles later. -/
def execStealRetry (tile : BitVec 10) (s : State) : Host.Outcome State Fault Refusal :=
  let t := s.tile tile.toNat
  done (if t.idle.on && t.idle.dir = 6 && t.idle.wait = 0 then
    (if s.isIdle tile.toNat then s.probe tile.toNat 0 else s.modTile tile.toNat fun t => { t with idle := { t.idle with on := false } })
  else s)

/-- A probe's answer at the thief. -/
def State.probed (s : State) (tile dir : Nat) (a : Ans) : State :=
  if a = .refused && s.isIdle tile then
    if dir < 5 then s.probe tile (dir + 1) else s.modTile tile fun t => { t with idle := { t.idle with dir := 6, wait := 256 } }
  else s.modTile tile fun t => { t with idle := { t.idle with on := false } }

/-! ### Answers (R323, R424) -/

/-- The home's answer to a deferral, at the strand or command that waits for it; an entry that no slot names is free again. -/
def State.waiterAnswer (s : State) (tile : Nat) (who : Spawner) (entry : Nat) (a : Ans) : Option State :=
  let gone : State := if a = .accepted then s else s.freeDeferral tile entry
  match who with
  | .strand key =>
    match s.theStrand? key with
    | none => some gone
    | some t =>
      if t.ans ≠ some .asked then some gone
      else match a with
        | .placeNow _ => some (s.modStrand key fun t => { t with ans := some a })
        | _ => some (gone.modStrand key fun t => { t with ans := some a })
  | .command _ c =>
    match a with
    | .placeNow e =>
      let pa := (s.tile tile).dfrBase + 128 * e
      let r := recOfEntry (s.homeRead pa 128)
      if (s.areaFault pa).isSome || s.barred tile pa then none
      else if r.mode = 1 || r.mode = 2 then
        let dst := if r.mode = 1 then r.place % 1024 else s.lightest tile
        if 2 ≤ (s.tile tile).credit dst then none else some ((s.freeDeferral tile e).sendEnq tile dst r false (some c))
      else if s.canTake tile r then some (s.storedFor ((s.freeDeferral tile e).deposit tile r) tile r (some c)) else none
    | .full _ => some (gone.answerCmd c 2)
    | .failed => some (gone.answerCmd c 3)
    | _ => some (s.answerCmd c 1)

/-- What an answer does at its requester; none while it must wait there. -/
def State.answered (s : State) (m : Msg) (a : Ans) : Option State :=
  match m.body with
  | .redn key .. => some (s.modStrand key fun t => { t with redn := t.redn - 1 })
  | .eyelet key .. => some (s.modStrand key fun t => if t.ans = some .asked then { t with ans := some a } else t)
  | .waiter who _ entry => s.waiterAnswer m.src who entry a
  | .enq .. => some (s.modTile m.src fun t => t.backCredit m.dst)
  | .probe dir => some (s.probed m.src dir a)
  | _ => some s

/-- A command's deferral entry that cannot be read back holds the answer at its tile, with a SPILL record (R58, R334, R365). -/
def State.holdAnswer (s : State) (m : Msg) : State :=
  match m.body, m.st with
  | .waiter (.command ..) _ _, .answered (.placeNow e) =>
    let pa := (s.tile m.src).dfrBase + 128 * e
    match (if s.isHeld m.src m then none else s.areaFault pa) with
    | some code =>
      let (s1, token) := s.sendItem m.src 11 { addr := word pa, code := BitVec.ofNat 16 code, info := faultInfo 7 15, acc := faultInfo 7 15 }
      s1.modTile m.src fun t => { t with items := t.items ++ [.ring m token] }
    | none => s
  | _, _ => s

/-- A home's answer to a request waits for its requester to take it; one to an uncached store is only counted (R111). -/
def Body.gotten (b : Body) (a : Ans) : Option Body :=
  match b, a with
  | .access _ (.write ..) none, _ => none
  | .access key op none, .home x => some (.access key op (some (some x)))
  | b, _ => some b

/-- R323, R424: the answer arrives, and its message is over. -/
def execRsp (i : Nat) (s : State) : Host.Outcome State Fault Refusal :=
  match s.msgs[i]? with
  | some m =>
    match m.st with
    | .answered a =>
      match s.lostOn m.tripBack with
      | some r => done ((s.modMsg i fun m => { m with st := m.st.lose }).countLost r)
      | none => match m.body with
        | .access .. => match m.body.gotten a with
          | some b => done (s.modMsg i fun m => { s.stampBack m with body := b })
          | none => done (s.dropMsg i)
        | _ =>
          let s := s.holdAnswer m
          if s.isHeld m.src m && (m.body matches .waiter ..) then done s else
          match s.answered m a with
          | some s' => done (s'.dropMsg i)
          | none => done s
    | _ => done s
  | none => done s

/-! ### Barriers (R61, R243, R326) -/

/-- R326: an arrival reaches its tile's router, or a combined value the next one. -/
def execBarrierArrival (i : Nat) (s : State) : Host.Outcome State Fault Refusal :=
  done (s.arrive i (fun b => match b with | .arrival .. | .combined .. => true | _ => false) fun m =>
    match m.body with
    | .combined key a dom => some (.accepted, s.combined m.src m.dst key a dom)
    | .arrival key a =>
      match s.theStrand? key with
      | none => some (.accepted, s)
      | some t =>
        if t.arrival = some a then
          let t1 := { t with arrival := some { a with stage := 1, at_ := m.dst } }
          some (.accepted, (s.modStrand key fun _ => t1).tryComplete t1)
        else some (.accepted, s)
    | _ => none)

/-- R61: the generation's result reaches a member. -/
def execBarrierCompletion (i : Nat) (s : State) : Host.Outcome State Fault Refusal :=
  done (s.arrive i (fun b => match b with | .completion .. => true | _ => false) fun m =>
    match m.body with
    | .completion key b _ r =>
      some (.accepted, s.modStrand key fun t =>
        { t with arrival := t.arrival.map fun a => if a.kind = b.kind && a.stage = 2 then { a with result := some r } else a })
    | _ => none)

/-! ### INVL (R100, R317) -/

/-- Whether an INVL covers a space, and a part of it a range of VA. -/
def Invl.hitsAsid (v : Invl) (asid : BitVec 12) : Bool := v.form = 2 || v.asid = asid
def Invl.hits (v : Invl) (asid : BitVec 12) (va n : Nat) : Bool :=
  v.hitsAsid asid && (v.form ≠ 0 || overlap va n (va57 v.va) v.len.toNat)

def Invl.hitsTlb (v : Invl) (e : Tlb) : Bool := v.hits e.asid (e.page * 2 ^ sizeShift e.size) (2 ^ sizeShift e.size)
def Invl.hitsWalker (v : Invl) (w : Wentry) : Bool := v.hits w.asid (w.prefix_ * 2 ^ lvlShift w.level) (2 ^ lvlShift w.level)

/-- Accesses that a tile has translated and that no home has served (R100, step 2). -/
def State.unserved (s : State) (tile : Nat) : Bool :=
  (s.msgs.any fun m => m.src = tile && m.pending && m.body.pa?.isSome) || s.packets.any fun p => bits p.hdr 95 86 = tile && p.reply.isNone

/-- Write-backs of a tile that an INVL asks for and that cannot leave now: a clamp holds them (R142), or no way leads home;
or accesses of the space that have begun: outstanding loads, pieces still to be performed, and what copies have read and not yet written. -/
def State.invlHeld (s : State) (tile : Nat) (v : Invl) : Bool :=
  ((s.tile tile).l1.any fun e => v.hitsAsid e.asid && s.stuck tile e) ||
    (s.strands.any fun t => t.tile.toNat = tile && v.hitsAsid t.key.asid && !(t.late.isEmpty && t.pieces.isEmpty)) ||
    (s.tile tile).copies.any fun c => v.hitsAsid c.asid && !c.pend.isEmpty

/-- Step 1 at a tile: its entries and its layer's go. -/
def State.invlDrop (s : State) (tile : Nat) (v : Invl) : State :=
  let s1 := s.modTile tile fun t => { t with tlb1 := t.tlb1.filter fun e => !v.hitsTlb e, tlb2 := t.tlb2.filter fun e => !v.hitsTlb e }
  let y := s1.layer (tile / 64)
  s1.setLayer (tile / 64) { y with lltlb := y.lltlb.filter fun e => !v.hitsTlb e }

/-- Step 3 at a tile: its lines of the space go home. -/
def State.invlLines (s : State) (tile : Nat) (v : Invl) : State :=
  let s1 := ((s.tile tile).l1.filter fun e => v.hitsAsid e.asid).foldl (fun s e => s.writeBack tile e) s
  s1.modTile tile fun t => { t with l1 := t.l1.filter fun e => !v.hitsAsid e.asid }

/-- A tile's part, as far as it now gets, and whether it acknowledges: its accesses are served and its bytes are at their homes, those of
another package too. -/
def State.invlTile (s : State) (tile : Nat) (v : Invl) : State × Bool :=
  let s1 := s.invlDrop tile v
  if s1.unserved tile || s1.invlHeld tile v then (s1, false) else
  let s2 := s1.invlLines tile v
  (s2, !s2.unserved tile)

/-- Whether a kernel's segment still stands after a fresh walk (R317). -/
def State.segGood (s : State) (k : Kernel) (g : Seg) : Bool :=
  match walk s k.asid g.va with
  | .ok (size, leaf, _, _) =>
    let needs := (k.ranges[g.range]?).any (·.w)
    g.bytes ≤ 2 ^ sizeShift size && (bits leaf 51 16 * 2 ^ 16 + g.va % 2 ^ sizeShift size = g.pa) && (!needs || leaf.getLsbD 2) && (k.supv || !leaf.getLsbD 4)
  | .error _ => false

/-- A kernel that loses a page: it is marked, to end UNMAPPED (R317). -/
def State.invlKernel (s : State) (v : Invl) (k : Kernel) : Kernel :=
  if k.segs.any fun g => v.hits k.asid g.va g.bytes && !s.segGood k g then { k with unmapped := true } else k

/-- The kernels of the welt scheduler. -/
def State.kernels (s : State) : List Kernel :=
  s.cores.filterMap (·.2.kern) ++ s.stks.flatMap fun e => e.2.queue ++ (e.2.suspended ++ e.2.restores).filterMap (·.core.kern)

/-- A walk that the scheduler's check needs reads a clamped bank (R142). -/
def State.invlWalks (s : State) (v : Invl) : Bool :=
  s.kernels.any fun k => k.segs.any fun g => v.hits k.asid g.va g.bytes && match walk s k.asid g.va with
    | .error .busy => true
    | _ => false

/-- The welt scheduler's part: running kernels end at their next boundary, queued and suspended ones at once; and whether it acknowledges:
what a running kernel has posted through an old entry is performed (R317). A queued kernel has run no instruction: the PC field of its INFO is 0
(DESIGN CHOICE, log 88). -/
def State.invlWelt (s : State) (v : Invl) : State × Bool :=
  if s.invlWalks v then (s, false) else
  let mark := s.invlKernel v
  let info (pc : BitVec 18) : BitVec 32 := kernInfo 7 pc
  let ends : List (Kernel × BitVec 18) := s.stks.flatMap fun e =>
    (e.2.queue.map fun k => (mark k, 0)) ++ ((e.2.suspended ++ e.2.restores).filterMap fun v => v.core.kern.map fun k => (mark k, v.core.pc))
  let s1 : State :=
    { s with
      cores := s.cores.map fun e => (e.1, { e.2 with kern := e.2.kern.map mark })
      stks := s.stks.map fun e =>
        let live (x : Saved) : Bool := !(x.core.kern.any fun k => (mark k).unmapped)
        (e.1, { e.2 with
          queue := e.2.queue.filter fun k => !(mark k).unmapped
          suspended := e.2.suspended.filter live
          restores := e.2.restores.filter live }) }
  let s2 := (ends.filter fun e => e.1.unmapped).foldl (fun s e => s.sendEnd e.1 7 (info e.2)) s1
  (s2, !(s2.cores.any fun e => (e.2.kern.any fun k => k.unmapped) && !e.2.posted.isEmpty))

/-- R100: one receiver acts and acknowledges. Receivers 0–1,023 are the tiles with their layers' LLTLB banks, 1,024 the walker cache,
1,025 the welt scheduler. -/
def execInvlReceive (i : Nat) (receiver : BitVec 11) (s : State) : Host.Outcome State Fault Refusal :=
  match s.invls[i]? with
  | none => done s
  | some v =>
    let n := receiver.toNat
    if !v.left.getLsbD n then done s else
    let (s1, acks) : State × Bool := if n < 1024 then s.invlTile n v
      else if n = 1024 then ({ s with walker := s.walker.filter fun w => !v.hitsWalker w }, true)
      else s.invlWelt v
    if !acks then done s1 else
    done
      { s1 with
        invls := s1.invls.modify i fun v => { v with left := v.left &&& ~~~ (BitVec.ofNat 1026 (2 ^ n)) }
        migrating := if v.who = .migrateFlip || v.who = .migrateUndo then s1.migrating.map fun g => { g with drain := g.drain - 1 } else s1.migrating }

end Sys2Proof.Machine
end

