-- ==== Sys2Proof/Machine/Replies.lean ====
section
/-!
DEFINITION. What a reply does to the strand that its record names (R367, R369, R374, R402, R405–R407).
-/

namespace Sys2Proof.Machine

/-- ACTION of R367. -/
inductive Action
  | retry | deliver | kill
  deriving DecidableEq, Repr

def Action.num : Action → Nat
  | .retry => 0 | .deliver => 1 | .kill => 2

/-! ### The strand's line 0 (R369) -/

/-- TCAUSE := KILLED. -/
def Strand.killNow (t : Strand) : Strand := { t with tcause := BitVec.ofNat 16 KILLED, killed := true }

/-- A reply to a FRAME, DATA or TRAP record. -/
def Strand.takeReply (t0 : Strand) (a : Action) (code : BitVec 16) : Strand :=
  let t := { t0 with pend := t0.pend - 1 }
  match a with
  | .retry => t
  | .kill => t.killNow
  | .deliver =>
    if code = 0 then t
    else if t.tvec = 0 then t.killNow
    else if t.tcause = 0 && !t.intrap then
      { t with tcause := code, killed := t.killed || decide (code.toNat = KILLED), deliver := t.deliver || t.reason = 1 || t.reason = 2 }
    else t

/-- The record is answered. -/
def Strand.answeredTo (t : Strand) (token : BitVec 16) : Strand := { t with tokens := t.tokens.filter fun e => e.1 ≠ token }

/-- A strand's resume record is on its tile, in the deque or held by a SPILL record (R406, R414). -/
def State.hasRecord (s : State) (t : Strand) : Bool :=
  let mine (r : Rec) : Bool := r.resume && r.key = t.key
  (s.tile t.tile.toNat).deque.any mine || (s.tile t.tile.toNat).items.any fun i => match i with
    | .spill r _ _ => mine r
    | _ => false

/-- A reply that brings PEND to 0 makes the strand ready, with one resume record (R406). -/
def State.afterReply (s : State) (key : Key) : State :=
  match s.theStrand? key with
  | none => s
  | some t =>
    if t.pend ≠ 0 || t.reason = 0 || !s.resident key.asid then s else
    let s1 := s.modStrand key fun t => { t with reason := 0, state := if t.state = 3 then 0 else t.state, dirty := t.dirty ||| lineBit 0 }
    if s.hasRecord t then s1 else s1.enqueue t.tile.toNat t.resumeRec

/-! ### Retained lines (R373, R402) -/

/-- A line that cannot be written back is retained, with a DRAIN record (R373). -/
def State.retainLine (s : State) (key : Key) (tile n : Nat) (c : Cond) : State :=
  let (s1, token) := s.sendItem tile 10 { c.info with asid := key.asid, handle := key.handle, addr := c.taddr, info := c.tinfo }
  (s1.modTile tile fun t => { t with items := t.items ++ [.line key n token] }).modStrand key fun t => { t with retained := t.retained ||| lineBit n }

/-- A line that is home leaves the tile; line 0 of an active strand stays, an ordinary line again. -/
def State.lineGone (s : State) (t : Strand) (n : Nat) : State :=
  let pinned := n = 0 && t.state = 1
  let s1 := s.modStrand t.key fun u =>
    { u with
      retained := u.retained &&& ~~~ (lineBit n)
      dirty := u.dirty &&& ~~~ (lineBit n)
      present := if pinned then u.present else u.present &&& ~~~ (lineBit n) }
  if pinned then s1 else s1.modTile t.tile.toNat fun u => { u with rdir := u.rdir.filter fun e => e ≠ (t.key, n) }

/-- A line that a fault keeps on its tile is written back: a fault parks its strand again, or, while its space is out, is a DRAIN record. -/
def State.retryLine (s : State) (key : Key) (n : Nat) : Try :=
  match s.theStrand? key with
  | none => .ok s
  | some t =>
    if s.isOut key.asid then
      match s.frameHome t n with
      | .ok s1 => .ok (s1.lineGone t n)
      | .error (.wait s1) => .wait s1
      | .error (.cond c s1) => .ok (s1.retainLine key t.tile.toNat n c)
    else match frameWrite s t n with
      | .ok s1 => .ok (s1.dropLine t.tile.toNat key n)
      | .error (.wait s1) => .wait s1
      | .error (.cond c s1) => .ok (s1.parkFrame key t c)

def State.retryEach (s : State) (key : Key) : List Nat → Try
  | [] => .ok s
  | n :: r => match s.retryLine key n with
    | .ok s1 => s1.retryEach key r
    | o => o

/-- A RETRY writes back at once, whichever space is resident, the lines that a fault kept on their tile (R402). -/
def State.retryLines (s : State) (t : Strand) : Try :=
  let drains (n : Nat) : Bool := (s.tile t.tile.toNat).items.any fun i => match i with | .line k m _ => k = t.key && m = n | _ => false
  s.retryEach t.key ((List.range 32).filter fun n => t.retained.getLsbD n && !drains n)

/-! ### Watchdog replies (R374) -/

/-- A blocked strand's message that a ring fault holds is withdrawn with its instruction. -/
def State.withdraw (s : State) (key : Key) : State :=
  let mine (m : Msg) : Bool := (match m.body with | .eyelet k .. => decide (k = key) | _ => false) && m.pending
  (s.msgs.filter mine).foldl (fun s m => s.modTile m.dst fun t => { t with items := t.items.filter fun i => match i with
    | .ring n _ => !(mine n)
    | _ => true }) { s with msgs := s.msgs.filter fun m => !mine m }

/-- The blocked instruction is abandoned. -/
def Strand.abandon (t : Strand) (code : BitVec 16) : Strand :=
  { t with
    trappc := t.pc, tcause := code, wait := none, blocked := 0, noticed := false, ans := none, arrival := none,
    parts := [], did := 0, begun := false, pieces := [], inSecond := false, spawning := none, leaving := none,
    dirty := t.dirty ||| lineBit 0 }

/-- A DELIVER with a nonzero CODE to a strand that is still blocked in the pair of its record. -/
def State.deliverBlocked (s : State) (t : Strand) (code : BitVec 16) : State :=
  let s1 := ((s.as t.key fun s => s.leaveQueues t.key).withdraw t.key)
  if t.state = 1 then
    s1.modStrand t.key fun t => { t.flushHeld.abandon code with intrap := true, pc := t.tvec, npc := t.tvec }
  else (s1.modStrand t.key fun t => { t.abandon code with deliver := true }).makeReady t.key

/-! ### A reply at the tile of its record (R369, R405, R407) -/

/-- The kind of the strand's record with that TOKEN. -/
def Strand.kindOf (t : Strand) (token : BitVec 16) : Option Nat := (t.tokens.find? fun e => e.1 = token).map fun e => e.2.toNat

def replyKey (w0 : Word) : Key := { asid := w0.extractLsb' 45 12, handle := w0.extractLsb' 0 45 }
def replyToken (w1 : Word) : BitVec 16 := w1.extractLsb' 32 16
def replyCode (w1 : Word) : BitVec 16 := w1.extractLsb' 0 16
def replyAction (w0 : Word) : Action := if bits w0 63 62 = 1 then .deliver else if bits w0 63 62 = 2 then .kill else .retry

def Tile.heldReplies (t : Tile) : Nat := (t.items.filter fun i => match i with | .reply _ _ none => true | _ => false).length

/-- The overflow entry that holds a reply: its two words and, where a record has it, its ASID (R407, R413; the manual lays out no more: DESIGN
CHOICE, log 69). -/
def replyEntry (w0 w1 : Word) : Nat := w0.toNat + 2 ^ 64 * w1.toNat + 2 ^ 576 * (replyKey w0).asid.toNat

/-- An access to the overflow area that moves a reply fails: a SPILL record, and the item waits for the answer (R414). -/
def State.replyFault (s : State) (tile pa code : Nat) (item : BitVec 16 → Item) : State :=
  let (s1, token) := s.sendItem tile 11 { addr := BitVec.ofNat 64 pa, code := BitVec.ofNat 16 code, info := faultInfo 7 15, acc := faultInfo 7 15 }
  s1.modTile tile fun t => { t with items := t.items ++ [item token] }

/-- A reply that the tile holds: the first 256 in its queue, the others in its overflow area as far as that has room (R407). -/
def State.holdReply (s : State) (tile : Nat) (w0 w1 : Word) : State :=
  let t := s.tile tile
  let hold (s : State) (e : Option Nat) : State := s.modTile tile fun t => { t with items := t.items ++ [.reply w0 w1 e] }
  match (if t.heldReplies < 256 then none else t.freeSpill) with
  | none => hold s none
  | some i =>
    let pa := t.ovfBase + 128 * i
    match s.areaFault pa with
    | some code => s.replyFault tile pa code fun token => .replyStore w0 w1 token
    | none => if s.barred tile pa then hold s none else hold (s.homeWrite pa 128 (replyEntry w0 w1)) (some i)

/-- A reply that must wait comes to its tile once more. -/
def State.replyAgain (s : State) (tile : Nat) (w0 w1 : Word) : State := s.send .sync tile tile (.reply w0 w1)

/-- A change of a strand's line 0 where the line lies, or a wait. While its space leaves, the tile holds the reply; one that faults is held
until the space is resumed, and dropped when it faults then (`last`). A line that the register cache lacks is fetched for it; one that faults
changes what the tile keeps, so that a KILL ends a strand whose frame is gone (R402). -/
def State.atLine0 (s : State) (t : Strand) (w0 w1 : Word) (last : Bool) (f : Strand → Strand) : State :=
  let tile := t.tile.toNat
  let here := t.present.getLsbD 0 || t.dirty.getLsbD 0
  let keep (s : State) (t : Strand) : State := s.modStrand t.key fun _ => { f t with dirty := t.dirty ||| lineBit 0 }
  if (s.isOut t.key.asid || last) && !here then
    match s.atHome t 0 f with
    | .ok s1 => s1
    | .error (.cond _ s1) => if last then (s1.modStrand t.key fun t => t.answeredTo (replyToken w1)).logDrop tile (lineVA t.key 0) else s1.holdReply tile w0 w1
    | .error (.wait s1) => s1.replyAgain tile w0 w1
  else if !s.isOut t.key.asid && !s.resident t.key.asid then s.holdReply tile w0 w1
  else if here then keep s t
  else match s.fetchLine t 0 with
    | .ok (s1, t1) => keep s1 t1
    | .error (.wait s1) => s1.replyAgain tile w0 w1
    | .error (.cond _ s1) => keep s1 t

/-- A reply to a strand's record; none when the strand and TOKEN match nothing. One to a WATCHDOG record acts only while the strand is still blocked
in the record's pair (R374). -/
def State.strandReply (s : State) (tile : Nat) (w0 w1 : Word) (last : Bool) : Option State :=
  match s.theStrand? (replyKey w0) with
  | none => none
  | some t =>
    if t.tile.toNat ≠ tile then none else
    let token := replyToken w1
    let act := replyAction w0
    let code := replyCode w1
    match t.kindOf token with
    | none => none
    | some 4 =>
      let kills := act == Action.kill || (act == Action.deliver && code ≠ 0 && t.tvec = 0)
      if t.noticed && kills then some (s.atLine0 t w0 w1 last fun t => (t.answeredTo token).killNow)
      else
        let s1 := s.modStrand t.key fun t => t.answeredTo token
        if act == Action.deliver && code ≠ 0 && t.noticed && !t.intrap then some (s1.deliverBlocked t code) else some s1
    | some kind =>
      let go (s : State) (t : Strand) : State := s.atLine0 t w0 w1 last fun t => (t.answeredTo token).takeReply act code
      let ready : Bool := ((go s t).theStrand? t.key).all fun u => u.kindOf token = none
      if kind = 1 && (act == Action.retry || (act == Action.deliver && code = 0)) && ready then
        match s.retryLines t with
        | .ok s1 => match s1.theStrand? t.key with
          | some u => some ((go s1 u).afterReply t.key)
          | none => some s1
        | .wait s1 | .fail _ s1 => some (s1.replyAgain tile w0 w1)
      else some ((go s t).afterReply t.key)

/-- Whether a reply's overflow entry cannot be read now. -/
def State.replyBarred (s : State) (tile i : Nat) : Bool := s.barred tile ((s.tile tile).ovfBase + 128 * i)

/-- A reply comes back from its overflow entry; an entry that cannot be read is held by a SPILL record (R414). -/
def State.readReply (s : State) (tile : Nat) (i : Nat) : State × Option (Word × Word) :=
  let pa := (s.tile tile).ovfBase + 128 * i
  match s.areaFault pa with
  | some code => (s.replyFault tile pa code fun token => .replySpill i token, none)
  | none => (s, some (BitVec.ofNat 64 (s.homeRead pa 8), BitVec.ofNat 64 (s.homeRead (pa + 8) 8)))

/-- The replies of a space that its tiles hold are tried again (R405, R407); one whose entry cannot be read now stays. -/
def State.heldReplies (s : State) (asid : BitVec 12) (last : Bool) : State :=
  (s.tiles.map (·.1)).foldl (fun s n =>
    let isMine (i : Item) : Bool := match i with | .reply w0 .. => (replyKey w0).asid = asid | _ => false
    ((s.tile n).items.filter isMine).foldl (fun s0 it =>
      let s := s0.modTile n fun t => { t with items := t.items.erase it }
      match it with
      | .reply w0 w1 none => (s.strandReply n w0 w1 last).getD s
      | .reply _ _ (some i) =>
        if s.replyBarred n i then s0 else
        match s.readReply n i with
        | (s1, some (w0, w1)) => (s1.strandReply n w0 w1 last).getD s1
        | (s1, none) => s1
      | _ => s) s) s

/-- A reply of the space whose overflow entry cannot be read now. -/
def State.repliesHeld (s : State) (asid : BitVec 12) : Bool :=
  s.tiles.any fun e => e.2.items.any fun i => match i with
    | .reply w0 _ (some i) => (replyKey w0).asid = asid && s.replyBarred e.1 i
    | _ => false

end Sys2Proof.Machine
end

