-- ==== Sys2Proof/Machine/Spaces.lean ====
section
/-!
DEFINITION. Address spaces that leave and return: the six steps of a pre-emption (R63, R373, R405), what it retains, resumption
(R64, R333, R406), and the suspension of welt kernels (R315, R316).
-/

namespace Sys2Proof.Machine

/-! ### Steps 1 and 2 (R63, R405) -/

/-- Records of a space in a tile's hardware go to its overflow area, as far as there is room. -/
def State.spillAll (s : State) (tile : Nat) (asid : BitVec 12) : State :=
  ((s.tile tile).deque.filter fun r => r.asid = asid && r.spill.isNone).foldl (fun s r =>
    let t := s.tile tile
    match t.freeSpill with
    | none => s
    | some i =>
      let pa := t.ovfBase + 128 * i
      match s.areaFault pa with
      | some code => s.spillFault tile r pa code
      | none =>
        if s.barred tile pa then s else
        let (s1, q) := s.spillTo tile r i
        s1.modTile tile fun t => { t with deque := swapRec r q t.deque }) s

/-- Every record of the space is stored: none in the hardware, none held by a SPILL record (R414). -/
def State.spilled (s : State) (asid : BitVec 12) : Bool :=
  s.tiles.all fun e => (e.2.deque.all fun r => r.asid ≠ asid || r.spill.isSome) && e.2.items.all fun i => match i with
    | .spill r _ _ => r.asid ≠ asid
    | _ => true

def State.spaceStrands (s : State) (asid : BitVec 12) : List Strand := s.strands.filter fun t => t.key.asid = asid

/-- Ready records of the space spill, and its ready strands are parked. -/
def State.parkReady (s : State) (asid : BitVec 12) : State :=
  let s1 := (s.tiles.map (·.1)).foldl (fun s n => s.spillAll n asid) s
  { s1 with strands := s1.strands.map fun t =>
    if t.key.asid = asid && t.state = 0 then { t with state := 3, reason := if t.reason = 0 then 3 else t.reason, dirty := t.dirty ||| lineBit 0 } else t }

/-- What a step of a pre-emption came to: the machine as far as it got, and whether the step has finished. -/
abbrev StepTry := State × Bool

/-- Step 1: ready records spill, and ready strands are parked. -/
def State.preempt1 (s : State) (asid : BitVec 12) : StepTry :=
  let s1 := s.parkReady asid
  (s1, s1.spilled asid)

/-- A strand that step 2 can park now (R63, R372): at a pair boundary, outside a packet, and not past its `exit`. -/
def Strand.parkable (t : Strand) : Bool :=
  !t.killed && t.leaving ≠ some true && t.parts.isEmpty && t.pieces.isEmpty && !t.inSecond && !pkOpen t.pkst && (t.state = 2 || (t.state = 1 && t.wait ≠ some .answer && t.late.isEmpty && t.errs.isEmpty))

/-- Step 2: active and waiting strands are parked; every parked strand has its resume record in the overflow area, and its packet is closed
(R242, R394). -/
def State.preempt2 (s : State) (asid : BitVec 12) : StepTry :=
  let s1 := ((s.spaceStrands asid).filter Strand.parkable).foldl (fun s t => s.parkAway t.key) s
  let s2 := (s1.spaceStrands asid).foldl (fun s t => if t.state = 3 && !s.hasRecord t then s.enqueue t.tile.toNat t.resumeRec else s) s1
  let s3 := s2.parkReady asid
  (s3, ((s3.spaceStrands asid).all fun t => t.state = 3 && !pkOpen t.pkst) && s3.spilled asid)

/-! ### Step 3: accumulators (R273, R373) -/

/-- The lines of an access that lie in the L1. -/
def State.areaLines (s : State) (tile : Nat) (asid : BitVec 12) (l : List Piece) : List CLine :=
  (s.tile tile).l1.filter fun e => e.asid = asid && e.dirty != 0 && l.any fun p => match p.place with
    | .mem x => x.pa / 128 = e.addr
    | _ => false

/-- A save area is written as the tile's own store, and its lines go home (R273). -/
def areaWrite (w : Who) (a : Word) (v : Nat) : M Unit := do
  let l ← check w a saveSize
  noOrdered l
  memStore w l v
  l1LinesOut w.tile ((← get).areaLines w.tile w.asid l)

/-- One accumulator goes to its save area: drained and free, not drained with its condition, or not yet. -/
def State.drainAcc (s : State) (tile i : Nat) : Try :=
  match ((s.tile tile).acc i).bind with
  | none => .ok s
  | some (key, q) =>
    let acc := (s.tile tile).acc i
    let free (s : State) : State := s.modTile tile fun t => t.setAcc i { t.acc i with bind := none, retained := false, restoring := false }
    match s.theStrand? key with
    | none => .ok (free s)
    | some t =>
      if acc.restoring then .ok (free s)
      else if acc.bad then .fail { code := DATAERR, taddr := t.area q.val, tinfo := faultInfo 6 15, acc := faultInfo 6 15 } s
      else match s.onBehalf t (areaWrite (agentWho key.asid tile t.supv true 6) (t.area q.val) acc.saveBytes) with
        | .error (.wait _) s1 => .wait s1
        | .error (.cond c) s1 => .fail c s1
        | .ok _ s1 => .ok (free (s1.modStrand key fun t => t.setSave q.val (t.area q.val) acc.anchor))

/-- An accumulator that cannot be drained is retained, with a DRAIN record (R373). -/
def State.retainAcc (s : State) (tile i : Nat) (c : Cond) : State :=
  match ((s.tile tile).acc i).bind with
  | none => s
  | some (key, _) =>
    let (s1, token) := s.sendItem tile 10 { c.info with asid := key.asid, handle := key.handle, addr := c.taddr, acc := setBits c.acc 7 0 6 }
    s1.modTile tile fun t => { t.setAcc i { t.acc i with retained := true } with items := t.items ++ [.drain i token] }

def State.modPreempt (s : State) (asid : BitVec 12) (f : Preempt → Preempt) : State :=
  { s with preempts := s.preempts.map fun p => if p.asid = asid then f p else p }

/-- A part of a step after others. -/
def StepTry.and (o : StepTry) (f : State → StepTry) : StepTry :=
  let r := f o.1
  (r.1, o.2 && r.2)

/-- Step 3 at one tile: not finished while an operation of the space is in flight, or a drain must wait. -/
def State.drainTile (s : State) (asid : BitVec 12) (tile : Nat) : StepTry :=
  if (s.tile tile).mat.any fun o => o.key.asid = asid then (s, false) else
  (List.range 16).foldl (fun o i => StepTry.and o fun s =>
    let a := (s.tile tile).acc i
    if a.retained || !(a.bind.any fun b => b.1.asid = asid) then (s, true) else
    match s.drainAcc tile i with
    | .ok s1 => (s1, true)
    | .wait s1 => (s1, false)
    | .fail c s1 => (s1.retainAcc tile i c, true)) (s, true)

def State.preempt3 (s : State) (asid : BitVec 12) : StepTry :=
  (s.tiles.map (·.1)).foldl (fun o n => StepTry.and o fun s => s.drainTile asid n) (s, true)

/-! ### Step 4: register lines (R35, R63, R195, R373) -/

/-- One register line of a strand goes home (R373), and leaves the register cache. -/
def State.saveLine (s : State) (t : Strand) (n : Nat) : StepTry :=
  if t.retained.getLsbD n then (s, true) else
  match s.frameHome t n with
  | .ok s1 => (s1.modStrand t.key fun u => { u with dirty := u.dirty &&& ~~~ (lineBit n), made := u.made ||| lineBit n }, true)
  | .error (.wait s1) => (s1, false)
  | .error (.cond c s1) => (s1.retainLine t.key t.tile.toNat n c, true)

/-- The lines of one strand, and the tile's copies of its frame. -/
def State.saveStrand (s : State) (t : Strand) : StepTry :=
  let tile := t.tile.toNat
  let r := t.toSave.foldl (fun o n => StepTry.and o fun s => s.saveLine t n) (s.frameCopies t)
  if !r.2 then r else
  ((r.1.modStrand t.key fun u => { u with present := u.retained, dirty := u.retained, fresh := false }).modTile tile fun u =>
    { u with rdir := u.rdir.filter fun e => e.1 ≠ t.key || ((r.1.theStrand? t.key).any fun v => v.retained.getLsbD e.2) }, true)

/-- Done words that waited for step 4 are written at the lines' homes (R195); one that cannot be written yet waits on. -/
def State.heldHandles (s : State) (asid : BitVec 12) : State :=
  (s.tiles.map (·.1)).foldl (fun s n =>
    let mine := (s.tile n).items.filter fun i => match i with | .handle k _ _ => k.asid = asid | _ => false
    mine.foldl (fun s i => match i with
      | .handle key k w =>
        let gone (s : State) : State := s.modTile n fun t => { t with items := t.items.erase i }
        (match s.putHandle n key k w with
          | .ok s1 => gone s1
          | .wait s1 | .fail _ s1 => s1)
      | _ => s) s) s

/-- A done word of the space still waits. -/
def State.holdsHandles (s : State) (asid : BitVec 12) : Bool :=
  s.tiles.any fun e => e.2.items.any fun i => match i with | .handle k _ _ => k.asid = asid | _ => false

/-- Lines of the space that went to another package and are not acknowledged (R111). -/
def State.linesOnWay (s : State) (asid : BitVec 12) : Bool :=
  s.packets.any fun p => p.key = tileKey asid && bits p.hdr 127 124 = 1 && p.reply.isNone

def State.preempt4 (s : State) (asid : BitVec 12) : StepTry :=
  let r := ((s.spaceStrands asid).map (·.key)).foldl (fun o key => StepTry.and o fun s => match s.theStrand? key with
    | some t => s.saveStrand t
    | none => (s, true)) (s, true)
  (r.1, r.2 && !r.1.linesOnWay asid)

/-! ### Step 5: welt kernels (R315, R316) -/

/-- Slots of a save region. -/
def Stack.slots (y : Stack) : Nat := bits y.wsave 63 48
def Stack.freeSlot (y : Stack) : Option Nat :=
  (List.range (min y.slots (y.suspended.length + y.restores.length + 1))).find? fun k =>
    !((y.suspended ++ y.restores).any fun v => v.slot = k)

/-- Every posted access of a core is performed (R316 step 1, R397). -/
def State.performAll (s : State) (n : Nat) : State :=
  let c := s.coreOf n
  (c.posted.foldl (fun s p => s.performPosted (n / 16) p) s).setCore n { c with posted := [] }

/-- Whether another core clamps a bank that the core's posted accesses need (R142). -/
def State.postedClear (s : State) (n : Nat) : Bool :=
  !((s.coreOf n).posted.any fun p => ({ s with coreAt := n } : State).clampedByOther (n / 16) p.loc)

/-- What suspension leaves of a core's registers (R316). -/
def Core.suspended (c : Core) : Core :=
  { c with
    f := if c.clamps.isEmpty then setBits c.f 3 2 0 else setBits (setBits c.f 3 2 0) 0 0 1
    clamps := [], waiting := false }

/-- A condition ends the kernel of core n. -/
def State.endAt (s : State) (n : Nat) (status : Byte) (info : BitVec 32) : State :=
  let s1 := ({ s with core := s.coreOf n, coreAt := n } : State).endKernel status info
  { s1.setCore n s1.core with core := s.core, coreAt := s.coreAt }

/-- A core's kernel is suspended into a slot, or ends with SAVEFULL; one that `hcancel` or an INVL ends at this boundary ends so. -/
def State.suspend (s : State) (n : Nat) : State :=
  let c := s.coreOf n
  if c.ends.isSome then s
  else if c.kern.any (·.cancel) then s.endAt n 1 c.writes
  else if c.kern.any (·.unmapped) then s.endAt n 7 (kernInfo 7 c.pc)
  else
  let s1 := s.performAll n
  let y := s1.stack (n / 16)
  let s2 := s1.setStack (n / 16) { y with clampq := y.clampq.filter fun e => e.1 ≠ n }
  match y.freeSlot with
  | some k => (s2.setStack (n / 16) { s2.stack (n / 16) with suspended := y.suspended ++ [{ slot := k, core := (s2.coreOf n).suspended }] }).setCore n Core.reset
  | none => s2.endAt n 7 (kernInfo 8 c.pc)

/-- Each kernel of the space is suspended at its own boundary, once its posted accesses can be performed; one that ends meanwhile is not
(R316). -/
def State.preempt5 (s0 : State) (asid : BitVec 12) : StepTry :=
  let s := s0.heldHandles asid
  let mine (s : State) : List Nat := (s.cores.filter fun e => e.2.kern.any fun k => k.asid = asid).map (·.1)
  let s1 := ((mine s).filter fun n => s.postedClear n && (s.coreOf n).ends.isNone).foldl State.suspend s
  (s1, (mine s1).isEmpty && !s1.holdsHandles asid)

/-! ### Resumption (R64, R316, R333, R406) -/

/-- A parked strand of a resumed space: its line 0 is read and changed where it lies, and it is ready when no reply is outstanding; else its resume
record is discarded (R406). -/
def State.resumeLine0 (s : State) (t0 : Strand) : StepTry :=
  let tile := t0.tile.toNat
  let dropped (s : State) : State := s.modTile tile fun u => { u with deque := u.deque.filter fun r => !(r.resume && r.key = t0.key) }
  let ready (t : Strand) : Strand := if t.pend = 0 then { t with state := 0, reason := 0, blocked := 0, noticed := false } else { t with blocked := 0, noticed := false }
  let here (s : State) : State := (dropped s).modStrand t0.key fun t => { ready t with dirty := t.dirty ||| lineBit 0 }
  let queued (s1 : State) : State := match s1.theStrand? t0.key with
    | some t => if t.state = 0 && !s1.hasRecord t then s1.enqueue tile t.resumeRec else s1
    | none => s1
  if t0.present.getLsbD 0 || t0.dirty.getLsbD 0 then (queued (here s), true)
  else match s.atHome t0 0 ready with
    | .ok s1 => (queued (dropped s1), true)
    | .error (.wait s1) => (s1, false)
    -- a line 0 that faults is met again at the strand's dispatch, which holds the record (R403)
    | .error (.cond _ s1) => (queued (here s1), true)

/-- The strand's resume record comes back first; one whose entry fails is held by a SPILL record (R406, R414). -/
def State.resumeStrand (s : State) (t0 : Strand) : StepTry :=
  let tile := t0.tile.toNat
  if t0.state ≠ 3 then (s, true) else
  match (s.tile tile).deque.find? fun r => r.resume && r.key = t0.key with
  | none => (s, true)
  | some r =>
    match r.spill with
    | none => s.resumeLine0 t0
    | some i =>
      let pa := (s.tile tile).ovfBase + 128 * i
      match s.areaFault pa with
      | some code => (s.spillFault tile r pa code, true)
      | none => if s.barred tile pa then (s, false) else s.resumeLine0 t0

/-- The space is resident: its strands, and its suspended kernels at the head of their stacks' queues. While an entry or a line 0 cannot be read, it
is not yet. -/
def State.resumeSpace (s : State) (asid : BitVec 12) : StepTry :=
  if s.repliesHeld asid then (s, false) else
  let s1 := ({ s with absent := s.absent.filter fun a => a ≠ asid } : State).heldReplies asid true
  let r := ((s1.spaceStrands asid).map (·.key)).foldl (fun o key => StepTry.and o fun s => match s.theStrand? key with
    | some t => s.resumeStrand t
    | none => (s, true)) (s1, true)
  if !r.2 then ({ r.1 with absent := s.absent }, false) else
  ({ r.1 with stks := r.1.stks.map fun e =>
      let mine (v : Saved) : Bool := v.core.kern.any fun k => k.asid = asid
      (e.1, { e.2 with restores := e.2.restores.filter mine ++ e.2.suspended.filter mine ++ e.2.restores.filter fun v => !mine v, suspended := e.2.suspended.filter fun v => !mine v }) }, true)

/-- The RESUME commands of a space that is out take effect, as soon as they can, and have their status (R64, R333). -/
def State.tryResume (s : State) (asid : BitVec 12) : State :=
  let mine := s.resumes.filter fun r => r.1 = asid
  if mine.isEmpty || !s.absent.contains asid then s else
  let r := s.resumeSpace asid
  if r.2 then mine.foldl (fun s c => s.answerCmd c.2 1) { r.1 with resumes := r.1.resumes.filter fun c => c.1 ≠ asid } else r.1

/-! ### The steps in order (R63) -/

/-- Accumulators and register lines of a space that its tiles retain (R373). -/
def State.retainedAccs (s : State) (asid : BitVec 12) : Nat :=
  (s.tiles.map fun e => (e.2.accs.toList.filter fun a => a.retained && a.bind.any fun b => b.1.asid = asid).length).sum
def State.retainedLines (s : State) (asid : BitVec 12) : Nat :=
  ((s.spaceStrands asid).map fun t => ((List.range 32).filter fun n => t.retained.getLsbD n).length).sum

/-- Step 6: the space is out; the commands that waited have their status (R373), and a RESUME that waited follows. -/
def State.preempt6 (s : State) (p : Preempt) : State :=
  let a := s.retainedAccs p.asid
  let l := s.retainedLines p.asid
  let s1 := if a = 0 && l = 0 then s else s.logEntry 5 0x7FE [p.asid.setWidth 64, word a, word l]
  let s2 : State := { s1 with absent := s1.absent ++ [p.asid], preempts := s1.preempts.filter fun q => q.asid ≠ p.asid }
  (p.who.foldl (fun s c => s.answerCmd c (if a = 0 && l = 0 then 1 else 3)) s2).tryResume p.asid

/-- As many steps as can be taken now; `p.step` is the next one. -/
def State.advance (s : State) (asid : BitVec 12) : Nat → State
  | 0 => s
  | fuel + 1 =>
    match s.preempts.find? fun p => p.asid = asid with
    | none => s
    | some p =>
      let next (o : StepTry) : State := if o.2 then (o.1.modPreempt asid fun p => { p with step := p.step + 1 }).advance asid fuel else o.1
      match p.step with
      | 1 => next (s.preempt1 asid)
      | 2 => next (s.preempt2 asid)
      | 3 => next (s.preempt3 asid)
      | 4 =>
        let o := s.preempt4 asid
        if o.2 then ((o.1.modPreempt asid fun p => { p with step := 5 }).heldReplies asid false).advance asid fuel else o.1
      | 5 => next (s.preempt5 asid)
      | _ => s.preempt6 p

end Sys2Proof.Machine
end

