-- ==== Sys2Proof/Machine/Answers.lean ====
section
/-!
DEFINITION. The cobbler tile's rings (R366, R367), and what a reply does to the item that its record names (R365, R403, R404).
-/

namespace Sys2Proof.Machine

/-! ### Records at the cobbler tile (R366) -/

/-- R366: a record enters the queue, which holds 64. -/
def execFaultRecord (i : Nat) (s : State) : Host.Outcome State Fault Refusal :=
  done (s.arrive i (fun b => match b with | .record _ => true | _ => false) fun m =>
    match m.body with
    | .record w =>
      if (s.tile m.dst).cobq.length < 64 then some (.accepted, s.modTile m.dst fun t => { t with cobq := t.cobq ++ [w] }) else none
    | _ => none)

def recordSlot (n : Nat) : Nat := 0x1E0000 + 64 * (n % 2048)
def replySlot (k : Nat) : Nat := Config.cobblerBase + 16 * (k % 2048)

/-- Words 1–7 and then word 0 of a record, each set full (R364, R366). -/
def Tile.placeRecord (t : Tile) (w : List Word) : Tile :=
  let off := recordSlot t.placed.toNat
  let v := packN 64 ((w ++ [t.placed]).map (·.toNat))
  { (t.engineWrite (off + 8) 56 (v / 2 ^ 64) true).engineWrite off 8 v true with cobq := t.cobq.drop 1, placed := t.placed + 1 }

/-- R366. -/
def execRecordRingPlace (tile : BitVec 10) (s : State) : Host.Outcome State Fault Refusal :=
  let t := s.tile tile.toNat
  done (match t.cobq with
    | [] => s
    | w :: _ =>
      if (List.range 8).any fun j => t.isFull (recordSlot t.placed.toNat + 8 * j) then s
      else (s.setTile tile.toNat (t.placeRecord w)).serve tile.toNat (recordSlot t.placed.toNat) 64)

/-- R367: slot k is taken once both its words are full. Where a word is uncorrectable nothing that it says is used: the slot is emptied, and the
error log records it (R379; store 2 of R375). -/
def execReplySlotTake (tile : BitVec 10) (s : State) : Host.Outcome State Fault Refusal :=
  let t := s.tile tile.toNat
  let off := replySlot t.reply
  done (if isCobbler tile.toNat && t.isFull off && t.isFull (off + 8) then
    let s1 := (s.setTile tile.toNat { (t.setEmpty off).setEmpty (off + 8) with reply := t.reply + 1 }).serve tile.toNat off 16
    if t.scrBad off 16 then s1.logUncorr tile.toNat (Config.scratchBase + off) 2 (lineMask (off % 128) 16)
    else s1.sendReply tile.toNat (word (t.scrRead off 8)) (word (t.scrRead (off + 8) 8))
  else s)

/-! ### Items (R365, R404) -/

def Item.token? : Item → Option (BitVec 16)
  | .cell _ _ _ n | .ring _ n | .drain _ n | .line _ _ n | .spill _ _ n | .defer _ _ n | .hold _ n | .pump _ n | .replySpill _ n | .replyStore _ _ n => some n
  | .handle .. | .reply .. => none

/-- The DONE decrement of a record that is dropped (R404); none while its page is being moved. -/
def State.dropDone (s : State) (tile : Nat) (r : Rec) : Option State := s.sendDecrement tile r.asid (itemSupv r.asid tile) r.doneVA

/-- RETRY of a held record: evaluated again, but for one of a tile out of service (R404). -/
def State.retryHold (s : State) (tile : Nat) (r : Rec) : Option State :=
  if r.hold = 6 then (s.modTile tile fun t => { t with deque := t.deque.filter fun q => !q.like r }).placeReleased tile { r with hold := 0, stamp := 0 }
  else some (s.modTile tile fun t => { t with deque := t.deque.map fun q => if q.like r then { q with hold := 0 } else q })

/-- KILL of a held record. -/
def State.killHold (s : State) (tile : Nat) (r : Rec) : Option State :=
  let s1 := s.modTile tile fun t => { t with deque := t.deque.filter fun q => !q.like r }
  if r.hold = 5 then some (s1.evacuate tile) else s1.dropDone tile r

/-- The save slot of an accumulator drained while its frame is out is written at the frame's home (R273). -/
def State.slotHome (s s1 : State) (tile i : Nat) : Try :=
  match ((s.tile tile).acc i).bind with
  | none => .ok s1
  | some (key, q) =>
    match s.theStrand? key with
    | none => .ok s1
    | some t =>
      if !s.isOut key.asid || t.present.getLsbD 24 then .ok s1 else
      match s1.atHome t 24 fun u => { u.setSave q.val (t.area q.val) ((s.tile tile).acc i).anchor with dirty := u.dirty } with
      | .ok s2 => .ok s2
      | .error (.wait s2) => .wait { s with msgs := s2.msgs, packets := s2.packets }
      | .error (.cond c _) => .fail c s

/-- RETRY of a retained accumulator. -/
def State.retryDrain (s : State) (tile i : Nat) : Try :=
  match s.drainAcc tile i with
  | .ok s1 => s.slotHome s1 tile i
  | o => o

/-- Marks the message that an item holds as performed, with an answer. -/
def State.answerHeld (s : State) (m : Msg) (a : Ans) : State :=
  { s with msgs := s.msgs.map fun n =>
      if n.src = m.src && n.dst = m.dst && n.cls = m.cls && n.seq = m.seq && n.st = .sent then { n with st := .answered a } else n }

def Try.orWait (o : Option State) (s : State) : Try := match o with
  | some s1 => .ok s1
  | none => .wait s

/-- RETRY of a record whose access to the overflow area failed: a refill reads the entry again, a spill takes an entry again; the record keeps its
stamp, and a resume record of a resumed space has its strand's line 0 read (R406, R414). -/
def State.retrySpill (s : State) (tile : Nat) (r : Rec) (cmd : Option CmdRef) : Try :=
  match r.spill with
  | some _ =>
    let s1 := s.modTile tile fun t => { t with deque := t.deque ++ [r] }
    if !s.resident r.asid || (s.tile tile).out then .ok s1
    else match (if r.resume then s.theStrand? r.key else none) with
      | some t => if t.state = 3 then (match s1.resumeStrand t with
        | (s2, true) => .ok s2
        | (s2, false) => .wait { s with msgs := s2.msgs, packets := s2.packets }) else .ok (s1.refill tile r).1
      | none => .ok (s1.refill tile r).1
  | none =>
    if !s.canTake tile r then .wait s
    else .ok (s.storedFor (if (s.tile tile).out then (s.modTile tile fun t => { t with deque := t.deque ++ [r] }).evacuate tile else s.store tile r) tile r cmd)

/-- RETRY of an item already taken off its list. -/
def State.retryItem (s : State) (tile : Nat) (it : Item) : Try :=
  match it with
  | .hold r _ => .orWait (s.retryHold tile r) s
  | .cell key cell w _ =>
    match s.cellWrite tile key cell w with
    | .fail c s1 => .ok (s1.cellItem tile key cell w c)
    | o => o
  | .pump idx _ => .ok (s.pump tile idx 1)
  | .drain i _ =>
    match s.retryDrain tile i with
    | .fail c s1 => .ok (s1.retainAcc tile i c)
    | o => o
  | .line key n _ =>
    match s.theStrand? key with
    | none => .ok s
    | some t =>
      match s.frameHome t n with
      | .ok s1 => .ok (s1.lineGone t n)
      | .error (.wait s1) => .wait s1
      | .error (.cond c s1) => .ok (s1.retainLine key tile n c)
  | .spill r cmd _ => s.retrySpill tile r cmd
  | .replySpill i _ =>
    if s.replyBarred tile i then .wait s else
    match s.readReply tile i with
    | (s1, some (w0, w1)) => .ok ((s1.strandReply tile w0 w1 false).getD s1)
    | (s1, none) => .ok s1
  | .replyStore w0 w1 _ => .ok ((s.strandReply tile w0 w1 false).getD s)
  | .ring .. | .defer .. | .handle .. | .reply .. => .ok s

/-- A deferral entry is given up, and the DONE cell of its record decremented; an entry that cannot be read names none, and is logged (R365, R379). -/
def State.killEntry (s : State) (tile entry : Nat) : Option State :=
  let pa := (s.tile tile).dfrBase + 128 * entry
  let s1 := s.freeDeferral tile entry
  if (s.areaFault pa).isSome then some (s1.logDrop tile (word pa))
  else if s.barred tile pa then none
  else s1.dropDone tile (recOfEntry (s.homeRead pa 128))

/-- KILL of an item already taken off its list. A LAUNCH whose record is dropped so ends with status 3, as one that meets a fault does: the manual
names no status (DESIGN CHOICE, log 87). -/
def State.killItem (s : State) (tile : Nat) (it : Item) : Try :=
  match it with
  | .hold r _ => .orWait (s.killHold tile r) s
  | .ring m _ =>
    match m.body with
    | .release entry => .orWait ((s.killEntry tile entry).map fun s1 => s1.answerHeld m .accepted) s
    | .waiter (.command _ c) _ entry =>
      .orWait ((s.killEntry tile entry).map fun s1 =>
        ({ s1 with msgs := s1.msgs.filter fun n => !(n.src = m.src && n.dst = m.dst && n.cls = m.cls && n.seq = m.seq && n.body = m.body) } : State).answerCmd c 3) s
    | _ => .ok (s.answerHeld m .refused)
  | .pump idx _ => .ok (s.modTile tile fun t =>
      let e := t.eyelet idx
      { t with eyelets := put idx { e with rhead := (e.rhead + 1) % e.ringN, rcount := e.rcount - 1 } t.eyelets })
  | .drain i _ => .ok (s.modTile tile fun t => t.setAcc i { t.acc i with bind := none, retained := false, restoring := false })
  | .line key n _ => .ok (match s.theStrand? key with
    | some t => s.lineGone t n
    | none => s)
  | .spill r cmd _ => .orWait ((s.dropDone tile r).map fun s1 => match cmd with
    | some c => s1.answerCmd c 3
    | none => s1) s
  | .defer key r _ => .orWait ((s.modStrand key fun t => { t with ans := some .accepted }).dropDone tile r) s
  | .cell .. | .handle .. | .reply .. | .replySpill .. | .replyStore .. => .ok s

/-- A reply to a record about an item. One that matches nothing outstanding is discarded, as is a DELIVER; a RETRY of a record whose
tile is out of service leaves it as it is. While the item must wait the reply comes again. -/
def State.itemReply (s : State) (tile : Nat) (w0 w1 : Word) : State :=
  let token := replyToken w1
  let owed := (token, w0 &&& 0x01FFFFFFFFFFFFFF)
  if !(s.tile tile).owed.contains owed then s else
  let gone (s : State) : State := s.modTile tile fun t =>
    { t with owed := t.owed.filter fun e => e ≠ owed, items := t.items.filter fun i => i.token? ≠ some token }
  -- an item that waits is on its list again, with what the try has asked for
  let ended (o : Try) : State := match o with
    | .ok s1 => s1
    | .wait s1 | .fail _ s1 =>
      (s1.modTile tile fun t => { t with owed := (s.tile tile).owed, items := (s.tile tile).items }).replyAgain tile w0 w1
  match replyAction w0, (s.tile tile).items.find? fun i => i.token? = some token with
  | .deliver, _ => s
  | _, none => gone s
  | .retry, some it =>
    if (match it with | .hold r _ => r.hold == 5 | _ => false) then s else ended ((gone s).retryItem tile it)
  | .kill, some it => ended ((gone s).killItem tile it)

/-! ### Replies at their tiles (R365, R367) -/

def isReply (a : Action) (b : Body) : Bool := match b with
  | .reply w0 _ => replyAction w0 == a
  | _ => false

/-- A reply reaches the tile that sent the record. -/
def State.takeReply (s : State) (a : Action) (i : Nat) : State :=
  s.arrive i (isReply a) fun m =>
    match m.body with
    | .reply w0 w1 =>
      match s.strandReply m.dst w0 w1 false with
      | some s1 => some (.accepted, s1)
      | none => some (.accepted, s.itemReply m.dst w0 w1)
    | _ => none

/-- R365, R369, R404. -/
def execReplyRetry (i : Nat) (s : State) : Host.Outcome State Fault Refusal :=
  done (s.takeReply .retry i)

/-- R365, R369, R374. -/
def execReplyDeliver (i : Nat) (s : State) : Host.Outcome State Fault Refusal :=
  done (s.takeReply .deliver i)

/-- R365, R369, R374, R404. -/
def execReplyKill (i : Nat) (s : State) : Host.Outcome State Fault Refusal :=
  done (s.takeReply .kill i)

end Sys2Proof.Machine
end

