-- ==== Sys2Proof/Machine/Float.lean ====
section
/-!
DEFINITION. Scalar floating point (R177–R181).
-/

namespace Sys2Proof.Machine

/-- One result rounded to a format into gd; SR steps the LFSR once (R177). -/
def State.roundG (s : State) (f : Fmt) (d : GReg) (rm : Rnd) (x : Val) : State :=
  (s.setG d (word (f.round false rm (lfsrAfter rm s.src.lfsr) x))).setLfsr rm (lfsrAfter rm s.src.lfsr)

/-- The same with a lookahead window. -/
def State.roundGLa (s : State) (f : Fmt) (d : GReg) (rm : Rnd) (la : La) (x : Val) : State :=
  (s.setGLa d la (word (f.round false rm (lfsrAfter rm s.src.lfsr) x))).setLfsr rm (lfsrAfter rm s.src.lfsr)

/-- A g register's f32 code (R177). -/
def lo32 (x : Word) : Nat := x.toNat % 2 ^ 32

/-- R178. -/
def execFaddF64 (d a b : GReg) (rm : Rnd) (s : State) : Host.Outcome State Fault Refusal :=
  done (s.roundG fmtF64 d rm ((f64Of (s.g a)).add rm (f64Of (s.g b))))

/-- R178. -/
def execFsubF64 (d a b : GReg) (rm : Rnd) (s : State) : Host.Outcome State Fault Refusal :=
  done (s.roundG fmtF64 d rm ((f64Of (s.g a)).sub rm (f64Of (s.g b))))

/-- R178. -/
def execFmulF64 (d a b : GReg) (rm : Rnd) (s : State) : Host.Outcome State Fault Refusal :=
  done (s.roundG fmtF64 d rm ((f64Of (s.g a)).mul (f64Of (s.g b))))

/-- R178. -/
def execFdivF64 (d a b : GReg) (rm : Rnd) (la : La) (s : State) : Host.Outcome State Fault Refusal :=
  done (s.roundGLa fmtF64 d rm la ((f64Of (s.g a)).div (f64Of (s.g b))))

/-- R178. -/
def execFsqrtF64 (d a : GReg) (rm : Rnd) (la : La) (s : State) : Host.Outcome State Fault Refusal :=
  done (s.roundGLa fmtF64 d rm la (f64Of (s.g a)).sqrt)

/-- R178, R72. -/
def execFminF64 (d a b : GReg) (s : State) : Host.Outcome State Fault Refusal :=
  done (s.setG d (word (fmtF64.minCode ((s.g a).toNat) ((s.g b).toNat))))

/-- R178, R72. -/
def execFmaxF64 (d a b : GReg) (s : State) : Host.Outcome State Fault Refusal :=
  done (s.setG d (word (fmtF64.maxCode' ((s.g a).toNat) ((s.g b).toNat))))

/-- R179. -/
def execFmaddF64 (d a b c : GReg) (rm : Rnd) (s : State) : Host.Outcome State Fault Refusal :=
  done (s.roundG fmtF64 d rm (((f64Of (s.g a)).mul (f64Of (s.g b))).add rm (f64Of (s.g c))))

/-- R179. -/
def execFmsubF64 (d a b c : GReg) (rm : Rnd) (s : State) : Host.Outcome State Fault Refusal :=
  done (s.roundG fmtF64 d rm (((f64Of (s.g a)).mul (f64Of (s.g b))).sub rm (f64Of (s.g c))))

/-- R180. -/
def execFeqF64 (d a b : GReg) (s : State) : Host.Outcome State Fault Refusal :=
  done (s.setG d (boolWord ((f64Of (s.g a)).eq (f64Of (s.g b)))))

/-- R180. -/
def execFltF64 (d a b : GReg) (s : State) : Host.Outcome State Fault Refusal :=
  done (s.setG d (boolWord ((f64Of (s.g a)).lt (f64Of (s.g b)))))

/-- R180. -/
def execFleF64 (d a b : GReg) (s : State) : Host.Outcome State Fault Refusal :=
  done (s.setG d (boolWord ((f64Of (s.g a)).le (f64Of (s.g b)))))

/-- R180. -/
def execFclassF64 (d a : GReg) (s : State) : Host.Outcome State Fault Refusal :=
  done (s.setG d (word (2 ^ fmtF64.classBit ((s.g a).toNat))))

/-- R180. -/
def execFnegF64 (d a : GReg) (s : State) : Host.Outcome State Fault Refusal :=
  done (s.setG d (word (fmtF64.negCode ((s.g a).toNat))))

/-- R180. -/
def execFabsF64 (d a : GReg) (s : State) : Host.Outcome State Fault Refusal :=
  done (s.setG d (word (fmtF64.absCode ((s.g a).toNat))))

/-- R178. -/
def execFaddF32 (d a b : GReg) (rm : Rnd) (s : State) : Host.Outcome State Fault Refusal :=
  done (s.roundG fmtF32 d rm ((f32Of (s.g a)).add rm (f32Of (s.g b))))

/-- R178. -/
def execFsubF32 (d a b : GReg) (rm : Rnd) (s : State) : Host.Outcome State Fault Refusal :=
  done (s.roundG fmtF32 d rm ((f32Of (s.g a)).sub rm (f32Of (s.g b))))

/-- R178. -/
def execFmulF32 (d a b : GReg) (rm : Rnd) (s : State) : Host.Outcome State Fault Refusal :=
  done (s.roundG fmtF32 d rm ((f32Of (s.g a)).mul (f32Of (s.g b))))

/-- R178. -/
def execFdivF32 (d a b : GReg) (rm : Rnd) (la : La) (s : State) : Host.Outcome State Fault Refusal :=
  done (s.roundGLa fmtF32 d rm la ((f32Of (s.g a)).div (f32Of (s.g b))))

/-- R178. -/
def execFsqrtF32 (d a : GReg) (rm : Rnd) (la : La) (s : State) : Host.Outcome State Fault Refusal :=
  done (s.roundGLa fmtF32 d rm la (f32Of (s.g a)).sqrt)

/-- R178, R72. -/
def execFminF32 (d a b : GReg) (s : State) : Host.Outcome State Fault Refusal :=
  done (s.setG d (word (fmtF32.minCode (lo32 (s.g a)) (lo32 (s.g b)))))

/-- R178, R72. -/
def execFmaxF32 (d a b : GReg) (s : State) : Host.Outcome State Fault Refusal :=
  done (s.setG d (word (fmtF32.maxCode' (lo32 (s.g a)) (lo32 (s.g b)))))

/-- R179. -/
def execFmaddF32 (d a b c : GReg) (rm : Rnd) (s : State) : Host.Outcome State Fault Refusal :=
  done (s.roundG fmtF32 d rm (((f32Of (s.g a)).mul (f32Of (s.g b))).add rm (f32Of (s.g c))))

/-- R179. -/
def execFmsubF32 (d a b c : GReg) (rm : Rnd) (s : State) : Host.Outcome State Fault Refusal :=
  done (s.roundG fmtF32 d rm (((f32Of (s.g a)).mul (f32Of (s.g b))).sub rm (f32Of (s.g c))))

/-- R180. -/
def execFeqF32 (d a b : GReg) (s : State) : Host.Outcome State Fault Refusal :=
  done (s.setG d (boolWord ((f32Of (s.g a)).eq (f32Of (s.g b)))))

/-- R180. -/
def execFltF32 (d a b : GReg) (s : State) : Host.Outcome State Fault Refusal :=
  done (s.setG d (boolWord ((f32Of (s.g a)).lt (f32Of (s.g b)))))

/-- R180. -/
def execFleF32 (d a b : GReg) (s : State) : Host.Outcome State Fault Refusal :=
  done (s.setG d (boolWord ((f32Of (s.g a)).le (f32Of (s.g b)))))

/-- R180. -/
def execFclassF32 (d a : GReg) (s : State) : Host.Outcome State Fault Refusal :=
  done (s.setG d (word (2 ^ fmtF32.classBit (lo32 (s.g a)))))

/-- R180. -/
def execFnegF32 (d a : GReg) (s : State) : Host.Outcome State Fault Refusal :=
  done (s.setG d (word (fmtF32.negCode (lo32 (s.g a)))))

/-- R180. -/
def execFabsF32 (d a : GReg) (s : State) : Host.Outcome State Fault Refusal :=
  done (s.setG d (word (fmtF32.absCode (lo32 (s.g a)))))

/-- The result of `cvt` in a g register: i32 sign-extended, everything else zero-extended (R181). -/
def cvtWord (dt : Tag) (x : Nat) : Word := if dt = .i32 then sext 32 x else word x

/-- R181. R74 takes the 16 LFSR steps of `sr` for a NaN too, although R181's pseudocode writes 0 for it without naming `Round`: the steps are
taken (DEDUCED, log 19). -/
def execCvt (d a : GReg) (dt st : Tag) (rm : Rnd) (sat : Bool) (s : State) : Host.Outcome State Fault Refusal :=
  let l := lfsrAfter rm s.src.lfsr
  done ((s.setG d (cvtWord dt (toElem dt 0 sat rm l (elemVal st 0 (s.g a).toNat)))).setLfsr rm l)

end Sys2Proof.Machine
end

