-- ==== Sys2Proof/Machine/Host.lean ====
section
/-!
DEFINITION. The host: its commands (R333, R334), page migration (R120, R121, R408, R409), its register writes (R332, R377) and
its CXL accesses (R91, R145, R330).
-/

namespace Sys2Proof.Machine

/-! ### Command queues (R333) -/

/-- A command's 128 bytes, with its queue. -/
structure Cmd where
  queue : Fin 4
  raw : Nat

def Cmd.at (c : Cmd) (lo hi : Nat) : Nat := bytesAt c.raw lo hi
def Cmd.code (c : Cmd) : Nat := c.at 0 1
def Cmd.asid (c : Cmd) : BitVec 12 := BitVec.ofNat 12 (c.at 2 3)
def Cmd.form (c : Cmd) : Nat := c.at 5 5
def Cmd.tile (c : Cmd) : Nat := c.at 6 7 % 1024
def Cmd.ref (c : Cmd) : CmdRef := { queue := c.queue, done := word (c.at 8 15) }
def Cmd.va (c : Cmd) : Word := word (c.at 16 23)
def Cmd.len (c : Cmd) : Word := word (c.at 24 31)

/-- The command at the head of a queue, when the queue has one. -/
def State.command (s : State) (q : Fin 4) : Option Cmd :=
  let k := s.queues[q]
  if s.phase = .running && k.size ≠ 0 && k.head ≠ k.tail then
    some { queue := q, raw := s.homeRead (s.hostPa (k.base.toNat + 128 * (k.head.toNat % k.size.toNat))) 128 }
  else none

/-- The queue's command is in progress. -/
def State.setBusy (s : State) (q : Fin 4) : State := s.modQueue q fun k => { k with busy := true }

/-- CODE 1–5, and for INVL a form. -/
def Cmd.known (c : Cmd) : Bool := 1 ≤ c.code && c.code ≤ 5 && (c.code ≠ 2 || c.form ≤ 2)

/-- Starts the command at the head of an idle queue when it is of the wanted kind; one that no code names is refused. -/
def State.onCommand (s : State) (q : Fin 4) (want : Cmd → Bool) (f : Cmd → State → State) : State :=
  if s.queues[q].busy then s else
  match s.command q with
  | none => s
  | some c => if !c.known then s.answerCmd c.ref 2 else if want c then f c s else s

/-! ### LAUNCH (R334) -/

def Cmd.record (c : Cmd) : Rec :=
  { body := BitVec.ofNat 512 (c.at 64 127), dom := word (c.at 32 39), asid := c.asid, cgrp := BitVec.ofNat 8 (c.at 4 4), stamp := 0, hold := 0, spill := none }

/-- The sole die's own translation of an address that a command names. -/
def State.soleWalk (s : State) (asid : BitVec 12) (a : Word) : Option (Nat × Word × Nat) :=
  if !canon a || isScratch a.toNat then none else
  match walk s asid (va57 a) with
  | .ok (size, leaf, leafpa, _) => some (size, leaf, leafpa)
  | .error _ => none

/-- The walk meets a bank that a welt core clamps, and the command waits (R142). -/
def State.soleBusy (s : State) (asid : BitVec 12) (a : Word) : Bool :=
  canon a && !isScratch a.toNat && match walk s asid (va57 a) with
    | .error .busy => true
    | _ => false

/-- A page that the command's space may not use: S, without SUPV (R96), or W missing for a store. R48 and R334 name no SUPV for a LAUNCH's
translations: it is taken as R96 gives it to accesses that the tile which would place the record makes without a strand, 1 for ASID 0 at a cobbler tile
(DESIGN CHOICE, log 90). -/
def leafBars (supv : Bool) (leaf : Word) (store : Bool) : Bool := (leaf.getLsbD 4 && !supv) || (store && !leaf.getLsbD 2)

def leafPa (size : Nat) (leaf : Word) (a : Word) : Nat := bits leaf 51 16 * 2 ^ 16 + va57 a % 2 ^ sizeShift size

/-- The destination of a record: its entry tile and its tile. A MODE 2 record goes up the column of its affinity home (R50). -/
def State.launchDest (s : State) (c : Cmd) (r : Rec) : Option (Nat × Nat) :=
  if r.mode = 1 then some (r.place % 64, r.place % 1024)
  else if r.mode = 2 then
    match s.soleWalk r.asid r.affinity with
    | none => none
    | some (size, leaf, _) =>
      let pa := leafPa size leaf r.affinity
      if leafBars (itemSupv r.asid (slice pa)) leaf false || s.noWindow pa then none else some (slice pa, s.lightest (slice pa))
  else some (c.tile % 64, c.tile)

/-- The entry tile sends the record on in its own ENQ slot (R49); the command waits for the credit. -/
def State.launchNow (s : State) (c : Cmd) (r : Rec) (entry dst : Nat) : State :=
  if 2 ≤ (s.tile entry).credit dst then s else (s.setBusy c.queue).sendEnq entry dst r false (some c.ref)

/-- A deferred LAUNCH takes an entry of the placing tile's area (R58, R334). -/
def State.launchLater (s : State) (c : Cmd) (r : Rec) (tile : Nat) : State :=
  let t := s.tile tile
  match s.soleWalk r.asid r.depcVA with
  | none => s.answerCmd c.ref 3
  | some (size, leaf, _) =>
    let pa := leafPa size leaf r.depcVA
    let bars := leafBars (itemSupv r.asid tile) leaf true
    if leaf.getLsbD 58 && !bars then s
    else if bars || (match s.win pa with | .inter | .near _ _ | .host => false | _ => true) then s.answerCmd c.ref 3
    else if t.dfrBase = 0 then s.answerCmd c.ref 2
    else match t.freeDefer with
      | none => s
      | some i =>
        let area := t.dfrBase + 128 * i
        if (s.areaFault area).isSome then s.answerCmd c.ref 3
        else if s.barred tile area then s
        else
          (((s.setBusy c.queue).homeWrite area 128 r.entryBytes).modTile tile fun t => { t with deferrals := ins i t.deferrals }).send
            .req tile 1024 (.waiter (.command c.asid c.ref) pa i)

/-- R334. -/
def execLaunch (q : Fin 4) (s : State) : Host.Outcome State Fault Refusal :=
  done (s.onCommand q (fun c => c.code = 1) fun c s =>
    let r := c.record
    if (badRec r.body).isSome || r.dom &&& ~~~ domMask ≠ 0 then s.answerCmd c.ref 2
    else if (r.mode = 2 && s.soleBusy r.asid r.affinity) || (r.depc ≠ 0 && s.soleBusy r.asid r.depcVA) then s
    else match s.launchDest c r with
      | none => s.answerCmd c.ref 3
      | some (entry, dst) =>
        if r.depc = 0 then s.launchNow c r entry dst
        else s.launchLater c r (if r.mode = 1 || r.mode = 2 then entry else dst))

/-! ### INVL (R100, R333) -/

def State.invlCommand (s : State) (q : Fin 4) (form : Nat) : State :=
  s.onCommand q (fun c => c.code = 2 && c.form = form) fun c s =>
    if form = 0 && c.len = 0 then s.answerCmd c.ref 1
    else (s.setBusy q).startInvl (BitVec.ofNat 2 form) c.asid c.va c.len (.command c.ref)

/-- R333. -/
def execInvlCommandRange (q : Fin 4) (s : State) : Host.Outcome State Fault Refusal :=
  done (s.invlCommand q 0)

/-- R333. -/
def execInvlCommandAsid (q : Fin 4) (s : State) : Host.Outcome State Fault Refusal :=
  done (s.invlCommand q 1)

/-- R333. -/
def execInvlCommandAll (q : Fin 4) (s : State) : Host.Outcome State Fault Refusal :=
  done (s.invlCommand q 2)

/-! ### PREEMPT and RESUME (R63, R64, R333) -/

/-- The pre-emption whose command is in progress in a queue. -/
def State.preemptOf (s : State) (q : Fin 4) : Option Preempt := s.preempts.find? fun p => p.who.any fun c => c.queue = q

/-- R63, R333: starts a pre-emption, joins one, or takes the steps of one that can be taken now. -/
def execPreempt (q : Fin 4) (s : State) : Host.Outcome State Fault Refusal :=
  match s.preemptOf q with
  | some p => done (s.advance p.asid 8)
  | none =>
    done (s.onCommand q (fun c => c.code = 3) fun c s =>
      if c.asid = 0 then s.answerCmd c.ref 2
      else if s.absent.contains c.asid then s.answerCmd c.ref 1
      else if s.preempts.any fun p => p.asid = c.asid then
        (s.setBusy q).modPreempt c.asid fun p => { p with who := p.who ++ [c.ref] }
      else
        let s1 := s.setBusy q
        ({ s1 with preempts := s1.preempts ++ [{ asid := c.asid, step := 1, who := [c.ref] }] } : State).advance c.asid 8)

/-- R64, R333: a RESUME waits for a pre-emption of its space, and until its tiles can read what they need. -/
def execResume (q : Fin 4) (s : State) : Host.Outcome State Fault Refusal :=
  match s.resumes.find? fun r => r.2.queue = q with
  | some (asid, _) => done (s.tryResume asid)
  | none =>
    done (s.onCommand q (fun c => c.code = 4) fun c s =>
      if s.absent.contains c.asid || s.preempts.any fun p => p.asid = c.asid then
        ({ s.setBusy q with resumes := s.resumes ++ [(c.asid, c.ref)] } : State).tryResume c.asid
      else s.answerCmd c.ref 1)

/-! ### Migration (R120, R121, R408, R409) -/

/-- Kernels that are on their way to the scheduler. -/
def State.launching (s : State) : List Kernel :=
  s.msgs.filterMap fun m => match m.body with
    | .launch k => if m.pending then some k else none
    | _ => none

/-- A page lies in a declared range of a kernel that is on its way, queued, running or suspended. -/
def State.declared (s : State) (asid : BitVec 12) (va n : Nat) : Bool :=
  (s.launching ++ s.kernels).any fun k => k.asid = asid && k.ranges.any fun r => overlap va n (va57 r.base) r.len

/-- An 8 B status cell at a physical address; its writer waits while a welt core's clamp holds its bank (R142). -/
def State.writeDone (s : State) (pa : Nat) (status : Nat) : State :=
  match s.win pa with
  | .inter | .near _ _ | .host => if s.badIn pa 8 then s.logUncorr 0x7FE pa 5 (lineMask (pa % 128) 8) else s.homeWrite pa 8 status
  | _ => s

/-- R120: the descriptor's checks, then MB := 1 and the first INVL. -/
def execMigrate (q : Fin 4) (s : State) : Host.Outcome State Fault Refusal :=
  done (s.onCommand q (fun c => c.code = 5) fun c s =>
    if s.migrating.isSome then s else
    let va := word (c.at 64 71)
    let asid := BitVec.ofNat 12 (c.at 72 73)
    let newpa := c.at 80 87
    let done' := c.at 88 95
    let stop (status : Nat) : State := if s.heldAtHome done' then s else (s.writeDone done' status).answerCmd c.ref status
    let job (size : Nat) : Migration :=
      { va := va, asid := asid, newpa := word newpa, done := word done', who := c.ref, leafpa := 0, size := size, oldpa := 0, next := 0,
        drain := 0, status := 0 }
    -- a failure before step 1 too completes an INVL for the page (R409)
    let fails (size : Nat) : State :=
      { (s.setBusy q).startInvl 0 asid va (word (2 ^ sizeShift size)) .migrateUndo with migrating := some { job size with drain := 1026, status := 3 } }
    if c.at 72 73 / 2 ^ 12 ≠ 0 || c.at 74 79 ≠ 0 || c.at 96 127 ≠ 0 then stop 2
    else if s.soleBusy asid va then s
    else match s.soleWalk asid va with
      | none => fails 0
      | some (size, leaf, leafpa) =>
        let n := 2 ^ sizeShift size
        let window := match s.win newpa with | .inter | .near _ _ | .host => true | _ => false
        if va57 va % n ≠ 0 || newpa % n ≠ 0 || !window then fails size
        else if s.declared asid (va57 va) n then stop 2
        else
          let s1 := ((s.setBusy q).homeWrite leafpa 8 (setBits leaf 58 58 1).toNat).startInvl 0 asid va (word n) .migrateBusy
          { s1 with migrating := some { job size with leafpa := leafpa, oldpa := bits leaf 51 16 * 2 ^ 16 } })

/-- What a read or a copy of granules came to. -/
inductive Granules
  | got (v : Nat) (s : State)
  | wait (s : State)
  | bad (pa : Nat) (s : State)

/-- A 64 B granule of the old frame, through its home: of this package, or of another (R91, R120). -/
def State.oldGranule (s : State) (asid : BitVec 12) (pa : Nat) : Granules :=
  match s.win pa with
  | .remote _ =>
    let tile := slice pa
    match s.agent tile (agentKey asid 0) 0 true (remote (agentWho asid tile true false 0) 0 0 pa 64 0 0 0 [] false) with
    | .ok x s1 => if x.bad then .bad pa (s1.after s) else .got x.val (s1.after s)
    | .error (.wait _) s1 => .wait (s1.after s)
    | .error (.cond _) s1 => .bad pa (s1.after s)
  | _ =>
    if s.badIn pa 64 then .bad pa s
    else if s.heldAtHome pa then .wait s
    else .got (s.homeRead pa 64) (s.homeFill (pa / 128))

/-- Step 2: granules are copied in ascending order (R120), as far as none must wait (R142); `next` keeps how far. -/
def State.copyGranules (s : State) (g : Migration) : Nat → Nat → Granules
  | 0, i => .got i s
  | left + 1, i =>
    let at_ (s : State) : State := { s with migrating := some { g with next := i } }
    match s.oldGranule g.asid (g.oldpa + 64 * i) with
    | .wait s1 => .wait (at_ s1)
    | .bad pa s1 => .bad pa (at_ s1)
    | .got v s1 =>
      if s1.heldAtHome (g.newpa.toNat + 64 * i) then .wait (at_ s1)
      else (s1.homeStore 0x7FE (g.newpa.toNat + 64 * i) 64 v).copyGranules g left (i + 1)

/-- A new leaf is stored, and the INVL that follows it starts; its receivers are counted (R120, R121). -/
def State.migrateStore (s : State) (g : Migration) (pfn : Nat) (status : Nat) (who : InvlFor) : State :=
  let leaf := BitVec.ofNat 64 (s.homeRead g.leafpa 8)
  let s1 := (s.homeWrite g.leafpa 8 (setBits (setBits leaf 51 16 pfn) 58 58 0).toNat).startInvl 0 g.asid g.va (word (2 ^ sizeShift g.size)) who
  { s1 with migrating := some { g with drain := 1026, status := status } }

/-- Steps 2 and 3, once the first INVL is complete; and whether they are. -/
def State.migrateCopy (s : State) (g : Migration) : State × Bool :=
  if s.heldAtHome g.leafpa then (s, false) else
  match s.copyGranules g (2 ^ sizeShift g.size / 64 - g.next) g.next with
  | .got _ s1 => (s1.migrateStore g (g.newpa.toNat / 2 ^ 16) 1 .migrateFlip, true)
  | .wait s1 => (s1, false)
  | .bad pa s1 => ((s1.logUncorr 0x7FE pa 5 (lineMask (pa % 128) 64)).migrateStore g (g.oldpa / 2 ^ 16) 3 .migrateUndo, true)

/-- R100: every receiver has acknowledged. -/
def execInvlComplete (i : Nat) (s : State) : Host.Outcome State Fault Refusal :=
  match s.invls[i]? with
  | none => done s
  | some v =>
    if v.left ≠ 0 then done s else
    let s1 : State := { s with invls := dropAt i s.invls }
    done (match v.who with
      | .strand key => s1.modStrand key fun t => { t with ans := if t.ans = some .asked then some .accepted else t.ans }
      | .command c => s1.answerCmd c 1
      | .migrateFlip | .migrateUndo => s1
      | .migrateBusy => match s1.migrating with
        | some g =>
          let o := s1.migrateCopy g
          -- while granules wait, the event stands
          if o.2 then o.1 else { o.1 with invls := s.invls }
        | none => s1)

/-- R121: the drain count has reached zero. -/
def execMigrationDone (s : State) : Host.Outcome State Fault Refusal :=
  match s.migrating with
  | none => done s
  | some g =>
    if g.status = 0 || g.drain ≠ 0 || s.heldAtHome g.done.toNat then done s
    else done ((({ s with migrating := none } : State).writeDone g.done.toNat g.status).answerCmd g.who g.status)

/-! ### Register writes (R332, R377) -/

/-- The host reaches the register window of a cube that runs or has stopped in recovery (R336). -/
def State.hostUp (s : State) : Bool := s.phase = .running || s.phase = .recovery

/-- R377: HREPLY1 sends the reply whose word 0 is HREPLY0. -/
def execHreply (w1 : Word) (s : State) : Host.Outcome State Fault Refusal :=
  done (if s.hostUp then s.writeHreply1 w1 else s)

/-- R377: LOGPOST7, written by the host. -/
def execLogpost (w : Word) (s : State) : Host.Outcome State Fault Refusal :=
  done (if s.hostUp then s.writeLogpost 0x7FE 7 w else s)

/-- R109, R229. -/
def execScrasidWrite (tile : BitVec 10) (r : Fin 32) (w : Word) (s : State) : Host.Outcome State Fault Refusal :=
  done (if s.hostUp then s.writeScrasid tile.toNat r.val w else s)

/-- R329. -/
def execOptmapEnable (p : Fin 32) (w : Word) (s : State) : Host.Outcome State Fault Refusal :=
  done (if s.hostUp then s.writeOptmap p.val w else s)

/-- R332: an 8 B write of the host to the register window. -/
def execRegisterWrite (off : BitVec 30) (w : Word) (s : State) : Host.Outcome State Fault Refusal :=
  done (if s.hostUp && off.toNat % 8 = 0 then regWrite s off.toNat w true 1024 else s)

/-! ### CXL (R91, R145, R330) -/

/-- At most 64 B in one 64 B granule. -/
def oneGranule (pa n : Nat) : Bool := pa % 64 + n ≤ 64

/-- R145: a CXL.mem access of the host at the L2 home: a read, after which the host holds the line, or a write. -/
def execHostCxlMemAccess (pa : BitVec 52) (wr : List Byte) (s : State) : Host.Outcome State Fault Refusal :=
  let a := pa.toNat
  let line := a / 128
  let ours := match s.win a with | .inter | .near _ _ => true | _ => false
  done (
    if s.phase ≠ .running || !ours || !oneGranule a wr.length || s.heldAtHome a then s
    else if wr = [] then { s.homeFill line with cxl := ins line s.cxl }
    else s.homeStore 0x7FE a wr.length (bytesNat wr))

/-- R91: a snoop of the host for a line of its own memory: the slice gives its dirty bytes; when the host takes the line to write
it, the slice's copy goes. -/
def execHostCxlCacheSnoop (pa : BitVec 52) (wr : List Byte) (s : State) : Host.Outcome State Fault Refusal :=
  let a := pa.toNat
  done (
    if s.phase ≠ .running || s.win a ≠ .host || !oneGranule a wr.length then s
    else
      let s1 := s.homeClean (a / 128) (decide (wr = []))
      { s1 with mem := Mem.writeN s1.mem a wr.length (bytesNat wr) })

end Sys2Proof.Machine
end

