-- ==== Sys2Proof/Machine/Ports.lean ====
section
/-!
DEFINITION. Optical ports (R327–R329, R424, R426), timeouts and reissue (R422–R425), failed links and their patches (R418–R421),
the escape channels (R322) and discarded packets (R242).
-/

namespace Sys2Proof.Machine

/-! ### Requests of another package (R328) -/

def hdrType (h : BitVec 128) : Nat := bits h 127 124
def hdrSpkg (h : BitVec 128) : Nat := bits h 123 121
def hdrDpkg (h : BitVec 128) : Nat := bits h 120 118
def hdrBytes (h : BitVec 128) : Nat := bits h 117 112 + 1
def hdrSeq (h : BitVec 128) : Nat := bits h 111 96
def hdrTag (h : BitVec 128) : Nat := bits h 95 80
def hdrOp (h : BitVec 128) : Nat := bits h 79 72
def hdrOff (h : BitVec 128) : Nat := bits h 48 0

/-- The fault class of an error response: a window fault, or uncorrectable data. -/
def errWindow : List Byte := [BitVec.ofNat 8 WINDOW]
def errData : List Byte := [BitVec.ofNat 8 DATAERR]

/-- What the home does with a request of this package's memory: the response's TYPE and payload. -/
def State.portPerform (s : State) (h : BitVec 128) (data : List Byte) : State × Nat × List Byte :=
  let n := hdrBytes h
  let pa := s.pkgid.toNat * 2 ^ Config.pkgShift + hdrOff h
  let op := hdrOp h
  match s.win pa with
  | .inter | .near _ _ =>
    match hdrType h with
    | 0 => if s.badIn pa n then (s.logOut 0x7FE pa n, 11, errData) else (s.homeFill (pa / 128), 8, natBytes n (s.homeRead pa n))
    | 1 => (s.homeStore 0x7FE pa n (bytesNat data), 9, [])
    | 2 =>
      match portAtomic (op / 64) (op / 8 % 8) (op % 8) n data with
      | none => (s, 11, errWindow)
      | some f =>
        if s.badIn pa n then (s.logOut 0x7FE pa n, 11, errData)
        else
          let old := s.homeRead pa n
          (match f old with
            | some new => s.homeWrite pa n new
            | none => s.homeFill (pa / 128), 10, natBytes n old)
    | _ =>
      if op / 64 = 2 && portRedn (op / 8 % 8) (op % 8) n then (s.reduceAt pa (op / 8 % 8) (n == 8) (word (bytesNat data)), 9, [])
      else (s, 11, errWindow)
  | _ => (s, 11, errWindow)

/-- A packet leaves on the port that its location chooses (R329). -/
def State.portSend (s : State) (pkg : Nat) (h : BitVec 128) (data : List Byte) : State :=
  match s.portFor pkg (hdrOff h) with
  | some p => { s with portOut := s.portOut ++ [(p, h, wire h data)] }
  | none => s

/-- The header of a response. -/
def responseHdr (h : BitVec 128) (type : Nat) : BitVec 128 :=
  portHdr type (hdrSpkg h) (hdrDpkg h) (hdrBytes h - 1) (hdrSeq h) (hdrTag h) (if type = 10 then hdrOp h else 0) 0 0 (hdrOff h)

/-- Answers are kept by requester: the last 32 of operations that are not reads (R424). -/
def requester (h : BitVec 128) : Nat := hdrSpkg h * 2 ^ 16 + hdrTag h

/-- A request arrives: a read is performed, another operation performed once and answered as often as it arrives. -/
def State.portRequest (s : State) (h : BitVec 128) (data : List Byte) : State :=
  let pkg := hdrSpkg h
  match (if hdrType h = 0 then none else s.portSeen.find? fun e => e.1 = requester h && hdrSeq e.2.1 = hdrSeq h) with
  | some (_, h', d) => s.portSend pkg h' d
  | none =>
    if s.heldAtHome (s.pkgid.toNat * 2 ^ Config.pkgShift + hdrOff h) then s
    else
      let (s1, type, d) := s.portPerform h data
      let h' := responseHdr h type
      let mine := (s1.portSeen.filter fun e => e.1 = requester h).take 31
      let others := s1.portSeen.filter fun e => e.1 ≠ requester h
      (if hdrType h = 0 then s1 else { s1 with portSeen := (requester h, h', d) :: mine ++ others }).portSend pkg h' d

/-- A write-back that was refused or never answered has lost its bytes. -/
def State.lostWrite (s : State) (h : BitVec 128) : State :=
  s.logUncorr (hdrTag h / 64) (hdrDpkg h * 2 ^ Config.pkgShift + hdrOff h) 3 (lineMask (hdrOff h % 128) (hdrBytes h))

/-- A response arrives at the request that it answers, unless its way from the sole die leads over a failed link (R329, R421); one that answers none
is dropped (R424). -/
def State.portResponse (s : State) (h : BitVec 128) (data : List Byte) : State :=
  let fits (p : Packet) : Bool := hdrSeq p.hdr = hdrSeq h && hdrTag p.hdr = hdrTag h && p.reply.isNone &&
    (hdrType h = 11 || (match hdrType p.hdr with | 0 => hdrType h = 8 | 2 => hdrType h = 10 | _ => hdrType h = 9))
  match s.packets.find? fits with
  | none => s
  | some p =>
    match s.lostOn (s.request ⟨0, 0⟩ (hdrTag p.hdr / 64) 1024 (.read (hdrOff p.hdr) 1)).tripBack with
    | some r => s.countLost r
    | none =>
    -- a tile's own write-back is over with its response; one that is refused has lost its bytes
    if p.key = tileKey p.key.asid && hdrType p.hdr = 1 then
      let s1 : State := { s with packets := s.packets.filter fun q => !fits q }
      if hdrType h = 9 then s1
      else s1.lostWrite p.hdr
    else if hdrType p.hdr = 3 then
      ({ s with packets := s.packets.filter fun q => !fits q } : State).modStrand p.key fun t => { t with redn := t.redn - 1 }
    else { s with packets := s.packets.map fun q => if fits q then { q with reply := some (BitVec.ofNat 4 (hdrType h), data) } else q }

/-- A refused port packet's DROP entry (R378). -/
def State.portDrop (s : State) (h : BitVec 128) : State := s.logEntry 10 0x7FE [h.extractLsb' 0 64, h.extractLsb' 64 64]

/-- R327, R328: a packet whose CRC fails is dropped; one of an unknown TYPE is dropped and logged. -/
def execPortPacket (hdr : BitVec 128) (payload : List Byte) (crc : BitVec 32) (s : State) : Host.Outcome State Fault Refusal :=
  let type := hdrType hdr
  done (
    if crc ≠ portCrc hdr payload || s.phase ≠ .running then s
    else if type ≤ 3 then (if hdrDpkg hdr = s.pkgid.toNat then s.portRequest hdr payload else s.portDrop hdr)
    else if 8 ≤ type && type ≤ 11 then (if hdrSpkg hdr = s.pkgid.toNat then s.portResponse hdr payload else s.portDrop hdr)
    else s.portDrop hdr)

/-! ### Timeouts (R422–R425) -/

/-- Sent once more, with the same SEQ, from the primary channels on. -/
def Msg.reissue (m : Msg) : Msg :=
  { m with
    attempt := m.attempt + 1, esc := false, escAt := 0, det := false, backEsc := false, backAt := 0, backDet := false
    st := match m.st with
      | .lost => .sent
      | .ansLost a => .dup a
      | x => x }

/-- The fate of a request or an eyelet message whose fifth attempt has timed out; the message is gone. -/
def State.failMsg (s : State) (m : Msg) : State :=
  match m.body with
  | .redn key .. => s.modStrand key fun t => { t with redn := t.redn - 1 }
  | .eyelet key .. => s.modStrand key fun t => if t.ans = some .asked then { t with ans := some .failed } else t
  | .decrement _ _ cell => s.logDrop m.src cell
  | .waiter who _ entry =>
    match who with
    | .strand key => (s.freeDeferral m.src entry).modStrand key fun t => if t.ans = some .asked then { t with ans := some .failed } else t
    | .command _ c => (s.freeDeferral m.src entry).answerCmd c 3
  | .launch k =>
    match s.finishHandle k.tile.toNat k.key k.kreg (doneWord 4 false k.seq 5 0) with
    | .ok s1 => s1.modTile k.tile.toNat fun t => { t with launches := t.launches - 1 }
    -- the handle's page is being moved: the timer runs out again
    | .wait s1 | .fail _ s1 => { s1 with msgs := s1.msgs ++ [m] }
  | _ => s

/-- NET entry of a message that timed out: SRC, DST, class, SEQ and attempts. -/
def State.logTimeout (s : State) (m : Msg) : State := s.logNet (if m.src < 1024 then m.src else 0x7FE) [m.src, m.dst, m.cls.num, m.seq.toNat, m.attempt + 1]

/-- A request stands at its home: nothing has discarded it, and it is its turn. -/
def State.atItsHome (s : State) (i : Nat) (m : Msg) : Bool := m.st = .sent && m.cls = .req && s.windowed i m && s.inOrder i m && (s.lostOn m.trip).isNone

/-- A welt core's clamp keeps a request at its home, whose hold notices restart its timer (R142, R422). -/
def State.clampHolds (s : State) (i : Nat) (m : Msg) : Bool := s.atItsHome i m && m.body.pa?.any s.heldAtHome

/-- Whose accesses are no strand's. -/
def isAgent (k : Key) : Bool := 2 ^ 45 - 2 ^ 18 ≤ k.handle.toNat

/-- A message's timer runs out. -/
def State.timeoutMsg (s : State) (i : Nat) (m : Msg) : State :=
  if !s.windowed i m || s.clampHolds i m then s
  else if 0 < m.holds then s.modMsg i fun m => { m with holds := 0 }
  else if m.cls = .enq || m.cls = .sync || m.cls = .rsp then
    let s1 := s.modMsg i Msg.reissue
    if (m.attempt + 1) % 5 = 0 then s1.logTimeout m else s1
  else if m.attempt < 4 then s.modMsg i Msg.reissue
  else match m.body with
    | .access key op none =>
      if (op matches .write ..) && !isAgent key && (s.theStrand? key).isNone then (s.logTimeout m).dropMsg i
      else (s.logTimeout m).modMsg i fun m => { m with body := .access key op (some none), st := .answered .failed }
    | .access .. => s
    | _ => ((s.logTimeout m).dropMsg i).failMsg m

/-- A request to another package has failed for good: it answers an error, a `red.n` and a tile's own write-back are over (R425). -/
def State.packetFails (s : State) (i : Nat) (p : Packet) (reply : BitVec 4 × List Byte) : State :=
  if hdrType p.hdr = 3 then ({ s with packets := dropAt i s.packets } : State).modStrand p.key fun t => { t with redn := t.redn - 1 }
  else if p.key = tileKey p.key.asid && hdrType p.hdr = 1 then ({ s with packets := dropAt i s.packets } : State).lostWrite p.hdr
  else { s with packets := s.packets.set i { p with reply := some reply } }

/-- A request to another package is sent again, on the port that OPTMAP now gives (R426). -/
def State.timeoutPacket (s : State) (i : Nat) (p : Packet) : State :=
  if p.reply.isSome then s
  else if p.attempt < 4 then
    match s.portFor (hdrDpkg p.hdr) (hdrOff p.hdr) with
    | some port =>
      s.leavePort (hdrTag p.hdr / 64) (hdrOff p.hdr) port p.hdr p.data { s with packets := s.packets.set i { p with attempt := p.attempt + 1, port := port } }
    | none => s.packetFails i p (11, errWindow)
  else (s.packetFails i p (12, [])).logNet (hdrTag p.hdr / 64) [hdrDpkg p.hdr, hdrOff p.hdr, hdrType p.hdr, hdrSeq p.hdr, 5]

/-- R422: message `i`, or with `i` beyond the messages a request to another package. -/
def execMessageTimeout (i : Nat) (s : State) : Host.Outcome State Fault Refusal :=
  match s.msgs[i]? with
  | some m => done (s.timeoutMsg i m)
  | none =>
    match s.packets[i - s.msgs.length]? with
    | some p => done (s.timeoutPacket (i - s.msgs.length) p)
    | none => done s

/-- R422: the home that holds a request behind a clamp, a refresh or a bank remap restarts its timer. Refreshes and remaps take no step of their own
here, so a notice may come for any request that stands at the home of a DRAM address. -/
def execHoldNotice (i : Nat) (s : State) : Host.Outcome State Fault Refusal :=
  match s.msgs[i]? with
  | some m =>
    let dram : Bool := m.body.pa?.any fun pa => match s.win pa with
      | .inter | .near .. => true
      | _ => false
    done (if dram && s.atItsHome i m then s.modMsg i fun m => { m with holds := 1 } else s)
  | none => done s

/-! ### Channels and lost flits (R322, R418) -/

/-- Whether an answer is on its way. -/
def Msg.back (m : Msg) : Bool := match m.st with
  | .answered _ => true
  | _ => false

/-- R322: a message, or its answer, moves to the escape channels after 32 cycles at the router where it stands after `h.made` hops. -/
def execEscapeSwitch (h : Hops) (s : State) : Host.Outcome State Fault Refusal :=
  match s.msgs[h.msg]? with
  | some m => done (
    if m.back then (if m.backEsc then s else s.modMsg h.msg fun m => { m with backEsc := true, backAt := min h.made m.tripBack.hops.length })
    else if m.st = .sent && !m.esc then s.modMsg h.msg fun m => { m with esc := true, escAt := min h.made m.trip.hops.length } else s)
  | none => done s

/-- The far end of a link: the receiving router and its port. -/
def farEnd (t : Nat) (p : Port) : Nat × Port := match p with
  | .sole => (t, .sole)
  | _ => (neighbour t p, Port.opposite p)

/-- The CRC failures that a router has counted at a port within 2^20 of its own cycles (R418). -/
def Tile.crcSeen (t : Tile) (p : Port) : List Word := (((t.crc.find? fun e => e.1 = p).map (·.2)).getD []).filter fun c => (t.cyc - c).toNat < 2 ^ 20
def Tile.crcCount (t : Tile) (p : Port) : Nat := (t.crcSeen p).length
def Tile.setCrc (t : Tile) (p : Port) (l : List Word) : Tile := { t with crc := (p, l) :: t.crc.filter fun e => e.1 ≠ p }

/-- R418: a message, or its answer, that has a flit fail its CRC on its next hop is discarded at the router that receives it, which counts it. -/
def execFlitCrcFailure (h : Hops) (s : State) : Host.Outcome State Fault Refusal :=
  match s.msgs[h.msg]? with
  | none => done s
  | some m =>
    match (s.course (if m.back then m.tripBack else m.trip))[h.made]? with
    | none => done s
    | some hop =>
      let (q, port) := farEnd hop.router hop.port
      if m.st.lose = m.st then done s
      else done ((s.modMsg h.msg fun m => { m with st := m.st.lose }).modTile q fun u => u.setCrc port (u.cyc :: u.crcSeen port))

/-! ### Failed links (R418–R421) -/

/-- Both ends stop using a link. -/
def State.failLink (s : State) (t : Nat) (p : Port) : State :=
  let stop (s : State) (e : Nat × Port) : State := s.modTile e.1 fun u => if u.failed.contains e.2 then u else { u with failed := u.failed ++ [e.2] }
  stop (stop s (t, p)) (farEnd t p)

/-- Failed signals of the direction out of a router by a port; the sole die's ends of the sole links are routers 1,024 and up (R417). -/
def State.failedSignals (s : State) (t : Nat) (p : Port) : Nat := ((s.sigs.find? fun e => e.1 = (t, p)).map (·.2)).getD 0
/-- One more has failed. -/
def State.failSignal (s : State) (t : Nat) (p : Port) : State :=
  { s with sigs := ((t, p), s.failedSignals t p + 1) :: s.sigs.filter fun e => e.1 ≠ (t, p) }

/-- R418: a signal in use loses lock; step 6 of the next start finds it failed. -/
def execLinkLossOfLock (tile : BitVec 10) (port : Port) (s : State) : Host.Outcome State Fault Refusal :=
  done ((s.failLink tile.toNat port).failSignal tile.toNat port)

/-- R418: more than 64 CRC failures within 2^20 of the receiving router's cycles. -/
def execLinkCrcLimit (tile : BitVec 10) (port : Port) (s : State) : Host.Outcome State Fault Refusal :=
  done (if 64 < (s.tile tile.toNat).crcCount port then (s.modTile tile.toNat fun t => t.setCrc port []).failLink tile.toNat port else s)

/-- The dimension of a port: 0 x, 1 y, 2 z, 3 the sole link. -/
def Port.dim : Port → Nat
  | .xp | .xm => 0
  | .yp | .ym => 1
  | .zp | .zm => 2
  | .sole => 3

/-- A SIDE whose detour leaves by no port that is already patched (R420, R421). -/
def State.sideOk (s : State) (t : Nat) (p : Port) (side : Nat) : Bool :=
  let d := dirPort side
  let n := neighbour t d
  Port.dim d ≠ Port.dim p && !(s.tile t).patched d && !(s.tile n).patched p && (p = .sole || !(s.tile (neighbour n p)).patched (Port.opposite d))

/-- One end of a failed link can have an entry: it has room, and some SIDE will do. -/
def State.patchable (s : State) (t : Nat) (p : Port) : Bool := decide ((s.tile t).patch.length < 4) && (List.range 4).any (s.sideOk t p)

def patchEntry (p : Port) (side : Nat) : BitVec 16 := BitVec.ofNat 16 (2 ^ 15 + portNum p * 2 ^ 12 + side * 2 ^ 9)
def Tile.addPatch (t : Tile) (e : BitVec 16) : Tile := { t with patch := t.patch ++ [e] }

/-- R421: an entry at both ends, with the SIDEs that the controller has chosen, and one NET entry that names the link and the entries; where an end
can have none, the NET entry alone. A sole link has one entry: the sole die has no table. -/
def State.patchLink (s : State) (t : Nat) (a : PatchSides) : State :=
  let p := a.port
  let (q, r) := farEnd t p
  let log (s : State) (e f : BitVec 16) : State := s.logNet 0x7FF [t, portNum p, e.toNat, q, portNum r, f.toNat]
  if !(s.tile t).failed.contains p || (s.tile t).patched p then s
  else if !s.patchable t p || !(p = .sole || s.patchable q r) then log s 0 0
  else if !s.sideOk t p a.side.val || !(p = .sole || s.sideOk q r a.farSide.val) then s
  else
    let e := patchEntry p a.side.val
    let s1 := s.modTile t fun u => u.addPatch e
    if p = .sole then log s1 e e else log (s1.modTile q fun u => u.addPatch (patchEntry r a.farSide.val)) e (patchEntry r a.farSide.val)

/-- R421. -/
def execPatchInstall (tile : BitVec 10) (p : PatchSides) (s : State) : Host.Outcome State Fault Refusal :=
  done (s.patchLink tile.toNat p)

/-! ### Optical ports (R426) -/

/-- R426: EN := 0, and a NET entry. -/
def execOpticalPortFailure (p : Fin 32) (s : State) : Host.Outcome State Fault Refusal :=
  done (({ s with
    optmap := s.optmap.set p (s.optmap[p] &&& 7)
    opticalDown := s.opticalDown ||| BitVec.ofNat 32 (2 ^ p.val) } : State).logNet 0x7FF [7, p.val])

/-! ### A packet that pre-emption discards (R242) -/

/-- R242, R394: 16,384 cycles after the pre-emption reached the tile, OPEN := 0 and LOST := 1; a strand that is active or waiting is then
deactivated. -/
def execPacketDiscard (key : Key) (s : State) : Host.Outcome State Fault Refusal :=
  match s.theStrand? key with
  | none => done s
  | some t =>
    if s.resident key.asid || !pkOpen t.pkst || t.wait = some .answer || t.state = 4 || t.pktCycles < 16384 then done s
    else
      let s1 := (s.withdraw key).modStrand key fun t => { t.setPkst (setBits (setBits t.pkst 63 63 0) 62 62 1) with ans := none }
      done (match s1.theStrand? key with
        | some u => if u.parkable then s1.parkAway key else s1
        | none => s1)

end Sys2Proof.Machine
end

