-- ==== Sys2Proof/Machine/Scalar.lean ====
section
/-!
DEFINITION. Scalar integer and bit-field instructions (R171–R176).
-/

namespace Sys2Proof.Machine

/-- Shift amount of R171. -/
def shAmt (x : Word) : Nat := x.toNat % 64

/-- Division and remainder of R172: quotient and remainder of two integers, truncated toward zero. -/
def quotRem (x y : Int) : Int × Int := if y = 0 then (-1, x) else (x.tdiv y, x.tmod y)

/-- An integer as a word: its low 64 bits (R8). -/
def intWord (x : Int) : Word := BitVec.ofInt 64 x

/-- Leading zeros among the low `n` bits. -/
def clzN (x : Word) : Nat → Nat
  | 0 => 0
  | n + 1 => if x.getLsbD n then 0 else 1 + clzN x n

/-- Trailing zeros: `n` bits from bit i. -/
def ctzN (x : Word) : Nat → Nat → Nat
  | 0, _ => 0
  | n + 1, i => if x.getLsbD i then 0 else 1 + ctzN x n (i + 1)

def popN (x : Word) : Nat → Nat
  | 0 => 0
  | n + 1 => (x.getLsbD n).toNat + popN x n

/-- The eight bytes in reverse order (R171). -/
def revBytes (x : Word) : Word := BitVec.ofNat 64 (bytesNat (natBytes 8 x.toNat).reverse)

/-- ⌊x / 2^p⌋ mod 2^len. -/
def field (x : Word) (p len : Nat) : Nat := x.toNat / 2 ^ p % 2 ^ len

/-- R171. -/
def execAdd (d a b : GReg) (s : State) : Host.Outcome State Fault Refusal :=
  done (s.setG d (s.g a + s.g b))

/-- R171. -/
def execSub (d a b : GReg) (s : State) : Host.Outcome State Fault Refusal :=
  done (s.setG d (s.g a - s.g b))

/-- R171. -/
def execAnd (d a b : GReg) (s : State) : Host.Outcome State Fault Refusal :=
  done (s.setG d (s.g a &&& s.g b))

/-- R171. -/
def execOr (d a b : GReg) (s : State) : Host.Outcome State Fault Refusal :=
  done (s.setG d (s.g a ||| s.g b))

/-- R171. -/
def execXor (d a b : GReg) (s : State) : Host.Outcome State Fault Refusal :=
  done (s.setG d (s.g a ^^^ s.g b))

/-- R171. -/
def execAndn (d a b : GReg) (s : State) : Host.Outcome State Fault Refusal :=
  done (s.setG d (s.g a &&& ~~~ (s.g b)))

/-- R171. -/
def execOrn (d a b : GReg) (s : State) : Host.Outcome State Fault Refusal :=
  done (s.setG d (s.g a ||| ~~~ (s.g b)))

/-- R171. -/
def execSll (d a b : GReg) (s : State) : Host.Outcome State Fault Refusal :=
  done (s.setG d (s.g a <<< shAmt (s.g b)))

/-- R171. -/
def execSrl (d a b : GReg) (s : State) : Host.Outcome State Fault Refusal :=
  done (s.setG d (s.g a >>> shAmt (s.g b)))

/-- R171. -/
def execSra (d a b : GReg) (s : State) : Host.Outcome State Fault Refusal :=
  done (s.setG d ((s.g a).sshiftRight (shAmt (s.g b))))

/-- R171. -/
def execRol (d a b : GReg) (s : State) : Host.Outcome State Fault Refusal :=
  done (s.setG d ((s.g a).rotateLeft (shAmt (s.g b))))

/-- R171. -/
def execRor (d a b : GReg) (s : State) : Host.Outcome State Fault Refusal :=
  done (s.setG d ((s.g a).rotateRight (shAmt (s.g b))))

/-- R171. -/
def execMin (d a b : GReg) (s : State) : Host.Outcome State Fault Refusal :=
  done (s.setG d (if (s.g b).toInt < (s.g a).toInt then s.g b else s.g a))

/-- R171. -/
def execMax (d a b : GReg) (s : State) : Host.Outcome State Fault Refusal :=
  done (s.setG d (if (s.g a).toInt < (s.g b).toInt then s.g b else s.g a))

/-- R171. -/
def execMinu (d a b : GReg) (s : State) : Host.Outcome State Fault Refusal :=
  done (s.setG d (if s.g b < s.g a then s.g b else s.g a))

/-- R171. -/
def execMaxu (d a b : GReg) (s : State) : Host.Outcome State Fault Refusal :=
  done (s.setG d (if s.g a < s.g b then s.g b else s.g a))

/-- R171. -/
def execSlt (d a b : GReg) (s : State) : Host.Outcome State Fault Refusal :=
  done (s.setG d (boolWord (decide ((s.g a).toInt < (s.g b).toInt))))

/-- R171. -/
def execSltu (d a b : GReg) (s : State) : Host.Outcome State Fault Refusal :=
  done (s.setG d (boolWord (decide (s.g a < s.g b))))

/-- R171. -/
def execSeq (d a b : GReg) (s : State) : Host.Outcome State Fault Refusal :=
  done (s.setG d (boolWord (s.g a == s.g b)))

/-- R171. -/
def execSne (d a b : GReg) (s : State) : Host.Outcome State Fault Refusal :=
  done (s.setG d (boolWord (s.g a != s.g b)))

/-- R171. -/
def execMul (d a b : GReg) (s : State) : Host.Outcome State Fault Refusal :=
  done (s.setG d (s.g a * s.g b))

/-- R171: the upper half of the signed product. -/
def execMulh (d a b : GReg) (s : State) : Host.Outcome State Fault Refusal :=
  done (s.setG d (intWord ((s.g a).toInt * (s.g b).toInt / 2 ^ 64)))

/-- R171: the upper half of the unsigned product. -/
def execMulhu (d a b : GReg) (s : State) : Host.Outcome State Fault Refusal :=
  done (s.setG d (word ((s.g a).toNat * (s.g b).toNat / 2 ^ 64)))

/-- R172. -/
def execDiv (d a b : GReg) (la : La) (s : State) : Host.Outcome State Fault Refusal :=
  done (s.setGLa d la (intWord (quotRem (s.g a).toInt (s.g b).toInt).1))

/-- R172. -/
def execDivu (d a b : GReg) (la : La) (s : State) : Host.Outcome State Fault Refusal :=
  done (s.setGLa d la (intWord (quotRem (s.g a).toNat (s.g b).toNat).1))

/-- R172. -/
def execRem (d a b : GReg) (la : La) (s : State) : Host.Outcome State Fault Refusal :=
  done (s.setGLa d la (intWord (quotRem (s.g a).toInt (s.g b).toInt).2))

/-- R172. -/
def execRemu (d a b : GReg) (la : La) (s : State) : Host.Outcome State Fault Refusal :=
  done (s.setGLa d la (intWord (quotRem (s.g a).toNat (s.g b).toNat).2))

/-- R171. -/
def execClz (d a : GReg) (s : State) : Host.Outcome State Fault Refusal :=
  done (s.setG d (word (clzN (s.g a) 64)))

/-- R171. -/
def execCtz (d a : GReg) (s : State) : Host.Outcome State Fault Refusal :=
  done (s.setG d (word (ctzN (s.g a) 64 0)))

/-- R171. -/
def execPopc (d a : GReg) (s : State) : Host.Outcome State Fault Refusal :=
  done (s.setG d (word (popN (s.g a) 64)))

/-- R171. -/
def execRev (d a : GReg) (s : State) : Host.Outcome State Fault Refusal :=
  done (s.setG d (revBytes (s.g a)))

/-- R173. -/
def execAddi (d a : GReg) (i : Imm 15) (s : State) : Host.Outcome State Fault Refusal :=
  done (s.setG d (s.g a + immI i))

/-- R173. -/
def execAndi (d a : GReg) (i : Imm 15) (s : State) : Host.Outcome State Fault Refusal :=
  done (s.setG d (s.g a &&& immI i))

/-- R173. -/
def execOri (d a : GReg) (i : Imm 15) (s : State) : Host.Outcome State Fault Refusal :=
  done (s.setG d (s.g a ||| immI i))

/-- R173. -/
def execXori (d a : GReg) (i : Imm 15) (s : State) : Host.Outcome State Fault Refusal :=
  done (s.setG d (s.g a ^^^ immI i))

/-- R173. -/
def execSlti (d a : GReg) (i : Imm 15) (s : State) : Host.Outcome State Fault Refusal :=
  done (s.setG d (boolWord (decide ((s.g a).toInt < (immI i).toInt))))

/-- R173. -/
def execSltiu (d a : GReg) (i : Imm 15) (s : State) : Host.Outcome State Fault Refusal :=
  done (s.setG d (boolWord (decide (s.g a < immI i))))

/-- R173. -/
def execSlli (d a : GReg) (i : Imm 15) (s : State) : Host.Outcome State Fault Refusal :=
  done (s.setG d (s.g a <<< shAmt (immI i)))

/-- R173. -/
def execSrli (d a : GReg) (i : Imm 15) (s : State) : Host.Outcome State Fault Refusal :=
  done (s.setG d (s.g a >>> shAmt (immI i)))

/-- R173. -/
def execSrai (d a : GReg) (i : Imm 15) (s : State) : Host.Outcome State Fault Refusal :=
  done (s.setG d ((s.g a).sshiftRight (shAmt (immI i))))

/-- R174: the low half of I above the low half of ga. -/
def execLhi (d a : GReg) (i : Imm 15) (s : State) : Host.Outcome State Fault Refusal :=
  done (s.setG d ((immI i).extractLsb' 0 32 ++ (s.g a).extractLsb' 0 32))

/-- R175. -/
def execExtu (d a : GReg) (pos len1 : BitVec 6) (s : State) : Host.Outcome State Fault Refusal :=
  done (s.setG d (word (field (s.g a) pos.toNat (len1.toNat + 1))))

/-- R175. -/
def execExts (d a : GReg) (pos len1 : BitVec 6) (s : State) : Host.Outcome State Fault Refusal :=
  done (s.setG d (sext (len1.toNat + 1) (field (s.g a) pos.toNat (len1.toNat + 1))))

/-- R175. -/
def execIns (d a : GReg) (pos len1 : BitVec 6) (s : State) : Host.Outcome State Fault Refusal :=
  done (s.setG d (word ((s.g d).toNat - field (s.g d) pos.toNat (len1.toNat + 1) * 2 ^ pos.toNat + (s.g a).toNat % 2 ^ (len1.toNat + 1) * 2 ^ pos.toNat)))

/-- R176. -/
def execCsel (d a b c : GReg) (s : State) : Host.Outcome State Fault Refusal :=
  done (s.setG d (if s.g c != 0 then s.g a else s.g b))

/-- R176. -/
def execMadd (d a b c : GReg) (s : State) : Host.Outcome State Fault Refusal :=
  done (s.setG d (s.g a * s.g b + s.g c))

/-- R176. -/
def execMsub (d a b c : GReg) (s : State) : Host.Outcome State Fault Refusal :=
  done (s.setG d (s.g c - s.g a * s.g b))

end Sys2Proof.Machine
end

