-- ==== Sys2Proof/Machine/Welt.lean ====
section
/-!
DEFINITION. The welt scheduler and the stack controllers (R295–R297, R310, R313–R319, R437), and a kernel's completion at its tile
(R140, R247).
-/

namespace Sys2Proof.Machine

/-! ### Cores -/

/-- A core comes forward to be stepped, and goes back. -/
def State.loadCore (s : State) (n : Nat) : State := { s with core := s.coreOf n, coreAt := n }
def State.unloadCore (s : State) : State := { s.setCore s.coreAt s.core with core := Core.reset, coreAt := 0 }
def State.onCore (s : State) (n : Nat) (f : State → State) : State := (f (s.loadCore n)).unloadCore

def coreNum (stack : Fin 12) (core : Fin 16) : Nat := stack.val * 16 + core.val

/-- The lowest-numbered idle core in service (R313). -/
def State.idleCore (s : State) (stack : Nat) : Option Nat :=
  ((List.range 16).find? fun n => (s.stack stack).service.getLsbD n && (s.coreOf (stack * 16 + n)).kern.isNone).map fun n => stack * 16 + n

/-! ### Launches (R313, R296, R297) -/

/-- R313: a launch joins its stack's queue; one already cancelled ends. R317 names running, queued and suspended kernels: a launch that is still on its
way when the scheduler acknowledges an INVL is none of them, and joins the queue with its segment list as it is (DESIGN CHOICE, log 88). -/
def execWeltLaunchReceive (i : Nat) (s : State) : Host.Outcome State Fault Refusal :=
  done (s.arrive i (fun b => match b with | .launch _ => true | _ => false) fun m =>
    match m.body with
    | .launch k =>
      if k.cancel then some (.accepted, s.sendEnd k 1 0)
      else
        let y := s.stack k.stack
        some (.accepted, s.setStack k.stack { y with queue := y.queue ++ [k] })
    | _ => none)

/-- `n` bytes from a physical address as the homes serve them, 64 at a time. -/
def State.homeBytes (s : State) : Nat → Nat → Nat → Nat
  | 0, _, _ => 0
  | fuel + 1, pa, n => if n = 0 then 0 else s.homeRead pa (min n 64) + 2 ^ 512 * s.homeBytes fuel (pa + 64) (n - 64)

/-- The header of an image: its fields, or the INFO of its refusal (R296, R313). -/
structure Image where
  code : Nat
  data : Nat
  entry : Nat

def State.image (s : State) (k : Kernel) : Except Nat Image :=
  let h := s.homeRead k.image 64
  let code := bytesAt h 4 7
  let data := bytesAt h 8 11
  let entry := bytesAt h 12 15
  if bytesAt h 0 3 ≠ 0x42550001 || bytesAt h 16 63 ≠ 0 then .error 1
  else if code % 4 ≠ 0 || code < 4 || 131072 < code || data % 8 ≠ 0 || 131040 < data || entry % 4 ≠ 0 || code ≤ entry ||
      k.imageEnd < k.image + 64 + code + data then .error 2
  else .ok { code := code, data := data, entry := entry }

/-- Local SRAM at the start: the code, the data and ARG0–ARG3 (R295). -/
def State.startSram (s : State) (k : Kernel) (g : Image) : List Host.Cell :=
  let code := s.homeBytes (g.code / 64 + 1) (k.image + 64) g.code
  let data := s.homeBytes (g.data / 64 + 1) (k.image + 64 + g.code) g.data
  Mem.writeN (Mem.writeN (Mem.writeN [] 0 g.code code) 0x20000 g.data data) 0x3FFE0 32 (packN 64 (k.args.map (·.toNat)))

/-- P_j at the start (R297). -/
def Kernel.pointer (k : Kernel) (j : Nat) : Word :=
  match k.ranges[j]?, k.segs.find? fun g => g.range = j with
  | some r, some g => word (j * 2 ^ 36 + (va57 r.base - g.va))
  | _, _ => 0

def State.startCore (s : State) (k : Kernel) (g : Image) : Core :=
  { Core.reset with
    p := Vector.ofFn fun j => k.pointer j.val
    pc := BitVec.ofNat 18 g.entry
    sram := s.startSram k g
    kern := some k }

/-- A line of the image that its home cannot read yet (R142), or not at all. -/
def State.imageWaits (s : State) (pa n : Nat) : Bool := (List.range ((pa % 128 + n + 127) / 128)).any fun i => s.heldAtHome (pa / 128 * 128 + 128 * i)
def State.imageBad (s : State) (pa n : Nat) : Bool := s.badIn pa n

/-- A launch starts on a core, or is refused; none while its image cannot be read. -/
def State.place1 (s : State) (n : Nat) (k : Kernel) : Option State :=
  if s.imageWaits k.image 64 then none
  else if s.imageBad k.image 64 then some ((s.logOut 0x7FE k.image 64).sendEnd k 5 0)
  else match s.image k with
    | .error why => some (s.sendEnd k 6 (BitVec.ofNat 32 why))
    | .ok g =>
      let size := 64 + g.code + g.data
      if s.imageWaits k.image size then none
      else if s.imageBad k.image size then some ((s.logOut 0x7FE k.image size).sendEnd k 5 0)
      else some (s.setCore n (s.startCore k g))

def State.unqueue (s : State) (stack : Nat) (i : Nat) : State := s.setStack stack { s.stack stack with queue := dropAt i (s.stack stack).queue }

/-- Kernels about to be restored are at the head of the queue (R316). -/
def State.restorable (s : State) (v : Saved) : Bool := v.core.kern.any fun k => s.resident k.asid

/-- R313. -/
def execWeltPlace (stack : Fin 12) (s : State) : Host.Outcome State Fault Refusal :=
  let n := stack.val
  let y := s.stack n
  if y.service = 0 then
    done (match y.queue with
      | [] => s
      | k :: _ => (s.unqueue n 0).sendEnd k 6 3)
  else if y.restores.any s.restorable then done s
  else match s.idleCore n, firstIdx (fun k => s.resident k.asid) y.queue with
    | some c, some i =>
      match y.queue[i]? with
      | some k => done (((s.unqueue n i).place1 c k).getD s)
      | none => done s
    | _, _ => done s

/-- R316: a suspended kernel of a resumed space goes on, on any idle core of its stack. -/
def execWeltRestore (stack : Fin 12) (s : State) : Host.Outcome State Fault Refusal :=
  let n := stack.val
  let y := s.stack n
  match s.idleCore n, firstIdx s.restorable y.restores with
  | some c, some i =>
    match y.restores[i]? with
    | some v => done ((s.setStack n { y with restores := dropAt i y.restores }).setCore c v.core)
    | none => done s
  | _, _ => done s

/-! ### Completion (R140, R247, R314) -/

/-- An L2 line holds bytes of a declared range. -/
def Kernel.declares (k : Kernel) (line : Nat) : Bool :=
  k.segs.any fun g =>
    decide (g.pa ≤ line * 128) && decide (line * 128 < g.pa + g.bytes) &&
    match k.ranges[g.range]? with
    | some r => overlap (g.va + (line * 128 - g.pa)) 128 (va57 r.base) r.len
    | none => false

/-- The near acquire over the declared ranges at the homes, then the handle; none while a bank is clamped or the cell's page moves. -/
def State.complete (s : State) (k : Kernel) (status : Byte) (info : BitVec 32) : Try :=
  let lines := (s.l2.map (·.addr)).filter k.declares
  if lines.any fun n => s.clamped (n * 128) then .wait s else
  let s1 := lines.foldl (fun s n => s.homeClean n false) s
  let s2 := s1.modTile k.tile.toNat fun t => { t with launches := t.launches - 1 }
  match s2.finishHandle k.tile.toNat k.key k.kreg (doneWord 4 false k.seq status info) with
  | .wait s3 => .wait (s3.modTile k.tile.toNat fun t => { t with launches := t.launches + 1 })
  | o => o

/-- R314: the completion reaches the launching tile. -/
def execWeltCompletion (i : Nat) (s : State) : Host.Outcome State Fault Refusal :=
  match s.msgs[i]? with
  | some m =>
    match m.body with
    | .weltEnd k status info =>
      if m.st ≠ .sent then done s
      else match s.lostOn m.trip with
      | some r => done ((s.modMsg i fun m => { m with st := .lost }).countLost r)
      | none => done (match (s.dropMsg i).complete k status info with
        | .ok s1 => s1
        | .wait s1 | .fail _ s1 => { s1 with msgs := s1.msgs ++ [m] })
    | _ => done s
  | none => done s

/-! ### Clamps (R310, R318, R319) -/

/-- R310: the oldest request that can be granted takes its banks. -/
def execClampGrant (stack : Fin 12) (s : State) : Host.Outcome State Fault Refusal :=
  let n := stack.val
  let y := s.stack n
  match (List.range y.clampq.length).find? (canGrant s n y.clampq) with
  | none => done s
  | some i =>
    match y.clampq[i]? with
    | some (c, banks) => done ((s.setStack n { y with clampq := dropAt i y.clampq }).setCore c ((s.coreOf c).take banks))
    | none => done s

/-- R319. -/
def execClamplong (stack : Fin 12) (core : Fin 16) (s : State) : Host.Outcome State Fault Refusal :=
  let n := coreNum stack core
  let c := s.coreOf n
  done (if c.kern.isSome && !c.clamps.isEmpty && c.ends.isNone then s.onCore n fun s => s.endKernel 7 (kernInfo 9 c.pc) else s)

def Stack.postponedAt (y : Stack) (b : Nat × Nat) : Nat := ((y.postponed.find? fun e => e.1 = b).map (·.2)).getD 0
def Stack.setPostponed (y : Stack) (b : Nat × Nat) (n : Nat) : Stack :=
  let rest := y.postponed.filter fun e => e.1 ≠ b
  { y with postponed := if n = 0 then rest else (b, n) :: rest }

/-- R318: a refresh of a clamped bank is postponed; the ninth issues them all. -/
def execRefreshDue (stack : Fin 12) (ch : Fin 32) (bank : Fin 36) (s : State) : Host.Outcome State Fault Refusal :=
  let n := stack.val
  let b := (ch.val, bank.val)
  let y := s.stack n
  let held := s.cores.any fun e => e.1 / 16 = n && e.2.clamps.contains b
  done (s.setStack n (y.setPostponed b (if held && y.postponedAt b < 8 then y.postponedAt b + 1 else 0)))

/-! ### Posted accesses (R312, R397) -/

/-- The oldest posted access of the core is performed, and with the last one a kernel that has ended is over. R308 leaves open in which order a
kernel's posted writes to different addresses reach DRAM before its completion or a `post`: here they do in program order (DESIGN CHOICE, log 89). -/
def State.performOldest (s : State) : State :=
  let n := s.coreAt / 16
  let s1 := match s.core.posted with
    | [] => s
    | p :: r =>
      if s.clampedByOther n p.loc then s
      else { s.performPosted n p with core := { s.core with posted := r } }
  match s1.core.ends with
  | some (status, info) => if s1.core.posted.isEmpty then s1.finishKernel status info else s1
  | none => s1

/-- R312, R397. -/
def execWeltDramAccessComplete (stack : Fin 12) (core : Fin 16) (s : State) : Host.Outcome State Fault Refusal :=
  done (s.onCore (coreNum stack core) State.performOldest)

/-! ### A failed core (R437) -/

/-- R437: the kernel ends, and the core leaves service unless the spare takes its number. -/
def execWeltCoreFailure (stack : Fin 12) (core : Fin 16) (s : State) : Host.Outcome State Fault Refusal :=
  let n := coreNum stack core
  let c := s.coreOf n
  let s1 := if c.kern.isSome && c.ends.isNone then s.onCore n fun s => s.endKernel 5 (BitVec.allOnes 32) else s
  let y := s1.stack stack.val
  done (s1.setStack stack.val
    (if y.spare then { y with spare := false }
     else { y with service := y.service &&& ~~~ (BitVec.ofNat 16 (2 ^ core.val)) }))

end Sys2Proof.Machine
end

