-- ==== Sys2Proof/Machine/Start.lean ====
section
/-!
DEFINITION. Start-up (R335–R338, R433, R434), loss of power, and what start-up leaves out of service (R429, R435).
-/

namespace Sys2Proof.Machine

/-! ### What power keeps (R335, R337) -/

/-- Host memory under another PKGID: the host's own addresses stay (R88). -/
def rebase (old new : Nat) (m : List Host.Cell) : List Host.Cell :=
  (m.filter fun e => old * 2 ^ Config.pkgShift + Config.hostBase ≤ e.1 && e.1 < (old + 1) * 2 ^ Config.pkgShift).map fun e =>
    (e.1 - old * 2 ^ Config.pkgShift + new * 2 ^ Config.pkgShift, e.2)

/-- Power is gone: what is left is non-volatile memory, fuses and the host's memory. The schedule and the turn are the model's. -/
def State.unpowered (s : State) : State :=
  { State.reset with
    mem := rebase s.pkgid.toNat 0 s.mem
    startNo := s.startNo
    record := s.record
    config := s.config
    configOk := s.configOk
    fuseSpare := s.fuseSpare
    fwA := s.fwA
    fwB := s.fwB
    edDigest := s.edDigest
    mlDigest := s.mlDigest
    minVersion := s.minVersion
    therm := s.therm
    sigs := s.sigs
    msix := s.msix
    stks := s.stks.map fun e => (e.1, { Stack.reset with bavail := e.2.bavail })
    schedule := s.schedule
    turn := s.turn }

/-- All state is lost. -/
def execPowerLoss (s : State) : Host.Outcome State Fault Refusal :=
  done s.unpowered

/-- R335: the host writes the block through the sideband, for the next start. -/
def execConfigBlockWrite (nearsz pkgid : Byte) (s : State) : Host.Outcome State Fault Refusal :=
  done { s with config := BitVec.ofNat 128 (nearsz.toNat + pkgid.toNat * 2 ^ 8), configOk := true }

/-! ### The start record (R337) -/

/-- One entry; its count of tries stops at 255. -/
def recEntry (start code tries mode status : Nat) : BitVec 128 :=
  BitVec.ofNat 128 (start * 2 ^ 96 + code * 2 ^ 80 + min tries 255 * 2 ^ 40 + mode * 2 ^ 32 + status)

def recStatus (e : BitVec 128) : Nat := bits e 7 0
def recMode (e : BitVec 128) : Nat := bits e 39 32
def recTries (e : BitVec 128) : Nat := bits e 47 40

/-- The last run failed, or was interrupted. -/
def recFailed (e : BitVec 128) : Bool := recStatus e = 3 || recStatus e = 1

def State.entry (s : State) (i : Fin 11) (code tries mode status : Nat) : State :=
  { s with record := s.record.set i (recEntry s.startNo.toNat code tries mode status) }

/-! ### Steps (R335) -/

/-- Whether a step has an alternate procedure; and whether it, or units of it, may be skipped. Steps are numbered from 1. A step of units that failed
by its time limit names no unit (R433): it is skipped as MODE 2 and takes nothing out of service (DESIGN CHOICE, log 92). -/
def hasAlternate (step : Nat) : Bool := [2, 3, 4, 5, 6, 7, 10].contains step
def maySkip (step code : Nat) : Bool := [4, 5, 6, 7].contains step || (step = 10 && code / 2 ^ 12 = 12)

/-- Live banks of every channel are enough (R429). -/
def Stack.banksOk (y : Stack) : Bool := (List.range 32).all fun ch => 32 ≤ ((List.range 36).filter fun b => (y.live ch).getLsbD b).length

/-- How a slot is judged: 0 for accepted, else the first of R433's reasons, in their order (R336; log 68). -/
def State.judge (s : State) (fw : Firmware) : Nat :=
  if fw.edSig.length ≠ 64 || !Config.ed25519Verifies fw.edKey fw.image fw.version fw.edSig then 2
  else if fw.mlSig.length ≠ 3309 || !Config.mldsa65Verifies fw.mlKey fw.image fw.version fw.mlSig then 3
  else if Config.sha384 fw.edKey ≠ s.edDigest || Config.sha384 fw.mlKey ≠ s.mlDigest then 4
  else if fw.version < s.minVersion then 5
  else 0

/-! ### Signals of the links (R417) -/

/-- Spare signals of one direction. -/
def spareSignals : Port → Nat
  | .zp | .zm => 32
  | .sole => 64
  | _ => 16

/-- The other end of a link; the sole die's end of a sole link is router 1,024 and up. -/
def otherEnd (t : Nat) (p : Port) : Nat × Port := if p = .sole then ((t + 1024) % 2048, .sole) else (neighbour t p, Port.opposite p)

/-- The links whose failed signals in either direction exceed the spares, as R433 names them: by the lower end and the port. -/
def State.brokenLinks (s : State) : List Nat :=
  ((s.sigs.filter fun e => decide (spareSignals e.1.2 < e.2)).map fun e =>
    let low := if e.1.2 = .xm || e.1.2 = .ym || e.1.2 = .zm || 1024 ≤ e.1.1 then otherEnd e.1.1 e.1.2 else e.1
    (match low.2 with | .xp => 0 | .yp => 1 | .zp => 2 | _ => 3) * 1024 + low.1 % 1024).eraseDups

def times (n : Nat) (l : List Nat) : Nat := (l.filter fun c => c = n).length

/-- The codes with which the k-th run of a step fails. The event names those of the world: a code named k times fails k runs, code 0
for a run that does not end. Slots, banks and links are judged by what they hold (R336, R417, R429). -/
def State.runFails (s : State) (fail : List (Nat × BitVec 16)) (step k : Nat) (alt : Bool) : List Nat :=
  let named := (fail.filter fun e => e.1 = step).map fun e => e.2.toNat
  let world := (named.eraseDups).filter fun c => k ≤ times c named
  if step = 2 then
    let slot := s.judge (if alt then s.fwB else s.fwA)
    (if slot = 0 then [] else [slot * 2 ^ 12 + (if alt then 1 else 0)]) ++ world
  else if step = 5 then ((List.range 12).filter fun n => !(s.stack n).banksOk).map (fun n => 7 * 2 ^ 12 + n) ++ world
  else if step = 6 then (s.brokenLinks.map (8 * 2 ^ 12 + ·)) ++ world
  else world

/-- Position of a tile's column in the x ring: F of R11. -/
def ringColumn (t : Nat) : Nat := if t % 8 < 4 then 2 * (t % 8) else 15 - 2 * (t % 8)

/-- Physical column of a tile: the column SPARE is passed over (R13). -/
def physColumn (spare t : Nat) : Nat := if ringColumn t < spare then ringColumn t else ringColumn t + 1

/-- A column goes to the repair area when none is there yet, for the next start (R435). -/
def State.retireColumn (s : State) (t : Nat) : State :=
  if s.fuseSpare = 8 then { s with fuseSpare := BitVec.ofNat 4 (physColumn s.fuseSpare.toNat t) } else s

def unitPort (n : Nat) : Port := if n = 0 then .xp else if n = 1 then .yp else if n = 2 then .zp else .sole

/-- The lowest SIDE that will do at one end of a link (R421): which one step 6 takes, the manual does not say (DESIGN CHOICE, log 95). -/
def State.lowestSide (s : State) (t : Nat) (p : Port) : Fin 4 := ((List.finRange 4).find? fun n => s.sideOk t p n.val).getD 0

/-- Step 6 patches a link that failed its test. -/
def State.patchFailed (s : State) (t : Nat) (p : Port) : State :=
  let s1 := s.failLink t p
  let (q, r) := farEnd t p
  s1.patchLink t { port := p, side := s1.lowestSide t p, farSide := s1.lowestSide q r }

/-- A unit that failed both runs of its step is left out (R335, R418, R421, R429); a column goes to the repair area for a bond group that cannot be
patched (R435). -/
def State.skipUnit (s : State) (step code : Nat) : State :=
  let n := code % 2 ^ 12
  let why := code / 2 ^ 12
  if step = 5 && why = 7 && n < 12 then s.setStack n { s.stack n with inService := false, service := 0 }
  else if step = 6 && why = 8 then
    let t := n % 1024
    let p := unitPort (n / 1024)
    let s1 := s.patchFailed t p
    if (s1.tile t).patched p || p ≠ .zp then s1 else s1.retireColumn t
  else if step = 7 && why = 9 && n / 17 < 12 then
    let y := s.stack (n / 17)
    s.setStack (n / 17)
      (if n % 17 = 16 then { y with spare := false }
       else if y.spare then { y with spare := false }
       else { y with service := y.service &&& ~~~ (BitVec.ofNat 16 (2 ^ (n % 17))) })
  else if step = 10 && why = 12 && n < 32 then { s with opticalDown := s.opticalDown ||| BitVec.ofNat 32 (2 ^ n) }
  else s

/-- A value of the configuration block, 0 when it is out of range. -/
def inRange (n max : Nat) : Nat := if n ≤ max then n else 0

/-- What a step that is done leaves. -/
def State.stepDone (s : State) (step : Nat) : State :=
  if step = 3 then { s with spareRead := s.fuseSpare, configRead := if s.configOk then s.config else 0 }
  else if step = 8 then
    let pkg := inRange (bits s.configRead 15 8) 7
    { s with
      nearsz := BitVec.ofNat 7 (inRange (bits s.configRead 7 0) 64)
      pkgid := BitVec.ofNat 3 pkg
      spare := s.spareRead
      mem := rebase 0 pkg s.mem }
  else if step = 9 then
    { s with tiles := s.tiles.map fun e => (e.1, { e.2 with cyc := 0, dord := 0, full := [], scopeC := [] }) }
  else if step = 11 then { s with locked := true }
  else s

def logStart (s : State) (step code mode : Nat) : State := s.logEntry 7 0x7FF [word step, word code, word mode]

/-- How a step's runs in this start ended. -/
inductive StepEnd
  | done (s : State)
  | recovery (s : State)
  | hangs (s : State)

/-- The controller stops in recovery: of the cube, only BAR0 answers (R336). -/
def State.stopInRecovery (s : State) : State := { s with phase := .recovery }

/-- A step whose alternate procedure too has failed is skipped, or the controller stops (R338). -/
def State.skipStep (s : State) (i : Fin 11) (tries : Nat) (fails : List Nat) : StepEnd :=
  let step := i.val + 1
  let code := fails.headD 0
  if fails.all (maySkip step) then
    -- a failed spare core takes no other core's place
    let spareFirst := fails.filter (fun c => step = 7 && c % 2 ^ 12 % 17 = 16) ++ fails.filter fun c => !(step = 7 && c % 2 ^ 12 % 17 = 16)
    let s1 := spareFirst.foldl (fun s c => s.skipUnit step c) (s.entry i code tries 2 2)
    .done (fails.foldl (fun s c => logStart s step c 2) (s1.stepDone step))
  else .recovery (s.entry i code tries 1 3)

/-- The alternate procedure of a step, or what follows when it fails too (R338). `first` is the CODE of the normal run. -/
def State.alternate (s : State) (i : Fin 11) (tries first : Nat) (fails : List Nat) : StepEnd :=
  let step := i.val + 1
  if fails.contains 0 then .hangs (s.entry i first tries 1 1)
  else match fails with
    | [] => .done (logStart ((s.entry i first 0 1 2).stepDone step) step first 1)
    | _ => s.skipStep i (tries + 1) fails

/-- One step: its normal procedure, or its alternate when the last run failed with MODE 0; then the alternate when that failed. A step that
the last start left in progress failed then (R337); when that was its alternate procedure, it is skipped or the controller stops (R338). -/
def State.runStep (s : State) (fail : List (Nat × BitVec 16)) (i : Fin 11) : StepEnd :=
  let step := i.val + 1
  let e := s.record[i]
  let tries := if recStatus e = 1 then recTries e + 1 else recTries e
  if recStatus e = 1 && recMode e = 1 then s.skipStep i tries [bits e 95 80]
  else if recFailed e && recMode e = 0 && hasAlternate step then s.alternate i tries (bits e 95 80) (s.runFails fail step 1 true)
  else
    let fails := s.runFails fail step 1 false
    if fails.contains 0 then .hangs (s.entry i 0 tries 0 1)
    else match fails with
      | [] => .done ((s.entry i 0 0 0 2).stepDone step)
      | code :: _ =>
        if hasAlternate step then (s.entry i code (tries + 1) 0 3).alternate i tries code (s.runFails fail step 2 true)
        else .recovery (s.entry i code (tries + 1) 0 3)

/-- The steps from one on; after the last the cube runs. -/
def State.steps (s : State) (fail : List (Nat × BitVec 16)) : List (Fin 11) → State
  | [] => { s with phase := .running }
  | i :: r =>
    match s.runStep fail i with
    | .done s1 => s1.steps fail r
    | .recovery s1 => s1.stopInRecovery
    | .hangs s1 => { s1 with phase := .starting i }

/-- A start from the first step. -/
def State.start (s : State) (fail : List (Nat × BitVec 16)) : State :=
  let s1 := s.unpowered
  ({ s1 with startNo := s1.startNo + 1 } : State).steps fail (List.finRange 11)

/-- R335: power is applied. -/
def execPowerOn (fail : List (Nat × BitVec 16)) (s : State) : Host.Outcome State Fault Refusal :=
  done (if s.phase = .off then s.start fail else s)

/-- R434: the step in progress fails with reason 10, and the start goes on as after any failure. -/
def execStartStepTimeout (step : Fin 11) (s : State) : Host.Outcome State Fault Refusal :=
  done (
    if s.phase ≠ .starting step then s
    else
      let n := step.val + 1
      let e := s.record[step]
      let code := 10 * 2 ^ 12
      let tries := recTries e
      let rest := (List.finRange 11).drop n
      let go (o : StepEnd) : State := match o with
        | .done s1 => s1.steps [] rest
        | .recovery s1 => s1.stopInRecovery
        | .hangs s1 => s1
      if recMode e = 0 && hasAlternate n then go ((s.entry step code (tries + 1) 0 3).alternate step tries code (s.runFails [] n 2 true))
      else if recMode e = 0 then go (.recovery (s.entry step code (tries + 1) 0 3))
      else go (s.alternate step tries code [code]))

/-- R336: the host has written a new slot A, and the cube starts again; its step 2 judges the slot. -/
def execRecoverySlotWrite (fw : Firmware) (s : State) : Host.Outcome State Fault Refusal :=
  done (if s.phase = .recovery then ({ s with fwA := fw } : State).start [] else s)

end Sys2Proof.Machine
end

