-- ==== Sys2Proof/Machine/Thermal.lean ====
section
/-!
DEFINITION. Heat and power (R430–R432), bank retirement (R427, R428) and tiles taken out of service (R435, R436).
-/

namespace Sys2Proof.Machine

/-! ### Clocks (R208, R431) -/

/-- A layer's clock under its request and its limits, within 800–2,200 MHz. -/
def Layer.setClock (y : Layer) : Layer :=
  let c := y.req.toNat - y.lowered
  let c := if y.lim95 then min c 1600 else c
  let c := if y.lim105 then min c 800 else c
  { y with clk := BitVec.ofNat 16 (max 800 c) }

/-- THERM entry: the layer or stack, its temperature, and what changed. -/
def State.logTherm (s : State) (l : List Nat) : State := s.logEntry 9 0x7FF (l.map word)

/-- The most that a layer's allowance can be: 420 W in steps of 250 mW (R20, R208). -/
def allowMax : Nat := 1680

/-- R208, R431: the fourth refresh in a row with ALLOW = 0 lowers the clock, the sixteenth with 42 W to spare raises it. -/
def execTallowRefresh (layer : Fin 16) (allow0 : BitVec 16) (temp : Byte) (s : State) : Host.Outcome State Fault Refusal :=
  let allow := BitVec.ofNat 16 (min allow0.toNat allowMax)
  let y : Layer := { s.layer layer.val with allow := allow, temp := temp }
  let zeros := if allow = 0 then y.zeros + 1 else 0
  let highs := if 168 ≤ allow.toNat then y.highs + 1 else 0
  if zeros = 4 then
    let lowered := if y.req.toNat < y.lowered + 900 then y.lowered else y.lowered + 100
    let s1 := s.setLayer layer.val { y with zeros := 0, highs := 0, lowered := lowered }.setClock
    done (if y.lowered = 0 && lowered ≠ 0 then s1.logTherm [layer.val, temp.toNat, 1] else s1)
  else if highs = 16 then done (s.setLayer layer.val { y with zeros := 0, highs := 0, lowered := y.lowered - 100 }.setClock)
  else done (s.setLayer layer.val { y with zeros := zeros, highs := highs }.setClock)

/-- The trip: the controller writes a THERM entry to its own memory, with the sensor (16 the sole die) and its temperature, and removes power (R431). -/
def State.trip (s : State) (sensor temp : Nat) : State := ({ s with therm := s.therm ++ [(sensor, temp)] } : State).unpowered

/-- The limits that a layer's TEMP sets and clears (R431). -/
def State.limitLayer (s : State) (n : Nat) : State :=
  let y := s.layer n
  let t := y.temp.toNat
  let on95 := if 95 ≤ t then true else if t < 90 then false else y.lim95
  let on105 := if 105 ≤ t then true else if t < 100 then false else y.lim105
  let s1 := s.setLayer n { y with lim95 := on95, lim105 := on105 }.setClock
  let s2 := if on95 && !y.lim95 then s1.logTherm [n, t, 2] else s1
  if on105 && !y.lim105 then s2.logTherm [n, t, 3] else s2

/-- R431: power is removed from 115 °C, a layer's clock is limited below that, and an inlet above 40 °C is logged. -/
def execThermalThreshold (r : Sensor) (s : State) : Host.Outcome State Fault Refusal :=
  done (match r with
    | .layer z => if 115 ≤ (s.layer z.val).temp.toNat then s.trip z.val (s.layer z.val).temp.toNat else s.limitLayer z.val
    | .sole temp => if 115 ≤ temp.toNat then s.trip 16 temp.toNat else s
    | .inlet temp => if 40 < temp.toNat then s.logTherm [17, temp.toNat, 6] else s)

/-- R431: the host's requested point; one outside 800–2,200 MHz is ignored. -/
def execRequestedPointChange (layer : Fin 16) (mhz : BitVec 16) (s : State) : Host.Outcome State Fault Refusal :=
  done (if 800 ≤ mhz.toNat && mhz.toNat ≤ 2200 then s.setLayer layer.val { s.layer layer.val with req := mhz }.setClock else s)

/-- R430: refresh is twice as fast from above 85 °C until below 80 °C. -/
def execRefreshRateChange (stack : Fin 12) (temp : Byte) (s : State) : Host.Outcome State Fault Refusal :=
  let n := stack.val
  let y := s.stack n
  let t := temp.toNat
  done (
    if !y.fast && 85 < t then (s.setStack n { y with fast := true }).logTherm [n, t, 4]
    else if y.fast && t < 80 then (s.setStack n { y with fast := false }).logTherm [n, t, 5]
    else s)

/-! ### Bank retirement (R427, R428) -/

def liveCount (x : BitVec 36) : Nat := ((List.range 36).filter fun b => x.getLsbD b).length

/-- The slot that a live bank serves: the live banks below it (R113). -/
def slotOf (live : BitVec 36) (b : Nat) : Nat := ((List.range b).filter fun i => live.getLsbD i).length

/-- The bank that serves, under the new LIVE, the slot that a bank served. -/
def newBank (live live' : BitVec 36) (b : Nat) : Nat := nthSet live' 36 0 (slotOf live b)

/-- Uncorrectable granules of the slots that move are copied as they are, and logged. -/
def State.logMoved (s : State) (stack ch slot : Nat) : State :=
  let moved (w : Nat) : Bool := match s.place (w * 8) with
    | some (st, loc) => st = stack && loc / 4096 % 32 = ch && slot ≤ loc / 4096 / 32 % 32
    | none => false
  (((s.bad.filter moved).map (· / 8)).eraseDups).foldl (fun s g => s.logUncorr (0x400 + stack) (g * 64) 5 (lineMask (g * 64 % 128) 64)) s

/-- Whether the controller retires a bank: 4,096 corrected errors, or uncorrectable data in two of its granules (R427). -/
def State.wornBank (s : State) (stack ch bank : Nat) : Bool :=
  let y := s.stack stack
  let here (g : Nat) : Bool := match s.place (g * 64) with
    | some (st, loc) => st = stack && loc / 4096 % 32 = ch && loc / 4096 / 32 % 32 = slotOf (y.live ch) bank
    | none => false
  4096 ≤ ((y.corr.find? fun e => e.1 = (ch, bank)).map (·.2)).getD 0 || 2 ≤ ((((s.bad.map (· / 8)).eraseDups).filter here)).length

/-- R427, R428: the slots from the retired bank's on move up; none of their banks may be clamped. Clamp requests that wait name the
banks where the data then lies. -/
def execBankRetirement (stack : Fin 12) (ch : Fin 32) (bank : Fin 36) (s : State) : Host.Outcome State Fault Refusal :=
  let n := stack.val
  let y := s.stack n
  let live := y.live ch.val
  let live' := live &&& ~~~ (BitVec.ofNat 36 (2 ^ bank.val))
  let j := slotOf live bank.val
  let touched (b : Nat × Nat) : Bool := b.1 = ch.val && j ≤ slotOf live b.2
  if !s.wornBank n ch.val bank.val || !live.getLsbD bank.val || liveCount live ≤ 32 then done s
  else if s.cores.any fun e => e.1 / 16 = n && e.2.clamps.any touched then done s
  else
    let move (b : Nat × Nat) : Nat × Nat := if touched b then (b.1, newBank live live' b.2) else b
    let y' := { y with bavail := put ch.val live' y.bavail, clampq := y.clampq.map fun e => (e.1, e.2.map move) }
    let count := ((y.corr.find? fun e => e.1 = (ch.val, bank.val)).map (·.2)).getD 0
    done (((s.logMoved n ch.val j).setStack n y').logEntry 4 (0x400 + n) [word 5, word (ch.val * 64 + bank.val), word count])

/-! ### A tile out of service (R436) -/

/-- Fault records on their way to a cobbler tile that leaves service, and those in its queue, go to the next layer's (R436). -/
def State.moveRecords (s : State) (tile : Nat) : State :=
  if !isCobbler tile then s else
  let dst := s.cobbler tile
  let queue := (s.tile tile).cobq
  let s1 : State := { s with msgs := s.msgs.map fun m => match m.body with
    | .record _ => if m.dst = tile && m.pending then { m with dst := dst } else m
    | _ => m }
  queue.foldl (fun s w => s.send .sync tile dst (.record w)) (s1.modTile tile fun t => { t with cobq := [] })

/-- A strand of the tile ends as by a KILL, now or when what its end waits for has happened. -/
def State.endOut (s : State) (t : Strand) : State :=
  let (s1, gone) := s.endKilled t
  if gone then s1 else s1.modStrand t.key fun t => { t with killed := true, state := 2, slot := none, wait := none }

/-- R436: the tile's strands end as by KILL and its records are handed over; R435: its column goes to the repair area. -/
def State.takeOut (s : State) (n : Nat) : State :=
  if (s.tile n).out then s
  else
    let s1 := s.modTile n fun t => { t with out := true, mat := [], copies := [], prefetches := [] }
    let s2 := ((s1.strands.filter fun t => t.tile.toNat = n).foldl (fun s t => s.endOut t) s1).evalBarriers
    ((s2.evacuate n).moveRecords n |>.retireColumn n).logNet 0x7FF [8, n]

/-- R436: the tile's logic reports an error that no store of R375 holds. -/
def execTileOutOfService (tile : BitVec 10) (s : State) : Host.Outcome State Fault Refusal :=
  done (s.takeOut tile.toNat)

end Sys2Proof.Machine
end

