-- ==== Sys2Proof/Machine/Vector.lean ====
section
/-!
DEFINITION. Vector instructions (R249–R271).
-/

namespace Sys2Proof.Machine

/-! ### Shared forms -/

/-- A tag check (R250): field 0 d, 1 a, 2 b. -/
def checkTag (field : Nat) (ok : Bool) (t : Tag) : M Unit := trapIf (!ok) (tagCond field 0 0 t)

/-- Elementwise, one result tag T = Tag(va), no rounding (R257). `binary` says whether vb's tag is checked. -/
def vecPure (cls : Tag → Bool) (binary : Bool) (d a b : VReg) (m : MReg) (f : Tag → Nat → Nat → Nat) : M Unit := do
  let s ← get
  let t := s.tag a
  checkTag 1 (cls t) t
  checkTag 2 (!binary || s.tag b == t) (s.tag b)
  checkTag 0 (m.val == 0 || s.tag d == t) (s.tag d)
  let w := Tag.width t
  set (s.setV d (eachLanePure t (s.m m) (s.v d) fun i => f t (laneAt (s.v a) w i) (laneAt (s.v b) w i)) t)

/-- Elementwise with one rounding a lane; integer tags take `g` and no SR step (R253, R257). -/
def vecRound (d a b : VReg) (m : MReg) (rm : Rnd) (f : Val → Val → Val) (g : Int → Int → Int) : M Unit := do
  let s ← get
  let t := s.tag a
  checkTag 1 (Tag.isNum t) t
  checkTag 2 (s.tag b == t) (s.tag b)
  checkTag 0 (m.val == 0 || s.tag d == t) (s.tag d)
  let w := Tag.width t
  let x (i : Nat) := laneAt (s.v a) w i
  let y (i : Nat) := laneAt (s.v b) w i
  if Tag.isInt t then
    set (s.setV d (eachLanePure t (s.m m) (s.v d) fun i => wrapInt w (g (intLane t (x i)) (intLane t (y i)))) t)
  else
    let (r, l) := eachLane t (s.m m) (s.v d) (fun l i => rounded t 0 false rm l (f (elemVal t 0 (x i)) (elemVal t 0 (y i)))) s.src.lfsr
    set ((s.setV d r t).setLfsr rm l)

/-- Major 0x19: floating tags; `fused` reads vd as a source (R258). -/
def vecFloat (fused binary : Bool) (d a b : VReg) (m : MReg) (rm : Rnd) (f : Val → Val → Val → Val) : M Unit := do
  let s ← get
  let t := s.tag a
  checkTag 1 (Tag.isFloat t) t
  checkTag 2 (!binary || s.tag b == t) (s.tag b)
  checkTag 0 ((!fused && m.val == 0) || s.tag d == t) (s.tag d)
  let w := Tag.width t
  let v (r : VReg) (i : Nat) : Val := elemVal t 0 (laneAt (s.v r) w i)
  let (r, l) := eachLane t (s.m m) (s.v d) (fun l i => rounded t 0 false rm l (f (v a i) (v b i) (v d i))) s.src.lfsr
  set ((s.setV d r t).setLfsr rm l)

/-- Compares into a mask register (R259). -/
def vecCompare (d : MReg) (a b : VReg) (m : MReg) (f : Tag → Nat → Nat → Bool) : M Unit := do
  let s ← get
  let t := s.tag a
  checkTag 1 (Tag.isNum t) t
  checkTag 2 (s.tag b == t) (s.tag b)
  let w := Tag.width t
  let n := Tag.lanes t
  set (s.setM d (BitVec.ofNat 128 (packN 1 ((List.range n).map fun i =>
    (laneOn (s.m m) n i && f t (laneAt (s.v a) w i) (laneAt (s.v b) w i)).toNat))))

/-- An integer tag's operation on lanes. -/
def intOp (f : Nat → Int → Int → Int) (t : Tag) (x y : Nat) : Nat := wrapInt (Tag.width t) (f (Tag.width t) (intLane t x) (intLane t y))

/-- An operation of a numeric tag: on integers, or on floating codes. -/
def numOp (f : Nat → Int → Int → Int) (g : Fmt → Nat → Nat → Nat) (t : Tag) (x y : Nat) : Nat :=
  match Tag.fmt? t with
  | some fm => g fm x y
  | none => intOp f t x y

/-- A comparison of a numeric tag. -/
def numCmp (f : Int → Int → Bool) (g : Val → Val → Bool) (t : Tag) (x y : Nat) : Bool :=
  if Tag.isFloat t then g (elemVal t 0 x) (elemVal t 0 y) else f (intLane t x) (intLane t y)

/-- `Sat` for an integer tag. -/
def tagSat (t : Tag) (x : Int) : Nat :=
  match Tag.int? t with
  | some (sg, w) => wrapInt w (satInt sg w x)
  | none => 0

/-! ### Elementwise arithmetic, logic and shifts (R257) -/

/-- R257. -/
def execVadd (d a b : VReg) (m : MReg) (rm : Rnd) (s : State) : Host.Outcome State Fault Refusal :=
  run (vecRound d a b m rm (Val.add rm) (fun x y => x + y)) s

/-- R257. -/
def execVsub (d a b : VReg) (m : MReg) (rm : Rnd) (s : State) : Host.Outcome State Fault Refusal :=
  run (vecRound d a b m rm (Val.sub rm) (fun x y => x - y)) s

/-- R257. -/
def execVmul (d a b : VReg) (m : MReg) (rm : Rnd) (s : State) : Host.Outcome State Fault Refusal :=
  run (vecRound d a b m rm (Val.mul) (fun x y => x * y)) s

/-- R257, R72. -/
def execVmin (d a b : VReg) (m : MReg) (s : State) : Host.Outcome State Fault Refusal :=
  run (vecPure Tag.isNum true d a b m (numOp (fun _ x y => if y < x then y else x) Fmt.minCode)) s

/-- R257, R72. -/
def execVmax (d a b : VReg) (m : MReg) (s : State) : Host.Outcome State Fault Refusal :=
  run (vecPure Tag.isNum true d a b m (numOp (fun _ x y => if x < y then y else x) Fmt.maxCode')) s

/-- R257. -/
def execVabs (d a : VReg) (m : MReg) (s : State) : Host.Outcome State Fault Refusal :=
  run (vecPure Tag.isNum false d a a m (numOp (fun _ x _ => if x < 0 then -x else x) (fun f x _ => f.absCode x))) s

/-- R257. -/
def execVneg (d a : VReg) (m : MReg) (s : State) : Host.Outcome State Fault Refusal :=
  run (vecPure Tag.isNum false d a a m (numOp (fun _ x _ => -x) (fun f x _ => f.negCode x))) s

/-- R257. -/
def execVaddsat (d a b : VReg) (m : MReg) (s : State) : Host.Outcome State Fault Refusal :=
  run (vecPure Tag.isInt true d a b m (fun t x y => tagSat t (intLane t x + intLane t y))) s

/-- R257. -/
def execVsubsat (d a b : VReg) (m : MReg) (s : State) : Host.Outcome State Fault Refusal :=
  run (vecPure Tag.isInt true d a b m (fun t x y => tagSat t (intLane t x - intLane t y))) s

/-- R257. -/
def execVmulh (d a b : VReg) (m : MReg) (s : State) : Host.Outcome State Fault Refusal :=
  run (vecPure Tag.isInt true d a b m (intOp fun w x y => x * y / (2 ^ w : Nat))) s

/-- R257: any tag; vb's tag is not checked. A lane is written as R66 and R71 have it written, so bits 7:6 of e3m2 and e2m3 and the reserved
ternary code come out 0 (DEDUCED, log 72). -/
def execVand (d a b : VReg) (m : MReg) (s : State) : Host.Outcome State Fault Refusal :=
  run (vecPure (fun _ => true) false d a b m fun t x y => cleanLane t (x &&& y)) s

/-- R257: any tag; vb's tag is not checked. A lane is written as R66 and R71 have it written, so bits 7:6 of e3m2 and e2m3 and the reserved
ternary code come out 0 (DEDUCED, log 72). -/
def execVor (d a b : VReg) (m : MReg) (s : State) : Host.Outcome State Fault Refusal :=
  run (vecPure (fun _ => true) false d a b m fun t x y => cleanLane t (x ||| y)) s

/-- R257: any tag; vb's tag is not checked. A lane is written as R66 and R71 have it written, so bits 7:6 of e3m2 and e2m3 and the reserved
ternary code come out 0 (DEDUCED, log 72). -/
def execVxor (d a b : VReg) (m : MReg) (s : State) : Host.Outcome State Fault Refusal :=
  run (vecPure (fun _ => true) false d a b m fun t x y => cleanLane t (x ^^^ y)) s

/-- R257. -/
def execVsll (d a b : VReg) (m : MReg) (s : State) : Host.Outcome State Fault Refusal :=
  run (vecPure Tag.isInt true d a b m (fun t x y => x * 2 ^ (y % Tag.width t))) s

/-- R257. -/
def execVsrl (d a b : VReg) (m : MReg) (s : State) : Host.Outcome State Fault Refusal :=
  run (vecPure Tag.isInt true d a b m (fun t x y => x / 2 ^ (y % Tag.width t))) s

/-- R257. -/
def execVsra (d a b : VReg) (m : MReg) (s : State) : Host.Outcome State Fault Refusal :=
  run (vecPure Tag.isInt true d a b m (fun t x y => wrapInt (Tag.width t) (intLane t x / (2 ^ (y % Tag.width t) : Nat)))) s

/-! ### Fused multiply-add, division, square root (R258) -/

/-- R258. -/
def execVfma (d a b : VReg) (m : MReg) (rm : Rnd) (s : State) : Host.Outcome State Fault Refusal :=
  run (vecFloat true true d a b m rm fun x y z => (x.mul y).add rm z) s

/-- R258. -/
def execVfms (d a b : VReg) (m : MReg) (rm : Rnd) (s : State) : Host.Outcome State Fault Refusal :=
  run (vecFloat true true d a b m rm fun x y z => (x.mul y).sub rm z) s

/-- R258. -/
def execVfnma (d a b : VReg) (m : MReg) (rm : Rnd) (s : State) : Host.Outcome State Fault Refusal :=
  run (vecFloat true true d a b m rm fun x y z => z.sub rm (x.mul y)) s

/-- R258. -/
def execVdiv (d a b : VReg) (m : MReg) (rm : Rnd) (s : State) : Host.Outcome State Fault Refusal :=
  run (vecFloat false true d a b m rm fun x y _ => x.div y) s

/-- R258. -/
def execVsqrt (d a : VReg) (m : MReg) (rm : Rnd) (s : State) : Host.Outcome State Fault Refusal :=
  run (vecFloat false false d a a m rm fun x _ _ => x.sqrt) s

/-! ### Compares and mask logic (R259, R260) -/

/-- R259. -/
def execVceq (d : MReg) (a b : VReg) (m : MReg) (s : State) : Host.Outcome State Fault Refusal :=
  run (vecCompare d a b m (numCmp (fun x y => x == y) (Val.eq))) s

/-- R259. -/
def execVcne (d : MReg) (a b : VReg) (m : MReg) (s : State) : Host.Outcome State Fault Refusal :=
  run (vecCompare d a b m (numCmp (fun x y => x != y) (fun x y => !x.eq y))) s

/-- R259. -/
def execVclt (d : MReg) (a b : VReg) (m : MReg) (s : State) : Host.Outcome State Fault Refusal :=
  run (vecCompare d a b m (numCmp (fun x y => decide (x < y)) (Val.lt))) s

/-- R259. -/
def execVcle (d : MReg) (a b : VReg) (m : MReg) (s : State) : Host.Outcome State Fault Refusal :=
  run (vecCompare d a b m (numCmp (fun x y => decide (x ≤ y)) (Val.le))) s

/-- R259. -/
def execVcun (d : MReg) (a b : VReg) (m : MReg) (s : State) : Host.Outcome State Fault Refusal :=
  run (vecCompare d a b m (numCmp (fun _ _ => false) (fun x y => x.isNan || y.isNan))) s

/-- R260. -/
def execMand (d a b : MReg) (s : State) : Host.Outcome State Fault Refusal :=
  done (s.setM d (s.m a &&& s.m b))

/-- R260. -/
def execMor (d a b : MReg) (s : State) : Host.Outcome State Fault Refusal :=
  done (s.setM d (s.m a ||| s.m b))

/-- R260. -/
def execMxor (d a b : MReg) (s : State) : Host.Outcome State Fault Refusal :=
  done (s.setM d (s.m a ^^^ s.m b))

/-- R260. -/
def execMandn (d a b : MReg) (s : State) : Host.Outcome State Fault Refusal :=
  done (s.setM d (s.m a &&& ~~~ (s.m b)))

/-- R260. -/
def execMnot (d a : MReg) (s : State) : Host.Outcome State Fault Refusal :=
  done (s.setM d (~~~ (s.m a)))

/-! ### Select, move and zero (R261) -/

/-- R261. -/
def execVsel (d a b : VReg) (m : MReg) (s : State) : Host.Outcome State Fault Refusal :=
  run (do
    let s ← get
    let t := s.tag a
    checkTag 2 (s.tag b == t) (s.tag b)
    let w := Tag.width t
    set (s.setV d (mkLanes w fun i => cleanLane t (if laneOn (s.m m) (Tag.lanes t) i then laneAt (s.v a) w i else laneAt (s.v b) w i)) t)) s

/-- R261. -/
def execVmov (d a : VReg) (m : MReg) (s : State) : Host.Outcome State Fault Refusal :=
  run (vecPure (fun _ => true) false d a a m fun t x _ => cleanLane t x) s

/-- R261. -/
def execVzero (d : VReg) (m : MReg) (s : State) : Host.Outcome State Fault Refusal :=
  run (do
    let s ← get
    checkTag 0 (m.val == 0 || s.tag d == .raw) (s.tag d)
    set (s.setV d (eachLanePure .raw (s.m m) (s.v d) fun _ => 0) .raw)) s

/-! ### Conversion and tags (R262, R263) -/

/-- TAGCHK of `vcvt`'s a field with its reason (R250). -/
def cvtTrap (why : Nat) (b : Bool) (t : Tag) : M Unit := trapIf b (tagCond 1 why 0 t)

/-- R262. -/
def vecConvert (d a : VReg) (tag : Tag) (m : MReg) (rm : Rnd) (part : Nat) (sat : Bool) : M Unit := do
  let s ← get
  let st := s.tag a
  let ns := Tag.lanes st
  let nd := Tag.lanes tag
  let r := max ns nd / min ns nd
  let c := min ns nd
  cvtTrap 0 (st == .raw) st
  cvtTrap 1 (!(r == 1 || r == 2 || r == 4)) st
  cvtTrap 2 (r ≤ part) st
  checkTag 0 (m.val == 0 || s.tag d == tag) (s.tag d)
  let dbase := if ns ≤ nd then part * ns else 0
  let sbase := if ns ≤ nd then 0 else part * nd
  let on (di : Nat) : Bool := decide (dbase ≤ di) && decide (di < dbase + c) && laneOn (s.m m) c (di - dbase)
  let f (l : BitVec 32) (di : Nat) := rounded tag s.src.ctab sat rm l (elemVal st s.src.ctab (laneAt (s.v a) (Tag.width st) (sbase + (di - dbase))))
  let (lanes, l) := laneLoop on (laneAt (s.v d) (Tag.width tag)) f nd 0 s.src.lfsr
  set ((s.setV d (ofLanes (Tag.width tag) lanes) tag).setLfsr rm l)

/-- R262. -/
def execVcvt (d a : VReg) (tag : Tag) (m : MReg) (rm : Rnd) (part : BitVec 2) (s : State) : Host.Outcome State Fault Refusal :=
  run (vecConvert d a tag m rm part.toNat false) s

/-- R262, saturating form. -/
def execVcvtSat (d a : VReg) (tag : Tag) (m : MReg) (rm : Rnd) (part : BitVec 2) (s : State) : Host.Outcome State Fault Refusal :=
  run (vecConvert d a tag m rm part.toNat true) s

/-- R263. -/
def execVsettag (d a : VReg) (tag : Tag) (s : State) : Host.Outcome State Fault Refusal :=
  done (s.setV d (s.v a) tag)

/-- R263. -/
def execVchk (a : VReg) (tag : Tag) (s : State) : Host.Outcome State Fault Refusal :=
  run (do
    let s ← get
    checkTag 1 (s.tag a == tag) (s.tag a)) s

/-! ### Block quantise, dequantise and code-table lookup (R264–R266) -/

/-- The 96 f32 values of three registers. -/
def f32x96 (s : State) (a : VReg) : List Val :=
  (List.range 96).map fun j => fmtF32.val (laneAt (s.v (a + BitVec.toFin (BitVec.ofNat 4 (j / 32)))) 32 (j % 32))

/-- Blocks of 24 quantised in ascending order: their scales, their codes and the LFSR after them. -/
def quantBlocks (f : Fmt) (rm : Rnd) : Nat → List Val → BitVec 32 → List Nat × List Nat × BitVec 32
  | 0, _, l => ([], [], l)
  | n + 1, vals, l =>
    let (x, codes, l1) := quantBlock f rm l (vals.take 24)
    let (xs, cs, l2) := quantBlocks f rm n (vals.drop 24) l1
    (x :: xs, codes ++ cs, l2)

/-- R264. -/
def execVbq (d a : VReg) (tag : Tag) (rm : Rnd) (s : State) : Host.Outcome State Fault Refusal :=
  run (do
    let s ← get
    trapIf (s.tag a != .f32) (tagCond 1 0 0 (s.tag a))
    trapIf (s.tag (a + 1) != .f32) (tagCond 1 0 1 (s.tag (a + 1)))
    trapIf (s.tag (a + 2) != .f32) (tagCond 1 0 2 (s.tag (a + 2)))
    let f := (Tag.fmt? tag).getD fmtE4m3
    let (xs, codes, l) := quantBlocks f rm 4 (f32x96 s a) s.src.lfsr
    set ((s.setV d (ofLanes 8 (codes ++ xs)) tag).setLfsr rm l)) s

/-- R265. -/
def execVbdq (d a : VReg) (tag : Tag) (rm : Rnd) (s : State) : Host.Outcome State Fault Refusal :=
  run (do
    let s ← get
    checkTag 1 (s.tag a == tag) (s.tag a)
    let f := (Tag.fmt? tag).getD fmtE4m3
    let val (j : Nat) : Val := blockVal (laneAt (s.v a) 8 (96 + j / 24)) (f.val (laneAt (s.v a) 8 j % 2 ^ f.w))
    let (codes, l) := roundAll fmtF32 false rm s.src.lfsr ((List.range 96).map val)
    let part (n : Nat) : Line := ofLanes 32 ((codes.drop (32 * n)).take 32)
    set ((((s.setV d (part 0) .f32).setV (d + 1) (part 1) .f32).setV (d + 2) (part 2) .f32).setLfsr rm l)) s

/-- R266. -/
def execVctab (d a : VReg) (tag : Tag) (m : MReg) (s : State) : Host.Outcome State Fault Refusal :=
  run (do
    let s ← get
    let t := s.tag a
    checkTag 1 (t == .n8 || t == .c4) t
    checkTag 0 (m.val == 0 || s.tag d == tag) (s.tag d)
    let f (i : Nat) : Nat := toElem tag 0 false .rne 0 (.ofInt (ctabAt s.src.ctab (laneAt (s.v a) (Tag.width t) i)))
    set (s.setV d (eachLanePure tag (s.m m) (s.v d) f) tag)) s

/-! ### Permutes (R267) -/

/-- R267. -/
def execVperm (d a b : VReg) (s : State) : Host.Outcome State Fault Refusal :=
  run (do
    let s ← get
    checkTag 2 (s.tag b == .n8) (s.tag b)
    let f (i : Nat) : Nat :=
      let j := laneAt (s.v b) 8 i
      if 128 ≤ j then 0 else laneAt (s.v a) 8 j
    set (s.setV d (mkLanes 8 f) (s.tag a))) s

/-- The lane moves of R267 that require Tag(vb) = Tag(va): lane i of vd from (register, lane). -/
def vecMove (d a b : VReg) (pick : Nat → Nat → Bool × Nat) : M Unit := do
  let s ← get
  let t := s.tag a
  checkTag 2 (s.tag b == t) (s.tag b)
  let w := Tag.width t
  let f (i : Nat) : Nat :=
    let (fromB, j) := pick (Tag.lanes t) i
    cleanLane t (laneAt (s.v (if fromB then b else a)) w j)
  set (s.setV d (mkLanes w f) t)

/-- R267. -/
def execVzipl (d a b : VReg) (s : State) : Host.Outcome State Fault Refusal :=
  run (vecMove d a b fun _ i => (i % 2 == 1, i / 2)) s

/-- R267. -/
def execVziph (d a b : VReg) (s : State) : Host.Outcome State Fault Refusal :=
  run (vecMove d a b fun n i => (i % 2 == 1, n / 2 + i / 2)) s

/-- R267. -/
def execVunzip (d a b : VReg) (s : State) : Host.Outcome State Fault Refusal :=
  run (vecMove d a b fun n i => if i < n / 2 then (false, 2 * i) else (true, 2 * (i - n / 2))) s

/-- R267. -/
def execVrotl (d a : VReg) (b : GReg) (s : State) : Host.Outcome State Fault Refusal :=
  run (do
    let sh := (← get).g b
    vecMove d a a fun n i => (false, (i + sh.toNat % n) % n)) s

/-! ### Lanes and scalars (R268) -/

/-- R268. -/
def execVbcast (d : VReg) (a : GReg) (tag : Tag) (m : MReg) (s : State) : Host.Outcome State Fault Refusal :=
  run (do
    let s ← get
    checkTag 0 (m.val == 0 || s.tag d == tag) (s.tag d)
    set (s.setV d (eachLanePure tag (s.m m) (s.v d) fun _ => cleanLane tag (s.g a).toNat) tag)) s

/-- A lane as `vextr` writes it: sign-extended for signed and ternary tags, else zero-extended (R268). -/
def extracted (t : Tag) (x : Nat) : Word :=
  match t with
  | .i4 | .i8 | .i16 | .i32 | .i64 => sext (Tag.width t) x
  | .tern => intWord (ternVal x)
  | .e3m2 | .e2m3 => word (x % 64)
  | _ => word x

/-- R268. -/
def execVextr (d : GReg) (a : VReg) (b : GReg) (s : State) : Host.Outcome State Fault Refusal :=
  let t := s.tag a
  done (s.setG d (extracted t (laneAt (s.v a) (Tag.width t) ((s.g b).toNat % Tag.lanes t))))

/-- R268. -/
def execVins (d : VReg) (a b : GReg) (s : State) : Host.Outcome State Fault Refusal :=
  let t := s.tag d
  let w := Tag.width t
  let k := (s.g b).toNat % Tag.lanes t
  done (s.setV d (mkLanes w fun i => if i = k then cleanLane t (s.g a).toNat else laneAt (s.v d) w i) t)

/-! ### Reductions (R85, R269) -/

/-- One level of the tree: neighbours combined in ascending order. -/
def treeLevel {α : Type} (f : BitVec 32 → α → α → α × BitVec 32) : List α → BitVec 32 → List α × BitVec 32
  | x :: y :: r, l =>
    let (z, l1) := f l x y
    let (zs, l2) := treeLevel f r l1
    (z :: zs, l2)
  | xs, l => (xs, l)

/-- All levels. -/
def tree {α : Type} (f : BitVec 32 → α → α → α × BitVec 32) : Nat → List α → BitVec 32 → List α × BitVec 32
  | 0, xs, l => (xs, l)
  | n + 1, xs, l =>
    let (ys, l1) := treeLevel f xs l
    tree f n ys l1

/-- A reduction: floating tags over codes with `fid` the identity's code, integer tags over values with `iid` (R269). -/
def vecReduce (d : GReg) (a : VReg) (m : MReg) (rm : Rnd) (f : Fmt → BitVec 32 → Nat → Nat → Nat × BitVec 32) (fid : Fmt → Nat)
    (g : Int → Int → Int) (iid : Bool → Nat → Int) : M Unit := do
  let s ← get
  let t := s.tag a
  checkTag 1 (Tag.isNum t) t
  let w := Tag.width t
  let n := Tag.lanes t
  let on (i : Nat) := laneOn (s.m m) n i
  match Tag.fmt? t with
  | some fm =>
    let xs := (List.range n).map fun i => if on i then laneAt (s.v a) w i else fid fm
    let (r, l) := tree (f fm) 8 xs s.src.lfsr
    set ((s.setG d (word (r.headD 0))).setLfsr rm l)
  | none =>
    let sg := match Tag.int? t with
      | some (sg, _) => sg
      | none => false
    let xs := (List.range n).map fun i => if on i then intLane t (laneAt (s.v a) w i) else iid sg w
    let (r, _) := tree (fun l x y => (g x y, l)) 8 xs 0
    set (s.setG d (intWord (r.headD 0)))

/-- R269. -/
def execVredadd (d : GReg) (a : VReg) (m : MReg) (rm : Rnd) (s : State) : Host.Outcome State Fault Refusal :=
  run (vecReduce d a m rm
    (fun fm l x y => let l1 := lfsrAfter rm l; (fm.round false rm l1 ((fm.val x).add rm (fm.val y)), l1))
    (fun fm => if rm = .rdn then 0 else 2 ^ (fm.w - 1)) (fun x y => x + y) (fun _ _ => 0)) s

/-- R269. -/
def execVredmax (d : GReg) (a : VReg) (m : MReg) (s : State) : Host.Outcome State Fault Refusal :=
  run (vecReduce d a m .rne (fun fm l x y => (fm.maxCode' x y, l)) (fun fm => 2 ^ (fm.w - 1) + fm.maxCode + 1)
    (fun x y => if x < y then y else x) (fun sg w => if sg then -(2 ^ (w - 1) : Nat) else 0)) s

/-- R269. -/
def execVredmin (d : GReg) (a : VReg) (m : MReg) (s : State) : Host.Outcome State Fault Refusal :=
  run (vecReduce d a m .rne (fun fm l x y => (fm.minCode x y, l)) (fun fm => fm.maxCode + 1)
    (fun x y => if y < x then y else x) (fun sg w => if sg then (2 ^ (w - 1) : Nat) - 1 else (2 ^ w : Nat) - 1)) s

/-! ### Bit planes (R80, R270) -/

/-- Bits moved one by one: bit i of the result is bit `src i`. -/
def moveBits (x : Line) (src : Nat → Nat) : Line := BitVec.ofNat 1024 (packN 1 ((List.range 1024).map fun i => (x.getLsbD (src i)).toNat))

/-- Bits of an element under R80: 8 for i8, 2 for tern. -/
def planes (t : Tag) : Nat := if t = .i8 then 8 else 2

/-- R270: the bits move as they are; two adjoining bits of a plane are no ternary code, and 0b10 there is a packed one (log 96). -/
def execVbpack (d a : VReg) (s : State) : Host.Outcome State Fault Refusal :=
  run (do
    let s ← get
    let t := s.tag a
    checkTag 1 (t == .i8 || t == .tern) t
    let p := planes t
    set (s.setV d (moveBits (s.v a) fun i => (32 * (i / (32 * p)) + i % 32) * p + i / 32 % p) t)) s

/-- R270: the bits go back to where `vbpack` took them from, so a ternary code 0b10 in the planes comes back as it is, although R71 has no
instruction write it (DESIGN CHOICE, log 96). -/
def execVbunpack (d a : VReg) (s : State) : Host.Outcome State Fault Refusal :=
  run (do
    let s ← get
    let t := s.tag a
    checkTag 1 (t == .i8 || t == .tern) t
    let p := planes t
    set (s.setV d (moveBits (s.v a) fun i => 32 * (p * (i / p / 32) + i % p) + i / p % 32) t)) s

end Sys2Proof.Machine
end

