-- ==== Sys2Proof/Machine/Dispatch.lean ====
section
/-!
DEFINITION. The arm of every instruction and event: one direct call of its meaning.
-/

namespace Sys2Proof.Machine

def exec (i : Instr) (s : State) : Host.Outcome State Fault Refusal :=
  match i with
  | .add x1 x2 x3 => Sys2Proof.Machine.execAdd x1 x2 x3 s
  | .sub x1 x2 x3 => Sys2Proof.Machine.execSub x1 x2 x3 s
  | .and x1 x2 x3 => Sys2Proof.Machine.execAnd x1 x2 x3 s
  | .or x1 x2 x3 => Sys2Proof.Machine.execOr x1 x2 x3 s
  | .xor x1 x2 x3 => Sys2Proof.Machine.execXor x1 x2 x3 s
  | .andn x1 x2 x3 => Sys2Proof.Machine.execAndn x1 x2 x3 s
  | .orn x1 x2 x3 => Sys2Proof.Machine.execOrn x1 x2 x3 s
  | .sll x1 x2 x3 => Sys2Proof.Machine.execSll x1 x2 x3 s
  | .srl x1 x2 x3 => Sys2Proof.Machine.execSrl x1 x2 x3 s
  | .sra x1 x2 x3 => Sys2Proof.Machine.execSra x1 x2 x3 s
  | .rol x1 x2 x3 => Sys2Proof.Machine.execRol x1 x2 x3 s
  | .ror x1 x2 x3 => Sys2Proof.Machine.execRor x1 x2 x3 s
  | .min x1 x2 x3 => Sys2Proof.Machine.execMin x1 x2 x3 s
  | .max x1 x2 x3 => Sys2Proof.Machine.execMax x1 x2 x3 s
  | .minu x1 x2 x3 => Sys2Proof.Machine.execMinu x1 x2 x3 s
  | .maxu x1 x2 x3 => Sys2Proof.Machine.execMaxu x1 x2 x3 s
  | .slt x1 x2 x3 => Sys2Proof.Machine.execSlt x1 x2 x3 s
  | .sltu x1 x2 x3 => Sys2Proof.Machine.execSltu x1 x2 x3 s
  | .seq x1 x2 x3 => Sys2Proof.Machine.execSeq x1 x2 x3 s
  | .sne x1 x2 x3 => Sys2Proof.Machine.execSne x1 x2 x3 s
  | .mul x1 x2 x3 => Sys2Proof.Machine.execMul x1 x2 x3 s
  | .mulh x1 x2 x3 => Sys2Proof.Machine.execMulh x1 x2 x3 s
  | .mulhu x1 x2 x3 => Sys2Proof.Machine.execMulhu x1 x2 x3 s
  | .div x1 x2 x3 x4 => Sys2Proof.Machine.execDiv x1 x2 x3 x4 s
  | .divu x1 x2 x3 x4 => Sys2Proof.Machine.execDivu x1 x2 x3 x4 s
  | .rem x1 x2 x3 x4 => Sys2Proof.Machine.execRem x1 x2 x3 x4 s
  | .remu x1 x2 x3 x4 => Sys2Proof.Machine.execRemu x1 x2 x3 x4 s
  | .clz x1 x2 => Sys2Proof.Machine.execClz x1 x2 s
  | .ctz x1 x2 => Sys2Proof.Machine.execCtz x1 x2 s
  | .popc x1 x2 => Sys2Proof.Machine.execPopc x1 x2 s
  | .rev x1 x2 => Sys2Proof.Machine.execRev x1 x2 s
  | .addi x1 x2 x3 => Sys2Proof.Machine.execAddi x1 x2 x3 s
  | .andi x1 x2 x3 => Sys2Proof.Machine.execAndi x1 x2 x3 s
  | .ori x1 x2 x3 => Sys2Proof.Machine.execOri x1 x2 x3 s
  | .xori x1 x2 x3 => Sys2Proof.Machine.execXori x1 x2 x3 s
  | .slti x1 x2 x3 => Sys2Proof.Machine.execSlti x1 x2 x3 s
  | .sltiu x1 x2 x3 => Sys2Proof.Machine.execSltiu x1 x2 x3 s
  | .slli x1 x2 x3 => Sys2Proof.Machine.execSlli x1 x2 x3 s
  | .srli x1 x2 x3 => Sys2Proof.Machine.execSrli x1 x2 x3 s
  | .srai x1 x2 x3 => Sys2Proof.Machine.execSrai x1 x2 x3 s
  | .lhi x1 x2 x3 => Sys2Proof.Machine.execLhi x1 x2 x3 s
  | .extu x1 x2 x3 x4 => Sys2Proof.Machine.execExtu x1 x2 x3 x4 s
  | .exts x1 x2 x3 x4 => Sys2Proof.Machine.execExts x1 x2 x3 x4 s
  | .ins x1 x2 x3 x4 => Sys2Proof.Machine.execIns x1 x2 x3 x4 s
  | .csel x1 x2 x3 x4 => Sys2Proof.Machine.execCsel x1 x2 x3 x4 s
  | .madd x1 x2 x3 x4 => Sys2Proof.Machine.execMadd x1 x2 x3 x4 s
  | .msub x1 x2 x3 x4 => Sys2Proof.Machine.execMsub x1 x2 x3 x4 s
  | .faddF64 x1 x2 x3 x4 => Sys2Proof.Machine.execFaddF64 x1 x2 x3 x4 s
  | .fsubF64 x1 x2 x3 x4 => Sys2Proof.Machine.execFsubF64 x1 x2 x3 x4 s
  | .fmulF64 x1 x2 x3 x4 => Sys2Proof.Machine.execFmulF64 x1 x2 x3 x4 s
  | .fdivF64 x1 x2 x3 x4 x5 => Sys2Proof.Machine.execFdivF64 x1 x2 x3 x4 x5 s
  | .fsqrtF64 x1 x2 x3 x4 => Sys2Proof.Machine.execFsqrtF64 x1 x2 x3 x4 s
  | .fminF64 x1 x2 x3 => Sys2Proof.Machine.execFminF64 x1 x2 x3 s
  | .fmaxF64 x1 x2 x3 => Sys2Proof.Machine.execFmaxF64 x1 x2 x3 s
  | .faddF32 x1 x2 x3 x4 => Sys2Proof.Machine.execFaddF32 x1 x2 x3 x4 s
  | .fsubF32 x1 x2 x3 x4 => Sys2Proof.Machine.execFsubF32 x1 x2 x3 x4 s
  | .fmulF32 x1 x2 x3 x4 => Sys2Proof.Machine.execFmulF32 x1 x2 x3 x4 s
  | .fdivF32 x1 x2 x3 x4 x5 => Sys2Proof.Machine.execFdivF32 x1 x2 x3 x4 x5 s
  | .fsqrtF32 x1 x2 x3 x4 => Sys2Proof.Machine.execFsqrtF32 x1 x2 x3 x4 s
  | .fminF32 x1 x2 x3 => Sys2Proof.Machine.execFminF32 x1 x2 x3 s
  | .fmaxF32 x1 x2 x3 => Sys2Proof.Machine.execFmaxF32 x1 x2 x3 s
  | .fmaddF64 x1 x2 x3 x4 x5 => Sys2Proof.Machine.execFmaddF64 x1 x2 x3 x4 x5 s
  | .fmaddF32 x1 x2 x3 x4 x5 => Sys2Proof.Machine.execFmaddF32 x1 x2 x3 x4 x5 s
  | .fmsubF64 x1 x2 x3 x4 x5 => Sys2Proof.Machine.execFmsubF64 x1 x2 x3 x4 x5 s
  | .fmsubF32 x1 x2 x3 x4 x5 => Sys2Proof.Machine.execFmsubF32 x1 x2 x3 x4 x5 s
  | .feqF64 x1 x2 x3 => Sys2Proof.Machine.execFeqF64 x1 x2 x3 s
  | .fltF64 x1 x2 x3 => Sys2Proof.Machine.execFltF64 x1 x2 x3 s
  | .fleF64 x1 x2 x3 => Sys2Proof.Machine.execFleF64 x1 x2 x3 s
  | .feqF32 x1 x2 x3 => Sys2Proof.Machine.execFeqF32 x1 x2 x3 s
  | .fltF32 x1 x2 x3 => Sys2Proof.Machine.execFltF32 x1 x2 x3 s
  | .fleF32 x1 x2 x3 => Sys2Proof.Machine.execFleF32 x1 x2 x3 s
  | .fclassF64 x1 x2 => Sys2Proof.Machine.execFclassF64 x1 x2 s
  | .fclassF32 x1 x2 => Sys2Proof.Machine.execFclassF32 x1 x2 s
  | .fnegF64 x1 x2 => Sys2Proof.Machine.execFnegF64 x1 x2 s
  | .fnegF32 x1 x2 => Sys2Proof.Machine.execFnegF32 x1 x2 s
  | .fabsF64 x1 x2 => Sys2Proof.Machine.execFabsF64 x1 x2 s
  | .fabsF32 x1 x2 => Sys2Proof.Machine.execFabsF32 x1 x2 s
  | .cvt x1 x2 x3 x4 x5 x6 => Sys2Proof.Machine.execCvt x1 x2 x3 x4 x5 x6 s
  | .vadd x1 x2 x3 x4 x5 => Sys2Proof.Machine.execVadd x1 x2 x3 x4 x5 s
  | .vsub x1 x2 x3 x4 x5 => Sys2Proof.Machine.execVsub x1 x2 x3 x4 x5 s
  | .vmul x1 x2 x3 x4 x5 => Sys2Proof.Machine.execVmul x1 x2 x3 x4 x5 s
  | .vmin x1 x2 x3 x4 => Sys2Proof.Machine.execVmin x1 x2 x3 x4 s
  | .vmax x1 x2 x3 x4 => Sys2Proof.Machine.execVmax x1 x2 x3 x4 s
  | .vabs x1 x2 x3 => Sys2Proof.Machine.execVabs x1 x2 x3 s
  | .vneg x1 x2 x3 => Sys2Proof.Machine.execVneg x1 x2 x3 s
  | .vaddsat x1 x2 x3 x4 => Sys2Proof.Machine.execVaddsat x1 x2 x3 x4 s
  | .vsubsat x1 x2 x3 x4 => Sys2Proof.Machine.execVsubsat x1 x2 x3 x4 s
  | .vmulh x1 x2 x3 x4 => Sys2Proof.Machine.execVmulh x1 x2 x3 x4 s
  | .vand x1 x2 x3 x4 => Sys2Proof.Machine.execVand x1 x2 x3 x4 s
  | .vor x1 x2 x3 x4 => Sys2Proof.Machine.execVor x1 x2 x3 x4 s
  | .vxor x1 x2 x3 x4 => Sys2Proof.Machine.execVxor x1 x2 x3 x4 s
  | .vsll x1 x2 x3 x4 => Sys2Proof.Machine.execVsll x1 x2 x3 x4 s
  | .vsrl x1 x2 x3 x4 => Sys2Proof.Machine.execVsrl x1 x2 x3 x4 s
  | .vsra x1 x2 x3 x4 => Sys2Proof.Machine.execVsra x1 x2 x3 x4 s
  | .vfma x1 x2 x3 x4 x5 => Sys2Proof.Machine.execVfma x1 x2 x3 x4 x5 s
  | .vfms x1 x2 x3 x4 x5 => Sys2Proof.Machine.execVfms x1 x2 x3 x4 x5 s
  | .vfnma x1 x2 x3 x4 x5 => Sys2Proof.Machine.execVfnma x1 x2 x3 x4 x5 s
  | .vdiv x1 x2 x3 x4 x5 => Sys2Proof.Machine.execVdiv x1 x2 x3 x4 x5 s
  | .vsqrt x1 x2 x3 x4 => Sys2Proof.Machine.execVsqrt x1 x2 x3 x4 s
  | .vceq x1 x2 x3 x4 => Sys2Proof.Machine.execVceq x1 x2 x3 x4 s
  | .vcne x1 x2 x3 x4 => Sys2Proof.Machine.execVcne x1 x2 x3 x4 s
  | .vclt x1 x2 x3 x4 => Sys2Proof.Machine.execVclt x1 x2 x3 x4 s
  | .vcle x1 x2 x3 x4 => Sys2Proof.Machine.execVcle x1 x2 x3 x4 s
  | .vcun x1 x2 x3 x4 => Sys2Proof.Machine.execVcun x1 x2 x3 x4 s
  | .mand x1 x2 x3 => Sys2Proof.Machine.execMand x1 x2 x3 s
  | .mor x1 x2 x3 => Sys2Proof.Machine.execMor x1 x2 x3 s
  | .mxor x1 x2 x3 => Sys2Proof.Machine.execMxor x1 x2 x3 s
  | .mandn x1 x2 x3 => Sys2Proof.Machine.execMandn x1 x2 x3 s
  | .mnot x1 x2 => Sys2Proof.Machine.execMnot x1 x2 s
  | .vsel x1 x2 x3 x4 => Sys2Proof.Machine.execVsel x1 x2 x3 x4 s
  | .vmov x1 x2 x3 => Sys2Proof.Machine.execVmov x1 x2 x3 s
  | .vzero x1 x2 => Sys2Proof.Machine.execVzero x1 x2 s
  | .vcvt x1 x2 x3 x4 x5 x6 => Sys2Proof.Machine.execVcvt x1 x2 x3 x4 x5 x6 s
  | .vcvtSat x1 x2 x3 x4 x5 x6 => Sys2Proof.Machine.execVcvtSat x1 x2 x3 x4 x5 x6 s
  | .vsettag x1 x2 x3 => Sys2Proof.Machine.execVsettag x1 x2 x3 s
  | .vchk x1 x2 => Sys2Proof.Machine.execVchk x1 x2 s
  | .vbq x1 x2 x3 x4 => Sys2Proof.Machine.execVbq x1 x2 x3 x4 s
  | .vbdq x1 x2 x3 x4 => Sys2Proof.Machine.execVbdq x1 x2 x3 x4 s
  | .vctab x1 x2 x3 x4 => Sys2Proof.Machine.execVctab x1 x2 x3 x4 s
  | .vperm x1 x2 x3 => Sys2Proof.Machine.execVperm x1 x2 x3 s
  | .vzipl x1 x2 x3 => Sys2Proof.Machine.execVzipl x1 x2 x3 s
  | .vziph x1 x2 x3 => Sys2Proof.Machine.execVziph x1 x2 x3 s
  | .vunzip x1 x2 x3 => Sys2Proof.Machine.execVunzip x1 x2 x3 s
  | .vrotl x1 x2 x3 => Sys2Proof.Machine.execVrotl x1 x2 x3 s
  | .vbcast x1 x2 x3 x4 => Sys2Proof.Machine.execVbcast x1 x2 x3 x4 s
  | .vextr x1 x2 x3 => Sys2Proof.Machine.execVextr x1 x2 x3 s
  | .vins x1 x2 x3 => Sys2Proof.Machine.execVins x1 x2 x3 s
  | .vredadd x1 x2 x3 x4 => Sys2Proof.Machine.execVredadd x1 x2 x3 x4 s
  | .vredmax x1 x2 x3 => Sys2Proof.Machine.execVredmax x1 x2 x3 s
  | .vredmin x1 x2 x3 => Sys2Proof.Machine.execVredmin x1 x2 x3 s
  | .vbpack x1 x2 => Sys2Proof.Machine.execVbpack x1 x2 s
  | .vbunpack x1 x2 => Sys2Proof.Machine.execVbunpack x1 x2 s
  | .mmaE4m3 x1 x2 x3 x4 => Sys2Proof.Machine.execMmaE4m3 x1 x2 x3 x4 s
  | .mmaE5m2 x1 x2 x3 x4 => Sys2Proof.Machine.execMmaE5m2 x1 x2 x3 x4 s
  | .mmaE2m1 x1 x2 x3 x4 => Sys2Proof.Machine.execMmaE2m1 x1 x2 x3 x4 s
  | .mmaI8 x1 x2 x3 x4 => Sys2Proof.Machine.execMmaI8 x1 x2 x3 x4 s
  | .mmaC4i8 x1 x2 x3 x4 => Sys2Proof.Machine.execMmaC4i8 x1 x2 x3 x4 s
  | .mmaTi8 x1 x2 x3 x4 => Sys2Proof.Machine.execMmaTi8 x1 x2 x3 x4 s
  | .mmaBf16 x1 x2 x3 x4 => Sys2Proof.Machine.execMmaBf16 x1 x2 x3 x4 s
  | .mmaF16 x1 x2 x3 x4 => Sys2Proof.Machine.execMmaF16 x1 x2 x3 x4 s
  | .qacq x1 x2 => Sys2Proof.Machine.execQacq x1 x2 s
  | .qrel x1 => Sys2Proof.Machine.execQrel x1 s
  | .qzero x1 => Sys2Proof.Machine.execQzero x1 s
  | .qanchor x1 x2 => Sys2Proof.Machine.execQanchor x1 x2 s
  | .qadd x1 x2 x3 => Sys2Proof.Machine.execQadd x1 x2 x3 s
  | .qaddm x1 x2 => Sys2Proof.Machine.execQaddm x1 x2 s
  | .qsend x1 x2 x3 x4 => Sys2Proof.Machine.execQsend x1 x2 x3 x4 s
  | .qread x1 x2 x3 x4 x5 => Sys2Proof.Machine.execQread x1 x2 x3 x4 x5 s
  | .qreadSat x1 x2 x3 x4 x5 => Sys2Proof.Machine.execQreadSat x1 x2 x3 x4 x5 s
  | .ld x1 x2 x3 x4 x5 => Sys2Proof.Machine.execLd x1 x2 x3 x4 x5 s
  | .st x1 x2 x3 x4 => Sys2Proof.Machine.execSt x1 x2 x3 x4 s
  | .vld x1 x2 x3 x4 x5 => Sys2Proof.Machine.execVld x1 x2 x3 x4 x5 s
  | .vst x1 x2 x3 x4 => Sys2Proof.Machine.execVst x1 x2 x3 x4 s
  | .ldAcq x1 x2 x3 x4 => Sys2Proof.Machine.execLdAcq x1 x2 x3 x4 s
  | .stRel x1 x2 x3 x4 => Sys2Proof.Machine.execStRel x1 x2 x3 x4 s
  | .amoadd x1 x2 x3 x4 x5 x6 => Sys2Proof.Machine.execAmoadd x1 x2 x3 x4 x5 x6 s
  | .amoand x1 x2 x3 x4 x5 x6 => Sys2Proof.Machine.execAmoand x1 x2 x3 x4 x5 x6 s
  | .amoor x1 x2 x3 x4 x5 x6 => Sys2Proof.Machine.execAmoor x1 x2 x3 x4 x5 x6 s
  | .amoxor x1 x2 x3 x4 x5 x6 => Sys2Proof.Machine.execAmoxor x1 x2 x3 x4 x5 x6 s
  | .amomax x1 x2 x3 x4 x5 x6 => Sys2Proof.Machine.execAmomax x1 x2 x3 x4 x5 x6 s
  | .amomin x1 x2 x3 x4 x5 x6 => Sys2Proof.Machine.execAmomin x1 x2 x3 x4 x5 x6 s
  | .amomaxu x1 x2 x3 x4 x5 x6 => Sys2Proof.Machine.execAmomaxu x1 x2 x3 x4 x5 x6 s
  | .amominu x1 x2 x3 x4 x5 x6 => Sys2Proof.Machine.execAmominu x1 x2 x3 x4 x5 x6 s
  | .amoswap x1 x2 x3 x4 x5 x6 => Sys2Proof.Machine.execAmoswap x1 x2 x3 x4 x5 x6 s
  | .amocas x1 x2 x3 x4 x5 x6 => Sys2Proof.Machine.execAmocas x1 x2 x3 x4 x5 x6 s
  | .amoaddF32 x1 x2 x3 x4 x5 => Sys2Proof.Machine.execAmoaddF32 x1 x2 x3 x4 x5 s
  | .amaxF32 x1 x2 x3 x4 x5 => Sys2Proof.Machine.execAmaxF32 x1 x2 x3 x4 x5 s
  | .aminF32 x1 x2 x3 x4 x5 => Sys2Proof.Machine.execAminF32 x1 x2 x3 x4 x5 s
  | .redNF32 x1 x2 => Sys2Proof.Machine.execRedNF32 x1 x2 s
  | .redNAdd x1 x2 x3 => Sys2Proof.Machine.execRedNAdd x1 x2 x3 s
  | .redNMaxF32 x1 x2 => Sys2Proof.Machine.execRedNMaxF32 x1 x2 s
  | .vldp x1 x2 x3 x4 => Sys2Proof.Machine.execVldp x1 x2 x3 x4 s
  | .vstp x1 x2 x3 => Sys2Proof.Machine.execVstp x1 x2 x3 s
  | .vgath32 x1 x2 x3 x4 => Sys2Proof.Machine.execVgath32 x1 x2 x3 x4 s
  | .vgath64 x1 x2 x3 x4 => Sys2Proof.Machine.execVgath64 x1 x2 x3 x4 s
  | .vscat32 x1 x2 x3 => Sys2Proof.Machine.execVscat32 x1 x2 x3 s
  | .vscat64 x1 x2 x3 => Sys2Proof.Machine.execVscat64 x1 x2 x3 s
  | .ldf x1 x2 x3 => Sys2Proof.Machine.execLdf x1 x2 x3 s
  | .ldfe x1 x2 x3 => Sys2Proof.Machine.execLdfe x1 x2 x3 s
  | .stf x1 x2 => Sys2Proof.Machine.execStf x1 x2 s
  | .stef x1 x2 => Sys2Proof.Machine.execStef x1 x2 s
  | .fempty x1 => Sys2Proof.Machine.execFempty x1 s
  | .ftest x1 x2 => Sys2Proof.Machine.execFtest x1 x2 s
  | .map x1 x2 x3 => Sys2Proof.Machine.execMap x1 x2 x3 s
  | .unmap x1 => Sys2Proof.Machine.execUnmap x1 s
  | .sflush x1 => Sys2Proof.Machine.execSflush x1 s
  | .pfl2 x1 x2 x3 => Sys2Proof.Machine.execPfl2 x1 x2 x3 s
  | .invlR x1 x2 x3 => Sys2Proof.Machine.execInvlR x1 x2 x3 s
  | .invlA x1 => Sys2Proof.Machine.execInvlA x1 s
  | .jr x1 => Sys2Proof.Machine.execJr x1 s
  | .jalr x1 x2 => Sys2Proof.Machine.execJalr x1 x2 s
  | .trap x1 => Sys2Proof.Machine.execTrap x1 s
  | .beq x1 x2 x3 => Sys2Proof.Machine.execBeq x1 x2 x3 s
  | .bne x1 x2 x3 => Sys2Proof.Machine.execBne x1 x2 x3 s
  | .blt x1 x2 x3 => Sys2Proof.Machine.execBlt x1 x2 x3 s
  | .bge x1 x2 x3 => Sys2Proof.Machine.execBge x1 x2 x3 s
  | .bltu x1 x2 x3 => Sys2Proof.Machine.execBltu x1 x2 x3 s
  | .bgeu x1 x2 x3 => Sys2Proof.Machine.execBgeu x1 x2 x3 s
  | .jal x1 x2 => Sys2Proof.Machine.execJal x1 x2 s
  | .spawn x1 => Sys2Proof.Machine.execSpawn x1 s
  | .depdec x1 => Sys2Proof.Machine.execDepdec x1 s
  | .fpop x1 x2 => Sys2Proof.Machine.execFpop x1 x2 s
  | .fpush x1 x2 => Sys2Proof.Machine.execFpush x1 x2 s
  | .waitw x1 x2 x3 => Sys2Proof.Machine.execWaitw x1 x2 x3 s
  | .wlaunch x1 x2 => Sys2Proof.Machine.execWlaunch x1 x2 s
  | .ctabld x1 => Sys2Proof.Machine.execCtabld x1 s
  | .hwait x1 => Sys2Proof.Machine.execHwait x1 s
  | .htest x1 x2 => Sys2Proof.Machine.execHtest x1 x2 s
  | .hwaitany x1 x2 => Sys2Proof.Machine.execHwaitany x1 x2 s
  | .hcancel x1 => Sys2Proof.Machine.execHcancel x1 s
  | .hexport x1 x2 => Sys2Proof.Machine.execHexport x1 x2 s
  | .himport x1 x2 => Sys2Proof.Machine.execHimport x1 x2 s
  | .hstate x1 x2 => Sys2Proof.Machine.execHstate x1 x2 s
  | .acopy x1 x2 => Sys2Proof.Machine.execAcopy x1 x2 s
  | .acopy2 x1 x2 => Sys2Proof.Machine.execAcopy2 x1 x2 s
  | .fenceRelN x1 x2 => Sys2Proof.Machine.execFenceRelN x1 x2 s
  | .fenceAcqN x1 x2 => Sys2Proof.Machine.execFenceAcqN x1 x2 s
  | .bar x1 => Sys2Proof.Machine.execBar x1 s
  | .bvote x1 x2 x3 => Sys2Proof.Machine.execBvote x1 x2 x3 s
  | .csum x1 x2 x3 => Sys2Proof.Machine.execCsum x1 x2 x3 s
  | .cmax x1 x2 x3 => Sys2Proof.Machine.execCmax x1 x2 x3 s
  | .cmin x1 x2 x3 => Sys2Proof.Machine.execCmin x1 x2 x3 s
  | .eycreate x1 x2 => Sys2Proof.Machine.execEycreate x1 x2 s
  | .eypostMsg0 x1 x2 => Sys2Proof.Machine.execEypostMsg0 x1 x2 s
  | .eypostMsg1 x1 x2 => Sys2Proof.Machine.execEypostMsg1 x1 x2 s
  | .eytake x1 x2 => Sys2Proof.Machine.execEytake x1 x2 s
  | .eywait x1 => Sys2Proof.Machine.execEywait x1 s
  | .popenMsg0 x1 => Sys2Proof.Machine.execPopenMsg0 x1 s
  | .popenMsg1 x1 => Sys2Proof.Machine.execPopenMsg1 x1 s
  | .pput x1 x2 => Sys2Proof.Machine.execPput x1 x2 s
  | .psend x1 x2 => Sys2Proof.Machine.execPsend x1 x2 s
  | .mfsr x1 x2 => Sys2Proof.Machine.execMfsr x1 x2 s
  | .mtsr x1 x2 => Sys2Proof.Machine.execMtsr x1 x2 s
  | .invlAll => Sys2Proof.Machine.execInvlAll s
  | .cnop => Sys2Proof.Machine.execCnop s
  | .yield => Sys2Proof.Machine.execYield s
  | .exit => Sys2Proof.Machine.execExit s
  | .rft => Sys2Proof.Machine.execRft s
  | .fenceRelT => Sys2Proof.Machine.execFenceRelT s
  | .fenceRelC => Sys2Proof.Machine.execFenceRelC s
  | .fenceRelS => Sys2Proof.Machine.execFenceRelS s
  | .fenceAcqT => Sys2Proof.Machine.execFenceAcqT s
  | .fenceAcqC => Sys2Proof.Machine.execFenceAcqC s
  | .fenceAcqS => Sys2Proof.Machine.execFenceAcqS s
  | .fenceArT => Sys2Proof.Machine.execFenceArT s
  | .fenceArC => Sys2Proof.Machine.execFenceArC s
  | .fenceArS => Sys2Proof.Machine.execFenceArS s
  | .fenceScT => Sys2Proof.Machine.execFenceScT s
  | .fenceScC => Sys2Proof.Machine.execFenceScC s
  | .fenceScS => Sys2Proof.Machine.execFenceScS s
  | .fenceN => Sys2Proof.Machine.execFenceN s
  | .fenceI => Sys2Proof.Machine.execFenceI s
  | .nop => Sys2Proof.Machine.execNop s
  | .halt => Sys2Proof.Machine.execHalt s
  | .b x1 => Sys2Proof.Machine.execB x1 s
  | .loop x1 => Sys2Proof.Machine.execLoop x1 s
  | .bcz x1 => Sys2Proof.Machine.execBcz x1 s
  | .bcl x1 => Sys2Proof.Machine.execBcl x1 s
  | .setc x1 => Sys2Proof.Machine.execSetc x1 s
  | .ldc x1 x2 => Sys2Proof.Machine.execLdc x1 x2 s
  | .psets x1 x2 => Sys2Proof.Machine.execPsets x1 x2 s
  | .pstride x1 x2 => Sys2Proof.Machine.execPstride x1 x2 s
  | .paddi x1 x2 => Sys2Proof.Machine.execPaddi x1 x2 s
  | .pld x1 x2 x3 => Sys2Proof.Machine.execPld x1 x2 x3 s
  | .pmov x1 x2 => Sys2Proof.Machine.execPmov x1 x2 s
  | .post x1 x2 => Sys2Proof.Machine.execPost x1 x2 s
  | .mov64 x1 x2 x3 x4 => Sys2Proof.Machine.execMov64 x1 x2 x3 x4 s
  | .azero x1 => Sys2Proof.Machine.execAzero x1 s
  | .ald x1 x2 x3 => Sys2Proof.Machine.execAld x1 x2 x3 s
  | .ast x1 x2 x3 x4 => Sys2Proof.Machine.execAst x1 x2 x3 x4 s
  | .aadd x1 x2 x3 x4 => Sys2Proof.Machine.execAadd x1 x2 x3 x4 s
  | .amax x1 x2 x3 => Sys2Proof.Machine.execAmax x1 x2 x3 s
  | .amin x1 x2 x3 => Sys2Proof.Machine.execAmin x1 x2 x3 s
  | .afma x1 x2 x3 x4 x5 x6 => Sys2Proof.Machine.execAfma x1 x2 x3 x4 x5 x6 s
  | .ascale x1 x2 x3 => Sys2Proof.Machine.execAscale x1 x2 x3 s
  | .acvt x1 x2 => Sys2Proof.Machine.execAcvt x1 x2 s
  | .addx x1 x2 x3 x4 x5 => Sys2Proof.Machine.execAddx x1 x2 x3 x4 x5 s
  | .maxx x1 x2 x3 x4 => Sys2Proof.Machine.execMaxx x1 x2 x3 x4 s
  | .faddn x1 x2 x3 => Sys2Proof.Machine.execFaddn x1 x2 x3 s
  | .fmaxn x1 x2 => Sys2Proof.Machine.execFmaxn x1 x2 s
  | .faddnx x1 x2 x3 x4 => Sys2Proof.Machine.execFaddnx x1 x2 x3 x4 s
  | .clamp x1 => Sys2Proof.Machine.execClamp x1 s
  | .clampTwoBank x1 x2 => Sys2Proof.Machine.execClampTwoBank x1 x2 s
  | .unclamp => Sys2Proof.Machine.execUnclamp s
  | .rowzero x1 x2 => Sys2Proof.Machine.execRowzero x1 x2 s
  | .rowcopy x1 x2 x3 x4 => Sys2Proof.Machine.execRowcopy x1 x2 x3 x4 s
  | .launch x1 => Sys2Proof.Machine.execLaunch x1 s
  | .invlCommandRange x1 => Sys2Proof.Machine.execInvlCommandRange x1 s
  | .invlCommandAsid x1 => Sys2Proof.Machine.execInvlCommandAsid x1 s
  | .invlCommandAll x1 => Sys2Proof.Machine.execInvlCommandAll x1 s
  | .preempt x1 => Sys2Proof.Machine.execPreempt x1 s
  | .resume x1 => Sys2Proof.Machine.execResume x1 s
  | .migrate x1 => Sys2Proof.Machine.execMigrate x1 s
  | .migrationDone => Sys2Proof.Machine.execMigrationDone s
  | .hreply x1 => Sys2Proof.Machine.execHreply x1 s
  | .logpost x1 => Sys2Proof.Machine.execLogpost x1 s
  | .scrasidWrite x1 x2 x3 => Sys2Proof.Machine.execScrasidWrite x1 x2 x3 s
  | .optmapEnable x1 x2 => Sys2Proof.Machine.execOptmapEnable x1 x2 s
  | .registerWrite x1 x2 => Sys2Proof.Machine.execRegisterWrite x1 x2 s
  | .configBlockWrite x1 x2 => Sys2Proof.Machine.execConfigBlockWrite x1 x2 s
  | .hostCxlMemAccess x1 x2 => Sys2Proof.Machine.execHostCxlMemAccess x1 x2 s
  | .powerOn x1 => Sys2Proof.Machine.execPowerOn x1 s
  | .startStepTimeout x1 => Sys2Proof.Machine.execStartStepTimeout x1 s
  | .req x1 => Sys2Proof.Machine.execReq x1 s
  | .rsp x1 => Sys2Proof.Machine.execRsp x1 s
  | .enq x1 => Sys2Proof.Machine.execEnq x1 s
  | .eyeletMessage x1 => Sys2Proof.Machine.execEyeletMessage x1 s
  | .ringToSlot x1 x2 => Sys2Proof.Machine.execRingToSlot x1 x2 s
  | .portPacket x1 x2 x3 => Sys2Proof.Machine.execPortPacket x1 x2 x3 s
  | .faultRecord x1 => Sys2Proof.Machine.execFaultRecord x1 s
  | .recordRingPlace x1 => Sys2Proof.Machine.execRecordRingPlace x1 s
  | .replySlotTake x1 => Sys2Proof.Machine.execReplySlotTake x1 s
  | .replyRetry x1 => Sys2Proof.Machine.execReplyRetry x1 s
  | .replyDeliver x1 => Sys2Proof.Machine.execReplyDeliver x1 s
  | .replyKill x1 => Sys2Proof.Machine.execReplyKill x1 s
  | .tileIdle x1 => Sys2Proof.Machine.execTileIdle x1 s
  | .stealProbe x1 => Sys2Proof.Machine.execStealProbe x1 s
  | .stealRetry x1 => Sys2Proof.Machine.execStealRetry x1 s
  | .loadFigureReport x1 => Sys2Proof.Machine.execLoadFigureReport x1 s
  | .barrierArrival x1 => Sys2Proof.Machine.execBarrierArrival x1 s
  | .barrierCompletion x1 => Sys2Proof.Machine.execBarrierCompletion x1 s
  | .counterDecrement x1 => Sys2Proof.Machine.execCounterDecrement x1 s
  | .counterWaiter x1 => Sys2Proof.Machine.execCounterWaiter x1 s
  | .deferredRelease x1 => Sys2Proof.Machine.execDeferredRelease x1 s
  | .invlReceive x1 x2 => Sys2Proof.Machine.execInvlReceive x1 x2 s
  | .invlComplete x1 => Sys2Proof.Machine.execInvlComplete x1 s
  | .dispatch x1 => Sys2Proof.Machine.execDispatch x1 s
  | .dequeRefill x1 => Sys2Proof.Machine.execDequeRefill x1 s
  | .blockDeactivate x1 => Sys2Proof.Machine.execBlockDeactivate x1 s
  | .slotRotation x1 => Sys2Proof.Machine.execSlotRotation x1 s
  | .watchdogNotice x1 => Sys2Proof.Machine.execWatchdogNotice x1 s
  | .waitwRecheck x1 => Sys2Proof.Machine.execWaitwRecheck x1 s
  | .loadDataReturn x1 => Sys2Proof.Machine.execLoadDataReturn x1 s
  | .deferredDataError x1 => Sys2Proof.Machine.execDeferredDataError x1 s
  | .registerLineFill x1 => Sys2Proof.Machine.execRegisterLineFill x1 s
  | .icacheFill x1 => Sys2Proof.Machine.execIcacheFill x1 s
  | .stashWriteback x1 x2 => Sys2Proof.Machine.execStashWriteback x1 x2 s
  | .mmaComplete x1 => Sys2Proof.Machine.execMmaComplete x1 s
  | .qsendComplete x1 => Sys2Proof.Machine.execQsendComplete x1 s
  | .acopyComplete x1 => Sys2Proof.Machine.execAcopyComplete x1 s
  | .prefetchComplete x1 => Sys2Proof.Machine.execPrefetchComplete x1 s
  | .weltLaunchReceive x1 => Sys2Proof.Machine.execWeltLaunchReceive x1 s
  | .weltPlace x1 => Sys2Proof.Machine.execWeltPlace x1 s
  | .weltRestore x1 => Sys2Proof.Machine.execWeltRestore x1 s
  | .weltCompletion x1 => Sys2Proof.Machine.execWeltCompletion x1 s
  | .clampGrant x1 => Sys2Proof.Machine.execClampGrant x1 s
  | .clamplong x1 x2 => Sys2Proof.Machine.execClamplong x1 x2 s
  | .refreshDue x1 x2 x3 => Sys2Proof.Machine.execRefreshDue x1 x2 x3 s
  | .messageTimeout x1 => Sys2Proof.Machine.execMessageTimeout x1 s
  | .holdNotice x1 => Sys2Proof.Machine.execHoldNotice x1 s
  | .escapeSwitch x1 => Sys2Proof.Machine.execEscapeSwitch x1 s
  | .packetDiscard x1 => Sys2Proof.Machine.execPacketDiscard x1 s
  | .linkLossOfLock x1 x2 => Sys2Proof.Machine.execLinkLossOfLock x1 x2 s
  | .linkCrcLimit x1 x2 => Sys2Proof.Machine.execLinkCrcLimit x1 x2 s
  | .patchInstall x1 x2 => Sys2Proof.Machine.execPatchInstall x1 x2 s
  | .opticalPortFailure x1 => Sys2Proof.Machine.execOpticalPortFailure x1 s
  | .bankRetirement x1 x2 x3 => Sys2Proof.Machine.execBankRetirement x1 x2 x3 s
  | .tileOutOfService x1 => Sys2Proof.Machine.execTileOutOfService x1 s
  | .weltCoreFailure x1 x2 => Sys2Proof.Machine.execWeltCoreFailure x1 x2 s
  | .tallowRefresh x1 x2 x3 => Sys2Proof.Machine.execTallowRefresh x1 x2 x3 s
  | .thermalThreshold x1 => Sys2Proof.Machine.execThermalThreshold x1 s
  | .refreshRateChange x1 x2 => Sys2Proof.Machine.execRefreshRateChange x1 x2 s
  | .copyPieceWrite x1 => Sys2Proof.Machine.execCopyPieceWrite x1 s
  | .saveAreaRestore x1 => Sys2Proof.Machine.execSaveAreaRestore x1 s
  | .weltDramAccessComplete x1 x2 => Sys2Proof.Machine.execWeltDramAccessComplete x1 x2 s
  | .recoverySlotWrite x1 => Sys2Proof.Machine.execRecoverySlotWrite x1 s
  | .powerLoss => Sys2Proof.Machine.execPowerLoss s
  | .flitCrcFailure x1 => Sys2Proof.Machine.execFlitCrcFailure x1 s
  | .hostCxlCacheSnoop x1 x2 => Sys2Proof.Machine.execHostCxlCacheSnoop x1 x2 s
  | .requestedPointChange x1 x2 => Sys2Proof.Machine.execRequestedPointChange x1 x2 s

end Sys2Proof.Machine
end

