-- ==== Sys2Proof/Machine/Soft.lean ====
section
/-!
DEFINITION. Soft errors and worn cells (R375, R376, R379, R427): what a unit corrects is counted, and every 256th count is logged;
what it cannot correct stays until it is read, dropped or written whole.
-/

namespace Sys2Proof.Machine

/-- A count and its next value. -/
def bump {α : Type} [DecidableEq α] (a : α) (l : List (α × Nat)) : Nat × List (α × Nat) :=
  let n := ((l.find? fun e => e.1 = a).map (·.2)).getD 0 + 1
  (n, (a, n) :: l.filter fun e => e.1 ≠ a)

/-- CORR for every 256th corrected error of a unit: store, unit and count (R376, R378). -/
def State.logCorr (s : State) (source store unit n : Nat) : State :=
  if n % 256 = 0 then s.logEntry 4 source [word store, word unit, word n] else s

/-- A corrected error of a tile's store; the instruction cache's is a parity error that a fetch puts right. With 65,536 of them in all the tile is taken
out of service (R436). -/
def State.correctedTile (s : State) (tile store : Nat) : State :=
  let (n, l) := bump store (s.tile tile).corr
  let s1 := (s.modTile tile fun t => { t with corr := l }).logCorr tile store 0 n
  if 65536 ≤ (l.map (·.2)).sum then s1.takeOut tile else s1

def State.correctedSlice (s : State) (i : Nat) : State :=
  let (n, l) := bump i s.corrL2
  ({ s with corrL2 := l } : State).logCorr 0x7FE 5 i n

/-- A bank that should be retired and cannot be: its channel has no bank to spare, and each further error is logged (R427). -/
def State.wornOut (s : State) (stack ch bank : Nat) : Bool := liveCount ((s.stack stack).live ch) ≤ 32 && s.wornBank stack ch bank

/-- A corrected error of a bank. -/
def State.correctedBank (s : State) (stack ch bank : Nat) : State :=
  let y := s.stack stack
  let (n, l) := bump (ch, bank) y.corr
  let s1 := s.setStack stack { y with corr := l }
  if s.wornOut stack ch bank then s1.logEntry 4 (0x400 + stack) [word 5, word (ch * 64 + bank), word n]
  else s1.logCorr (0x400 + stack) 5 (ch * 64 + bank) n

/-- An uncorrectable register line: a clean one is dropped, and fetched again when it is named; for a dirty one its strand is parked, and its
next fetch takes memory's bytes. Of line 0, what the park and the replies write is written anew and stays (`lost0`).
A strand's outstanding loads return first, and a pair that has begun ends. -/
def State.softRegLine (s : State) (key : Key) (n : Nat) : State :=
  match s.theStrand? key with
  | none => s
  | some t =>
    let tile := t.tile.toNat
    if !t.present.getLsbD n || !t.late.isEmpty || t.begun || t.inSecond then s
    else if !t.dirty.getLsbD n then s.dropLine tile key n
    else
      let s1 := s.dropLine tile key n
      match s1.theStrand? key with
      | some t => (s1.parkFrame key t (badFrame t n)).modStrand key fun t => if n = 0 then { t with lost0 := true } else t
      | none => s1

/-- An uncorrectable word of an L1 line: what is clean is fetched again. -/
def Tile.softL1 (t : Tile) (asid : BitVec 12) (line w : Nat) : Tile :=
  match t.l1Find line asid with
  | none => t
  | some e =>
    let others := t.l1.filter fun y => !(y.addr = line && y.asid = asid)
    if e.dirty = 0 then { t with l1 := others }
    else if e.dirty.extractLsb' (8 * w) 8 = 0 then { t with l1 := { e with valid := false } :: others }
    else { t with l1 := { e with bad := e.bad ||| BitVec.ofNat 16 (2 ^ w) } :: others }

/-- Uncorrectable data in a 64 B granule of memory. -/
def State.badGranule (s : State) (n : Nat) : State :=
  let s1 : State := { s with bad := (List.range 8).foldl (fun l i => ins (8 * n + i) l) s.bad }
  match s.place (n * 64) with
  | none => s1
  | some (st, loc) =>
    let ch := loc / 4096 % 32
    if s.wornOut st ch (nthSet ((s.stack st).live ch) 36 0 (loc / 4096 / 32 % 32)) then s1.logUncorr (0x400 + st) (n * 64) 5 (lineMask (n * 64 % 128) 64) else s1

def State.soft (s : State) (e : Soft) : State :=
  match e with
  | .tile n store => s.correctedTile n.toNat store.val
  | .slice n => s.correctedSlice n.val
  | .bank stack ch bank => s.correctedBank stack.val ch.val bank.val
  | .regLine key n => s.softRegLine key n.val
  | .icache tile line => (s.modTile tile.toNat fun t => { t with icache := t.icache.filter fun c => c.1 ≠ line }).correctedTile tile.toNat 1
  | .scratch tile w => s.modTile tile.toNat fun t => { t with badw := ins w.toNat t.badw }
  | .l1 tile asid line w => s.modTile tile.toNat fun t => t.softL1 asid line w.val
  | .accum tile n => s.modTile tile.toNat fun t => if (t.accs[n]).bind.isSome then t.setAcc n.val { t.accs[n] with bad := true } else t
  | .granule n =>
    match s.win (n * 64) with
    | .inter | .near .. | .host => s.badGranule n
    | _ => s
  | .signal t p => s.failSignal t.val p
  | .configBlock => { s with configOk := false }

end Sys2Proof.Machine
end

