-- ==== Sys2Proof/Machine/Pairs.lean ====
section
/-!
DEFINITION. Issue of a strand's next pair (R149, R152, R372) and of a welt core's next instruction (R296, R303), and one entry
of the schedule.
-/

namespace Sys2Proof.Machine

/-! ### Slots of a pair (R149, R152) -/

/-- One word of every open window issues. -/
def Strand.tick (t : Strand) : Strand :=
  { t with held := t.held.map fun x => { x with left := x.left - 1 }, late := t.late.map fun x => { x with left := x.left - 1 } }

/-- Results whose window has ended and that no window word discarded. -/
def Strand.due (t : Strand) : List Held := t.held.filter fun x => x.left = 0

/-- They are written. -/
def Strand.written (t : Strand) : Strand := t.due.foldl Strand.deliverHeld { t with held := t.held.filter fun x => x.left ≠ 0 }

/-- The first slot: it reads the registers as they stand, and execution goes on at the next pair. -/
def State.beginC (s : State) : State :=
  { s with me := { s.me.tick with npc := s.me.pc + 8 }, view := some s.me, pieceNo := 0, passed := false }

/-- The second slot after a first that left `s1`: it reads what the pair found, and the results whose window the first ended; its checks are its own. -/
def State.beginA (s s1 : State) : State :=
  { s1 with me := { s1.me.written.tick with begun := false, pieces := [] }, view := some (s1.me.due.foldl Strand.deliverHeld s.me), passed := false }

/-- The second slot when the first has had no effect. -/
def State.beginAlone (s : State) : State := s.beginA s.beginC

/-- A pair that waits leaves the registers as they were. With `begun` its access goes on from where it is; else nothing of it has begun. -/
def State.undo (s1 s : State) (begun : Bool) : State :=
  { s1 with
    me := { s1.me with
      g := s.me.g, v := s.me.v, vtag := s.me.vtag, held := s.me.held, late := s.me.late, npc := s.me.npc
      begun := begun, pieces := if begun then s1.me.pieces else [] }
    view := none }

/-- What an instruction that is over no longer needs. -/
def Strand.retired (t : Strand) : Strand :=
  { t with wait := none, blocked := 0, noticed := false, ans := none, parts := [], did := 0, begun := false, pieces := [], inSecond := false, spawning := none }

/-- The end that `exit` asks for (R185, R47): it waits for the engines that the A slot too has started, and for what the end itself waits for. -/
def State.finishExit (s : State) : State :=
  let t := s.me
  if t.pendingEngines ≠ 0 then s.enterWait (.handles t.pendingEngines)
  else match s.endExit t with
    | some s1 => s1.noOne.evalBarriers
    | none => s.enterWait .unit

/-- The pair retires: the strand goes on at its next PC, or leaves its slot as `yield` and `exit` ask (R149, R184, R185). A strand whose DOM
the pair has changed leaves its generations' memberships (R61). -/
def State.settle (s : State) : State :=
  let t := { s.me.written.retired with pc := s.me.npc, leaving := none, dirty := s.me.dirty ||| lineBit 0 }
  let moved := s.view.any fun u => u.dom ≠ s.me.dom
  let s1 : State := { s with me := t, view := none, half := if s.me.inSecond then s.half.filter fun h => h.1.key ≠ s.me.key else s.half }
  match s.me.leaving with
  | none => if moved then s1.evalBarriers else s1
  | some false => ({ s1 with me := t.deactivate 0 } : State).makeReady t.key
  | some true => ({ s1 with me := { s.me.written.retired with leaving := some true } } : State).finishExit

/-- What a slot's execution came to. -/
def slotEnd (o : Host.Outcome State Fault Refusal) (ok : State → Host.Outcome State Fault Refusal)
    (cond : Cond → State → Host.Outcome State Fault Refusal) (wait : Wait → State → Host.Outcome State Fault Refusal) :
    Host.Outcome State Fault Refusal :=
  match o with
  | .next s =>
    match s.ended with
    | .ok => ok s
    | .cond c => cond c s
    | .wait w => wait w s
  | o => o

/-- A first slot whose partner stalls past its checks, in `s2`, has taken effect: `s1` is what it left, and the second slot goes on alone, reading
what the pair found (R149). -/
def State.commitC (s s1 s2 : State) (a : Instr) : State :=
  let b := s.beginA s1
  { s2 with
    me := { s2.me with
      g := b.me.g, v := b.me.v, vtag := b.me.vtag, m := b.me.m, k := b.me.k, held := b.me.held, late := b.me.late, npc := b.me.npc
      begun := s2.passed, pieces := if s2.passed then s2.me.pieces else [], inSecond := true }
    view := none
    half := (b.view.getD s.me, a) :: s2.half.filter fun h => h.1.key ≠ s.me.key }

/-- The second slot of a pair whose first has taken effect in an earlier step, from what the pair found. A condition that an answer brings it now
comes after both slots' checks: the registers are as before the pair, and what the first slot stored stands (DEDUCED, log 94). -/
def State.stepHalf (s : State) (v : Strand) (a : Instr) : Host.Outcome State Fault Refusal :=
  slotEnd (exec a { s with view := some v, passed := false, pieceNo := 0 }) (fun s1 => .next s1.settle)
    (fun c s1 =>
      let s2 := s.keep s1
      .next (({ s2 with
        me := { s2.me with g := v.g, v := v.v, vtag := v.vtag, m := v.m, k := v.k, held := v.held, late := v.late }
        half := s2.half.filter fun h => h.1.key ≠ v.key } : State).takeCond c))
    fun _ s1 => .next (s1.undo s (s.me.begun || s1.passed))

/-- The A slot of a pair whose C slot completed with `s1`. One that blocks, or that waits for its own checks' sake, holds the pair; one that stalls
past its checks lets the C slot take effect (R149). -/
def State.second (a : Instr) (s s1 : State) : Host.Outcome State Fault Refusal :=
  slotEnd (exec a (s.beginA s1)) (fun s2 => .next s2.settle) (fun c s2 => .next ((s.keep s2).takeCond c)) fun w s2 =>
    if !w.blocking && s2.passed then .next (s.commitC s1 s2 a) else
    slotEnd (exec a s.beginAlone) (fun _ => .next (if w.blocking then (s.keep s2).enterWait w else s.commitC s1 s2 a))
      (fun _ _ => .next ((s.keep s2).enterWait w)) fun w' s3 =>
        if !w.blocking && !w'.blocking && s3.passed then .next (s.commitC s1 s2 a) else .next (s3.undo s s.me.begun)

/-- The conditions of both slots' checks, for R384. -/
def State.keepBoth (s s1 s2 : State) : State := s.keep { s1 with walkLog := s1.walkLog ++ s2.walkLog.drop s.walkLog.length }

/-- A pair, or a lone instruction, of the strand being stepped. A C slot that waits for its own checks' sake holds the pair; before one that waits
past them does anything that others can see, the A slot's checks come (R149, R383), and it begins nothing while the A slot blocks or its checks wait. -/
def State.runPair (p : Pair) (s : State) : Host.Outcome State Fault Refusal :=
  match p with
  | .lone i =>
    slotEnd (exec i s.beginC) (fun s1 => .next s1.settle) (fun _ s1 => .next s1) fun w s1 =>
      match s.beginC.lateOf s1 i w with
      | some l => .next (s1.putLate l).settle
      | none => .next (s1.undo s (s.me.begun || s1.passed))
  | .two c a =>
    slotEnd (exec c s.beginC) (s.second a) (fun _ s1 => .next s1) fun w s1 =>
      match s.beginC.lateOf s1 c w with
      | some l => s.second a (s1.putLate l)
      | none =>
        if s.me.begun || !s1.passed then .next (s1.undo s s.me.begun)
        else
          slotEnd (exec a s.beginAlone) (fun _ => .next (s1.undo s true)) (fun e s2 => .next ((s.keepBoth s1 s2).takeCond e)) fun w' s2 =>
            if s2.passed && !w'.blocking then .next (s1.undo s true) else .next (s2.undo s false)

/-! ### One step of a strand -/

/-- Whether the strand stands at a pair boundary: no request of the pair is on its way, no access of it has begun, and neither slot has taken
effect. -/
def Strand.atBoundary (t : Strand) : Bool := t.wait ≠ some .answer && t.parts.isEmpty && t.pieces.isEmpty && !t.inSecond

/-- The register lines that a pair names become the most recent of their sets (R34). -/
def State.touch (s : State) (p : Pair) : State :=
  let used (e : Key × Nat) : Bool := e.1 = s.me.key && (e.2 = 0 || (Pair.lines p).getLsbD e.2)
  s.modMyTile fun t => { t with rdir := t.rdir.filter used ++ t.rdir.filter fun e => !used e }

/-- The strand waits for a save area to be read back (R275). -/
def State.restoring (s : State) : Bool := (s.myTile.toRestore s.me.key).isSome

/-- The pair at the PC, with the events that come before it at a boundary (R372). -/
def State.pairStep (s : State) : Host.Outcome State Fault Refusal :=
  let t := s.me
  if t.state ≠ 1 then .next s
  else match (if t.inSecond then s.half.find? fun h => h.1.key = t.key else none) with
  | some (v, a) => s.stepHalf v a
  | none =>
  if t.atBoundary && !t.errs.isEmpty then .next s.takeErrs
  else if t.atBoundary && t.killed then
    if t.pendingEngines ≠ 0 then .next (s.enterWait (.handles t.pendingEngines))
    else
      let (s1, gone) := s.endKilled t
      .next (if gone then s1.noOne.evalBarriers else s1.enterWait .unit)
  else if t.leaving = some true then .next s.finishExit
  else if t.atBoundary && !s.resident t.key.asid && !pkOpen t.pkst then .next (s.parkAway t.key)
  else if s.restoring then .next (s.enterWait .line)
  else match s.fetch with
    | (.cond c, s1) => .next (s1.takeCond c)
    | (.miss _, s1) => .next (s1.enterWait .line)
    | (.stall, s1) => .next (s1.enterWait .unit)
    | (.words w0 w1, s1) =>
      match decodePair w0 w1 with
      | .error e => .next (s1.takeCond { code := ILLENC, tinfo := e.tinfo w0 w1 })
      | .ok p =>
        if s1.lacks p ≠ 0 then .next (s1.enterWait (((s1.wayWait s1.me (s1.lacks p)).map Wait.way).getD .line))
        else if s1.awaits p then .next (s1.enterWait .unit)
        else (s1.touch p).runPair p

/-! ### One step of a welt core -/

/-- A Burlia word: its instruction, or ILLOP (R300). -/
noncomputable def runBurlia (w : BitVec 32) (s : State) : Host.Outcome State Fault Refusal :=
  match decodeBurlia w with
  | some i => exec i s
  | none => .next { s.endKernel 7 (kernInfo 1 s.core.pc) with ended := .ok }

/-- What the compiler runs in its place: the same decoding, with each instruction's meaning for the instruction. -/
abbrev Run := State → Host.Outcome State Fault Refusal

def rBad : Run := fun s => .next { s.endKernel 7 (kernInfo 1 s.core.pc) with ended := .ok }
def rWhen (ok : Bool) (r : Run) : Run := fun s => if ok then r s else rBad s
def rTag (w : BitVec 32) (ok : Tag → Bool) (k : Tag → Run) : Run := fun s =>
  match wFmt w with
  | some f => if ok f then k f s else rBad s
  | none => rBad s
def rRnd (w : BitVec 32) (k : Rnd → Run) : Run := fun s =>
  match wRm w with
  | some r => k r s
  | none => rBad s

def runBurliaImpl (w : BitVec 32) (s : State) : Host.Outcome State Fault Refusal :=
  match wOp w with
  | 0x00 => rWhen (wZero w 25 0) execNop s
  | 0x01 => rWhen (wZero w 25 0) execHalt s
  | 0x02 => rWhen (wZero w 25 20) (execB (wOff w)) s
  | 0x03 => rWhen (wZero w 25 20) (execLoop (wOff w)) s
  | 0x04 => rWhen (wZero w 25 20) (execBcz (wOff w)) s
  | 0x05 => rWhen (wZero w 25 20) (execBcl (wOff w)) s
  | 0x06 => rWhen (wZero w 25 23) (execSetc (wImm w)) s
  | 0x07 => rWhen (wZero w 22 20 && wZero w 18 0) (execLdc (wA w) (wIa w)) s
  | 0x08 => rWhen (wZero w 22 18) (execPsets (wA w) (w.extractLsb' 0 18)) s
  | 0x09 => (execPstride (wA w) (wImm w)) s
  | 0x0A => (execPaddi (wA w) (wImm w)) s
  | 0x0B => rWhen (wZero w 18 0) (execPld (wA w) (wB w) (wIa w)) s
  | 0x0C => rWhen (wZero w 19 0) (execPmov (wA w) (wB w)) s
  | 0x0D => rWhen (wZero w 22 20 && wZero w 18 0) (execPost (wA w) (wIa w)) s
  | 0x0E => rWhen (wZero w 17 0) (execMov64 (wA w) (wB w) (wIa w) (wIb w)) s
  | 0x10 => rWhen (wZero w 25 18 && wZero w 12 0) (rTag w Tag.isWeltAcc fun f => execAzero f) s
  | 0x11 => rWhen (wZero w 22 20 && wZero w 18 18 && wZero w 12 0) (rTag w Tag.isWelt fun f => execAld (wA w) (wIa w) f) s
  | 0x12 => rWhen (wZero w 22 20 && wZero w 18 18 && wZero w 9 0) (rTag w Tag.isWelt fun f => rRnd w fun r => execAst (wA w) (wIa w) f r) s
  | 0x13 => rWhen (wZero w 22 20 && wZero w 18 18 && wZero w 9 0) (rTag w Tag.isWelt fun f => rRnd w fun r => execAadd (wA w) (wIa w) f r) s
  | 0x14 => rWhen (wZero w 22 20 && wZero w 18 18 && wZero w 12 0) (rTag w Tag.isWelt fun f => execAmax (wA w) (wIa w) f) s
  | 0x15 => rWhen (wZero w 22 20 && wZero w 18 18 && wZero w 12 0) (rTag w Tag.isWelt fun f => execAmin (wA w) (wIa w) f) s
  | 0x16 => rWhen (wZero w 9 0) (rTag w Tag.isWeltFloat fun f => rRnd w fun r => execAfma (wA w) (wB w) (wIa w) (wIb w) f r) s
  | 0x17 => rWhen (wZero w 22 20 && wZero w 18 13 && wZero w 9 0) (rRnd w fun r => execAscale (wA w) (wIa w) r) s
  | 0x18 => rWhen (wZero w 25 18 && wZero w 9 0) (rTag w Tag.isWeltAcc fun f => rRnd w fun r => execAcvt f r) s
  | 0x19 => rWhen (wZero w 18 18 && wZero w 9 0) (rTag w Tag.isWelt fun f => rRnd w fun r => execAddx (wA w) (wB w) (wIa w) f r) s
  | 0x1A => rWhen (wZero w 18 18 && wZero w 12 0) (rTag w Tag.isWelt fun f => execMaxx (wA w) (wB w) (wIa w) f) s
  | 0x20 => rWhen (wZero w 22 20 && wZero w 18 13 && wZero w 9 0) (rRnd w fun r => execFaddn (wA w) (wIa w) r) s
  | 0x21 => rWhen (wZero w 22 20 && wZero w 18 0) (execFmaxn (wA w) (wIa w)) s
  | 0x22 => rWhen (wZero w 18 13 && wZero w 9 0) (rRnd w fun r => execFaddnx (wA w) (wB w) (wIa w) r) s
  | 0x28 =>
    if wIb w then rWhen (wZero w 19 19 && wZero w 17 0) (execClampTwoBank (wA w) (wB w)) s
    else rWhen (wZero w 22 0) (execClamp (wA w)) s
  | 0x29 => rWhen (wZero w 25 0) execUnclamp s
  | 0x2A => rWhen (wZero w 22 20 && wZero w 18 0) (execRowzero (wA w) (wIa w)) s
  | 0x2B => rWhen (wZero w 17 0) (execRowcopy (wA w) (wB w) (wIa w) (wIb w)) s
  | _ => rBad s

/-- The meaning of what the decoder read. -/
noncomputable def runOpt (o : Option Instr) : Run := fun s =>
  match o with
  | some i => exec i s
  | none => rBad s

theorem runOpt_some (i : Instr) (s : State) : runOpt (some i) s = exec i s := rfl
theorem runOpt_none (s : State) : runOpt none s = rBad s := rfl

theorem runOpt_when (ok : Bool) (o : Option Instr) : runOpt (wWhen ok o) = rWhen ok (runOpt o) := by
  funext s; cases ok <;> rfl

theorem runOpt_tag (w : BitVec 32) (ok : Tag → Bool) (k : Tag → Option Instr) :
    runOpt (wTag w ok k) = rTag w ok fun f => runOpt (k f) := by
  funext s
  simp only [wTag, rTag]
  cases wFmt w with
  | none => rfl
  | some f => cases h : ok f <;> simp [h, runOpt_none]

theorem runOpt_rnd (w : BitVec 32) (k : Rnd → Option Instr) : runOpt (wRnd w k) = rRnd w fun r => runOpt (k r) := by
  funext s
  simp only [wRnd, rRnd]
  cases wRm w <;> rfl

@[csimp] theorem runBurlia_eq : @runBurlia = @runBurliaImpl := by
  funext w s
  show runOpt (decodeBurlia w) s = runBurliaImpl w s
  unfold decodeBurlia runBurliaImpl
  generalize hn : wOp w = n
  split
  all_goals first
    | (simp only [runOpt_when, runOpt_tag, runOpt_rnd]; rfl)
    | exact runOpt_some _ _
    | exact runOpt_none _
    | (split <;> (simp only [runOpt_when]; rfl))

/-- The word at the core's pc (R296). -/
def Core.word (c : Core) : BitVec 32 := BitVec.ofNat 32 (Mem.readN c.sram c.pc.toNat 4)

/-- The next instruction of the core being stepped, or the end that it meets at this boundary (R316, R317, R296). -/
def State.coreStep (s : State) : Host.Outcome State Fault Refusal :=
  match s.core.kern with
  | none => .next s
  | some k =>
    if s.core.ends.isSome then .next s
    else if k.cancel then .next (s.endKernel 1 s.core.writes)
    else if k.unmapped then .next (s.endKernel 7 (kernInfo 7 s.core.pc))
    else if s.core.waiting then .next s
    else if 0x20000 ≤ s.core.pc.toNat then .next (s.endKernel 7 (kernInfo 5 s.core.pc))
    else runBurlia s.core.word s

/-! ### One entry of the schedule -/

def onNext (f : State → State) (o : Host.Outcome State Fault Refusal) : Host.Outcome State Fault Refusal :=
  match o with
  | .next s => .next (f s)
  | o => o

def State.stepCore (s : State) (n : Nat) : Host.Outcome State Fault Refusal := onNext State.unloadCore (s.loadCore n).coreStep

def State.stepStrand (s : State) (key : Key) : Host.Outcome State Fault Refusal :=
  match s.strand? key with
  | some t => onNext (s.load t).stay (s.load t).pairStep
  | none => .next s

/-- An L2 line leaves its slice (R112); a dirty line of a clamped bank stays (R142). -/
def State.displace (s : State) (line : Nat) : State := if s.clamped (line * 128) then s else s.homeClean line false

/-- A strand of the tile that has a pair ready to issue: none that a line of the register cache or the instruction cache still misses (R40). -/
def State.issues (s : State) (t : Strand) : Bool := t.state = 1 && t.wait.all fun w => w ≠ .line && (!w.blocking || s.waitOver t w)

/-- The strands that the issue engine selects: up to two, in slot order from the one after the last selected (R40). -/
def State.selected (s : State) (tile : Nat) (stalled : BitVec 16) : List (Fin 16 × Key) :=
  let u := s.tile tile
  ((List.range 16).filterMap fun i =>
    let n : Fin 16 := Fin.ofNat 16 (u.lastSlot.val + 1 + i)
    if stalled.getLsbD n.val then none
    else (s.strands.find? fun t => t.tile.toNat = tile && t.slot = some n && s.issues t).map fun t => (n, t.key)).take 2

/-- After every step: the stepped strand is among the others again, regions change owners that nothing uses (R109), and strands whose events
have happened become ready. -/
def State.rest (s : State) : State := s.unload.giveRegions.wakeAll

/-- Before every step. -/
def State.fresh (s : State) : State := { s with walkLog := [], ended := .ok, part := none, pieceNo := 0, onLinks := false, passed := false }

/-- The selected strands issue one after the other. -/
def State.stepSelected (s : State) (tile : Nat) : List (Fin 16 × Key) → Host.Outcome State Fault Refusal
  | [] => .next s
  | (n, key) :: r =>
    match (s.modTile tile fun u => { u with lastSlot := n }).stepStrand key with
    | .next s1 => if r.isEmpty then .next s1 else s1.rest.fresh.stepSelected tile r
    | o => o

/-- The slot of a strand that issues is the last selected (R40). -/
def State.noteSlot (s : State) (key : Key) : State :=
  match s.strand? key with
  | some t => match t.slot with
    | some n => s.modTile t.tile.toNat fun u => { u with lastSlot := n }
    | none => s
  | none => s

def State.choose (s : State) (c : Choice) : Host.Outcome State Fault Refusal :=
  match c with
  | .strand key => (s.noteSlot key).stepStrand key
  | .select tile stalled => s.stepSelected tile.toNat (s.selected tile.toNat stalled)
  | .sent key => ({ s.noteSlot key with onLinks := true } : State).stepStrand key
  | .sentEvent i => if i.kind = .event then exec i { s with onLinks := true } else .next s
  | .piece key n => ({ s.noteSlot key with part := some n } : State).stepStrand key
  | .copyIssue tile => .next (match firstIdx (fun c => c.stop.isNone) (s.tile tile.toNat).copies with
    | some i => s.copyIssue tile.toNat i
    | none => s)
  | .copyWrite tile i n => .next (s.copyWrite tile.toNat i n)
  | .slotOpen i => .next (s.slotOpen i)
  | .slotWord tile idx n => .next (s.slotWord tile.toNat idx.val n.val)
  | .mmaRead tile g => .next (s.mmaRead tile.toNat g.toNat)
  | .core st n => s.stepCore (st.val * 16 + n.val)
  | .event i => if i.kind = .event then exec i s else .next s
  | .pass tile n => .next (s.pass tile.toNat n)
  | .displace line => .next (s.displace line)
  | .soft e => .next (s.soft e)

/-- What happens next with an empty schedule (log 1). -/
def State.byTurn (s : State) : Host.Outcome State Fault Refusal :=
  match s.turn with
  | .strand key => if ((s.strand? key).any fun t => t.state = 1) then (s.noteSlot key).stepStrand key else .fault .idle
  | .core st n => if (s.coreOf (st.val * 16 + n.val)).kern.isSome then s.stepCore (st.val * 16 + n.val) else .fault .idle
  | .none =>
    match s.phase with
    | .off => execPowerOn [] s
    | .recovery => .fault .recovery
    | _ => .fault .idle

end Sys2Proof.Machine
end

