-- ==== Sys2Proof/Machine/Step.lean ====
section
/-!
DEFINITION. One step of the cube, and the state in which a given instruction is the next to run.
-/

namespace Sys2Proof.Machine

/-- One step: the next entry of the schedule; with none left, the agent whose turn it is, or the power-on (log 1). -/
def step (s : State) : Host.Outcome State Fault Refusal :=
  onNext State.rest
    (match s.schedule with
    | c :: r => ({ s.fresh with schedule := r } : State).choose c
    | [] => s.fresh.byTurn)

/-- The kernel on whose core `withFetchWord` places a Burlia word. -/
def fetchKernel : Kernel :=
  { asid := 1, tile := 0, key := { asid := 1, handle := 1 }, kreg := 0, seq := 0, stack := 0, image := 0, imageEnd := 0x10000,
    ranges := [], segs := [], args := [], supv := false }

/-- A running core with a word at its pc. -/
def Core.withWord (c : Core) (w : Nat) : Core :=
  let pc : BitVec 18 := if c.pc.toNat < 0x20000 then c.pc else 0
  { c with
    pc := pc, sram := Mem.writeN c.sram pc.toNat 4 w, kern := some { c.kern.getD fetchKernel with cancel := false, unmapped := false },
    waiting := false, ends := none }

/-- An active strand whose frame lies in its register cache, about to execute address 0 of its space. -/
def fetchStrand : Strand :=
  { Strand.reset with key := { asid := 1, handle := 1 }, state := 1, slot := some 0, present := BitVec.allOnes 32 }

/-- The leaf of `fetchStrand`'s page 0: V, LEAF, W, X and CH, onto the package's first page. -/
def fetchLeaf (s : State) : Word := BitVec.ofNat 64 (s.pkgid.toNat * 2 ^ Config.pkgShift + 0x2F)

/-- An instruction of at most 32 bits is a Burlia word on core 0 of stack 0; a longer one is a Dweyryn pair of a strand on tile 0,
in its instruction cache and in memory. -/
def State.withFetchWord (s : State) (nbits w : Nat) : State :=
  if nbits ≤ 32 then
    { s.setCore 0 ((s.coreOf 0).withWord (w % 2 ^ nbits)) with schedule := [], turn := .core 0 0, phase := .running }
  else
    let x := w % 2 ^ nbits % 2 ^ 64
    let pa := s.pkgid.toNat * 2 ^ Config.pkgShift
    let s1 := (s.putStrand fetchStrand).modTile 0 fun t =>
      { t with
        tlb1 := { asid := 1, size := 0, page := 0, leaf := fetchLeaf s } :: t.tlb1
        icache := icachePut (pa / 128) (BitVec.ofNat 1024 x) t.icache }
    { s1 with mem := Mem.writeN s1.mem pa 8 x, schedule := [], turn := .strand fetchStrand.key, phase := .running }

end Sys2Proof.Machine
end

