-- ==== Sys2Proof/Safety.lean ====
section
/-!
DEFINITION. What counts as a safe state and a safe step.
-/

namespace Sys2Proof.Machine

/-- Device memory, the scratchpads and the SRAMs of the welt cores are in their canonical form. -/
def State.memWf (s : State) : Prop :=
  Mem.wf s.mem = true ∧ (∀ e ∈ s.tiles, Mem.wf e.2.scratch = true) ∧ (∀ e ∈ s.cores, Mem.wf e.2.sram = true) ∧ Mem.wf s.core.sram = true

/-- A step that goes on. -/
def Goes (s : State) : Prop := ∃ t, step s = .next t

end Sys2Proof.Machine
end

