-- ==== Sys2Proof/Certificates/Slice0/Obligations.lean ====
section
/-!
DEFINITION. The statements for the provers, each from the numbered rules that its docstring names. The definitions before them say in the
manual's own arithmetic what an instruction's column computes; hypotheses on the result of an access say that the checks and the
translation that the manual puts before an instruction's effect let it through.
-/

namespace Sys2Proof.Machine

/-! ### What the manual's columns compute, as integers -/

/-- Leading zero bits of a word (R171). -/
def leadingZeros (x : Word) : Nat := ((List.range 64).takeWhile fun n => !x.getLsbD (63 - n)).length
/-- Trailing zero bits of a word (R171). -/
def trailingZeros (x : Word) : Nat := ((List.range 64).takeWhile fun n => !x.getLsbD n).length
/-- One bits of a word (R171). -/
def oneBits (x : Word) : Nat := ((List.range 64).filter fun n => x.getLsbD n).length
/-- The eight bytes of a word in reverse order, as a number (R171). -/
def reversedBytes (x : Word) : Nat := ((List.range 8).map fun n => x.toNat / 256 ^ n % 256 * 256 ^ (7 - n)).sum

/-- OPI's operand I as an integer (R173). -/
def immInt {w : Nat} : Imm w → Int
  | .fld x => x.toInt
  | .lit x => x.toInt

def bool01 (p : Prop) [Decidable p] : Int := if p then 1 else 0

/-- The destination and the integer whose low 64 bits it takes, for the scalar integer instructions but the divisions
(R171, R173–R176). -/
def scalarResult (i : Instr) (g : GReg → Word) : Option (GReg × Int) :=
  let U (r : GReg) : Int := (g r).toNat
  let S (r : GReg) : Int := (g r).toInt
  let sh (r : GReg) : Nat := (g r).toNat % 64
  let bf (r : GReg) (p len : Nat) : Nat := (g r).toNat / 2 ^ p % 2 ^ len
  match i with
  | .add d a b => some (d, U a + U b)
  | .sub d a b => some (d, U a - U b)
  | .and d a b => some (d, (g a &&& g b).toNat)
  | .or d a b => some (d, (g a ||| g b).toNat)
  | .xor d a b => some (d, (g a ^^^ g b).toNat)
  | .andn d a b => some (d, (g a &&& ~~~ (g b)).toNat)
  | .orn d a b => some (d, (g a ||| ~~~ (g b)).toNat)
  | .sll d a b => some (d, U a * 2 ^ sh b)
  | .srl d a b => some (d, U a / 2 ^ sh b)
  | .sra d a b => some (d, S a / 2 ^ sh b)
  | .rol d a b => some (d, U a * 2 ^ sh b + U a / 2 ^ (64 - sh b))
  | .ror d a b => some (d, U a / 2 ^ sh b + U a * 2 ^ (64 - sh b))
  | .min d a b => some (d, min (S a) (S b))
  | .max d a b => some (d, max (S a) (S b))
  | .minu d a b => some (d, min (U a) (U b))
  | .maxu d a b => some (d, max (U a) (U b))
  | .slt d a b => some (d, bool01 (S a < S b))
  | .sltu d a b => some (d, bool01 (U a < U b))
  | .seq d a b => some (d, bool01 (g a = g b))
  | .sne d a b => some (d, bool01 (g a ≠ g b))
  | .mul d a b => some (d, S a * S b)
  | .mulh d a b => some (d, S a * S b / 2 ^ 64)
  | .mulhu d a b => some (d, U a * U b / 2 ^ 64)
  | .clz d a => some (d, leadingZeros (g a))
  | .ctz d a => some (d, trailingZeros (g a))
  | .popc d a => some (d, oneBits (g a))
  | .rev d a => some (d, reversedBytes (g a))
  | .addi d a i => some (d, U a + immInt i)
  | .andi d a i => some (d, (g a &&& BitVec.ofInt 64 (immInt i)).toNat)
  | .ori d a i => some (d, (g a ||| BitVec.ofInt 64 (immInt i)).toNat)
  | .xori d a i => some (d, (g a ^^^ BitVec.ofInt 64 (immInt i)).toNat)
  | .slti d a i => some (d, bool01 (S a < immInt i))
  | .sltiu d a i => some (d, bool01 (U a < (BitVec.ofInt 64 (immInt i)).toNat))
  | .slli d a i => some (d, U a * 2 ^ (immInt i).toNat)
  | .srli d a i => some (d, U a / 2 ^ (immInt i).toNat)
  | .srai d a i => some (d, S a / 2 ^ (immInt i).toNat)
  | .lhi d a i => some (d, immInt i % 2 ^ 32 * 2 ^ 32 + U a % 2 ^ 32)
  | .extu d a p l => some (d, bf a p.toNat (l.toNat + 1))
  | .exts d a p l =>
    let t : Int := bf a p.toNat (l.toNat + 1)
    some (d, if 2 ^ l.toNat ≤ t then t - 2 ^ (l.toNat + 1) else t)
  | .ins d a p l => some (d, U d - bf d p.toNat (l.toNat + 1) * 2 ^ p.toNat + U a % 2 ^ (l.toNat + 1) * 2 ^ p.toNat)
  | .csel d a b c => some (d, if g c ≠ 0 then U a else U b)
  | .madd d a b c => some (d, U a * U b + U c)
  | .msub d a b c => some (d, U c - U a * U b)
  | _ => none

/-- The quotient and the remainder of R172, as it writes them. -/
def divide (x y : Int) : Int × Int := if y = 0 then (-1, x) else (x.tdiv y, x - y * x.tdiv y)

/-- The four divisions: destination, lookahead, result (R172). -/
def divResult (i : Instr) (g : GReg → Word) : Option (GReg × La × Int) :=
  let U (r : GReg) : Int := (g r).toNat
  let S (r : GReg) : Int := (g r).toInt
  match i with
  | .div d a b la => some (d, la, (divide (S a) (S b)).1)
  | .divu d a b la => some (d, la, (divide (U a) (U b)).1)
  | .rem d a b la => some (d, la, (divide (S a) (S b)).2)
  | .remu d a b la => some (d, la, (divide (U a) (U b)).2)
  | _ => none

/-- What a scalar floating instruction rounds: destination, format, mode, lookahead and the exact result (R178, R179). -/
def floatResult (i : Instr) (g : GReg → Word) : Option (GReg × Fmt × Rnd × La × Val) :=
  let D (r : GReg) : Val := fmtF64.val (g r).toNat
  let F (r : GReg) : Val := fmtF32.val ((g r).toNat % 2 ^ 32)
  match i with
  | .faddF64 d a b rm => some (d, fmtF64, rm, 0, (D a).add rm (D b))
  | .fsubF64 d a b rm => some (d, fmtF64, rm, 0, (D a).sub rm (D b))
  | .fmulF64 d a b rm => some (d, fmtF64, rm, 0, (D a).mul (D b))
  | .fdivF64 d a b rm la => some (d, fmtF64, rm, la, (D a).div (D b))
  | .fsqrtF64 d a rm la => some (d, fmtF64, rm, la, (D a).sqrt)
  | .fmaddF64 d a b c rm => some (d, fmtF64, rm, 0, ((D a).mul (D b)).add rm (D c))
  | .fmsubF64 d a b c rm => some (d, fmtF64, rm, 0, ((D a).mul (D b)).sub rm (D c))
  | .faddF32 d a b rm => some (d, fmtF32, rm, 0, (F a).add rm (F b))
  | .fsubF32 d a b rm => some (d, fmtF32, rm, 0, (F a).sub rm (F b))
  | .fmulF32 d a b rm => some (d, fmtF32, rm, 0, (F a).mul (F b))
  | .fdivF32 d a b rm la => some (d, fmtF32, rm, la, (F a).div (F b))
  | .fsqrtF32 d a rm la => some (d, fmtF32, rm, la, (F a).sqrt)
  | .fmaddF32 d a b c rm => some (d, fmtF32, rm, 0, ((F a).mul (F b)).add rm (F c))
  | .fmsubF32 d a b c rm => some (d, fmtF32, rm, 0, ((F a).mul (F b)).sub rm (F c))
  | _ => none

/-- The class bit of R180, from the code's sign, exponent and fraction fields. -/
def classOf (f : Fmt) (c : Nat) : Nat :=
  let neg := c / 2 ^ (f.w - 1) % 2 = 1
  let e := c / 2 ^ f.m % 2 ^ (f.w - 1 - f.m)
  let fr := c % 2 ^ f.m
  if e = 2 ^ (f.w - 1 - f.m) - 1 then
    if fr = 0 then (if neg then 0 else 7) else if 2 ^ (f.m - 1) ≤ fr then 9 else 8
  else if e = 0 then
    if fr = 0 then (if neg then 3 else 4) else (if neg then 2 else 5)
  else (if neg then 1 else 6)

/-- Results of major 0x10 and of `fmin` and `fmax`, as numbers: destination and value (R178, R180). -/
def signResult (i : Instr) (g : GReg → Word) : Option (GReg × Nat) :=
  let D (r : GReg) : Nat := (g r).toNat
  let F (r : GReg) : Nat := (g r).toNat % 2 ^ 32
  let lt (f : Fmt) (x y : Nat) : Bool := (f.val x).lt (f.val y)
  let eq (f : Fmt) (x y : Nat) : Bool := (f.val x).eq (f.val y)
  let neg (f : Fmt) (x : Nat) : Nat := if (f.val x).isNan then f.nan.getD 0 else (x + 2 ^ (f.w - 1)) % 2 ^ f.w
  let abs (f : Fmt) (x : Nat) : Nat := if (f.val x).isNan then f.nan.getD 0 else x % 2 ^ (f.w - 1)
  let min (f : Fmt) (x y : Nat) : Nat := if (f.val x).isNan || (f.val y).isNan then f.nan.getD 0 else if (f.val y).below (f.val x) then y else x
  let max (f : Fmt) (x y : Nat) : Nat := if (f.val x).isNan || (f.val y).isNan then f.nan.getD 0 else if (f.val x).below (f.val y) then y else x
  match i with
  | .feqF64 d a b => some (d, (eq fmtF64 (D a) (D b)).toNat)
  | .fltF64 d a b => some (d, (lt fmtF64 (D a) (D b)).toNat)
  | .fleF64 d a b => some (d, (lt fmtF64 (D a) (D b) || eq fmtF64 (D a) (D b)).toNat)
  | .fclassF64 d a => some (d, 2 ^ classOf fmtF64 (D a))
  | .fnegF64 d a => some (d, neg fmtF64 (D a))
  | .fabsF64 d a => some (d, abs fmtF64 (D a))
  | .fminF64 d a b => some (d, min fmtF64 (D a) (D b))
  | .fmaxF64 d a b => some (d, max fmtF64 (D a) (D b))
  | .feqF32 d a b => some (d, (eq fmtF32 (F a) (F b)).toNat)
  | .fltF32 d a b => some (d, (lt fmtF32 (F a) (F b)).toNat)
  | .fleF32 d a b => some (d, (lt fmtF32 (F a) (F b) || eq fmtF32 (F a) (F b)).toNat)
  | .fclassF32 d a => some (d, 2 ^ classOf fmtF32 (F a))
  | .fnegF32 d a => some (d, neg fmtF32 (F a))
  | .fabsF32 d a => some (d, abs fmtF32 (F a))
  | .fminF32 d a b => some (d, min fmtF32 (F a) (F b))
  | .fmaxF32 d a b => some (d, max fmtF32 (F a) (F b))
  | _ => none

/-- `s` after an instruction that completed with the effect `t`. -/
def Completes (i : Instr) (s t : State) : Prop := exec i s = .next { t with ended := .ok }

/-- No register of any strand differs. -/
def SameStrands (s t : State) : Prop := t.me = s.me ∧ t.strands = s.strands

/-- Where a branch goes when it holds, and whether it holds (R182). -/
def branchOf (i : Instr) (g : GReg → Word) : Option (Bool × Imm 12) :=
  match i with
  | .beq a b off => some (decide ((g a).toNat = (g b).toNat), off)
  | .bne a b off => some (decide ((g a).toNat ≠ (g b).toNat), off)
  | .blt a b off => some (decide ((g a).toInt < (g b).toInt), off)
  | .bge a b off => some (decide ((g b).toInt ≤ (g a).toInt), off)
  | .bltu a b off => some (decide ((g a).toNat < (g b).toNat), off)
  | .bgeu a b off => some (decide ((g b).toNat ≤ (g a).toNat), off)
  | _ => none


/-! ### Vector lanes -/

/-- The LFSR after `n` SR roundings; another mode takes no step (R74). -/
def seedAfter (rm : Rnd) (l : BitVec 32) : Nat → BitVec 32
  | 0 => l
  | n + 1 => lfsrAfter rm (seedAfter rm l n)

/-- How many of the lanes below `n` are switched on. -/
def onBelow (on : Nat → Bool) (n : Nat) : Nat := ((List.range n).filter on).length

/-- An elementwise instruction: its registers, mask and rounding mode, the tags it accepts, whether vb's tag must be va's, whether
vd is a source, and a lane's result from the tag, the LFSR after the lane's step, and the lanes of va, vb and vd. -/
structure Elementwise where
  d : VReg
  a : VReg
  b : VReg
  m : MReg
  rm : Rnd := .rne
  ok : Tag → Bool
  same : Bool
  fused : Bool := false
  out : Tag → BitVec 32 → Nat → Nat → Nat → Nat

/-- Integer tags wrap the exact integer; floating tags round the exact value (R257). -/
def roundedLane (rm : Rnd) (f : Val → Val → Val) (g : Int → Int → Int) (t : Tag) (l : BitVec 32) (x y : Nat) : Nat :=
  if Tag.isInt t then (BitVec.ofInt (Tag.width t) (g (intLane t x) (intLane t y))).toNat
  else match Tag.fmt? t with
    | some fm => fm.round false rm l (f (fm.val x) (fm.val y))
    | none => 0

/-- Floating tags only, vd a source or not (R258). -/
def fusedLane (rm : Rnd) (f : Val → Val → Val → Val) (t : Tag) (l : BitVec 32) (x y z : Nat) : Nat :=
  match Tag.fmt? t with
  | some fm => fm.round false rm l (f (fm.val x) (fm.val y) (fm.val z))
  | none => 0

/-- Integer tags by the integers' order, floating tags by codes (R257, R72). -/
def chosenLane (g : Int → Int → Int) (f : Fmt → Nat → Nat → Nat) (t : Tag) (x y : Nat) : Nat :=
  match Tag.fmt? t with
  | some fm => f fm x y
  | none => (BitVec.ofInt (Tag.width t) (g (intLane t x) (intLane t y))).toNat

def saturated (t : Tag) (x : Int) : Nat :=
  match Tag.int? t with
  | some (true, w) => (BitVec.ofInt w (max (-2 ^ (w - 1)) (min (2 ^ (w - 1) - 1) x))).toNat
  | some (false, w) => (BitVec.ofInt w (max 0 (min (2 ^ w - 1) x))).toNat
  | none => 0

/-- Majors 0x18 and 0x19, `vmov` (R257, R258, R261). -/
def elementwise (i : Instr) : Option Elementwise :=
  let any : Tag → Bool := fun _ => true
  match i with
  | .vadd d a b m rm => some { d, a, b, m, rm, ok := Tag.isNum, same := true, out := fun t l x y _ => roundedLane rm (Val.add rm) (· + ·) t l x y }
  | .vsub d a b m rm => some { d, a, b, m, rm, ok := Tag.isNum, same := true, out := fun t l x y _ => roundedLane rm (Val.sub rm) (· - ·) t l x y }
  | .vmul d a b m rm => some { d, a, b, m, rm, ok := Tag.isNum, same := true, out := fun t l x y _ => roundedLane rm Val.mul (· * ·) t l x y }
  | .vmin d a b m => some { d, a, b, m, ok := Tag.isNum, same := true, out := fun t _ x y _ => chosenLane min Fmt.minCode t x y }
  | .vmax d a b m => some { d, a, b, m, ok := Tag.isNum, same := true, out := fun t _ x y _ => chosenLane max Fmt.maxCode' t x y }
  | .vabs d a m => some { d, a, b := a, m, ok := Tag.isNum, same := false, out := fun t _ x _ _ => chosenLane (fun v _ => max v (-v)) (fun f c _ => f.absCode c) t x x }
  | .vneg d a m => some { d, a, b := a, m, ok := Tag.isNum, same := false, out := fun t _ x _ _ => chosenLane (fun v _ => -v) (fun f c _ => f.negCode c) t x x }
  | .vaddsat d a b m => some { d, a, b, m, ok := Tag.isInt, same := true, out := fun t _ x y _ => saturated t (intLane t x + intLane t y) }
  | .vsubsat d a b m => some { d, a, b, m, ok := Tag.isInt, same := true, out := fun t _ x y _ => saturated t (intLane t x - intLane t y) }
  | .vmulh d a b m =>
    some { d, a, b, m, ok := Tag.isInt, same := true, out := fun t _ x y _ => (BitVec.ofInt (Tag.width t) (intLane t x * intLane t y / 2 ^ Tag.width t)).toNat }
  | .vand d a b m => some { d, a, b, m, ok := any, same := false, out := fun t _ x y _ => cleanLane t (x &&& y) }
  | .vor d a b m => some { d, a, b, m, ok := any, same := false, out := fun t _ x y _ => cleanLane t (x ||| y) }
  | .vxor d a b m => some { d, a, b, m, ok := any, same := false, out := fun t _ x y _ => cleanLane t (x ^^^ y) }
  | .vsll d a b m => some { d, a, b, m, ok := Tag.isInt, same := true, out := fun t _ x y _ => x * 2 ^ (y % Tag.width t) }
  | .vsrl d a b m => some { d, a, b, m, ok := Tag.isInt, same := true, out := fun t _ x y _ => x / 2 ^ (y % Tag.width t) }
  | .vsra d a b m =>
    some { d, a, b, m, ok := Tag.isInt, same := true, out := fun t _ x y _ => (BitVec.ofInt (Tag.width t) (intLane t x / 2 ^ (y % Tag.width t))).toNat }
  | .vfma d a b m rm => some { d, a, b, m, rm, ok := Tag.isFloat, same := true, fused := true, out := fusedLane rm fun x y z => (x.mul y).add rm z }
  | .vfms d a b m rm => some { d, a, b, m, rm, ok := Tag.isFloat, same := true, fused := true, out := fusedLane rm fun x y z => (x.mul y).sub rm z }
  | .vfnma d a b m rm => some { d, a, b, m, rm, ok := Tag.isFloat, same := true, fused := true, out := fusedLane rm fun x y z => z.sub rm (x.mul y) }
  | .vdiv d a b m rm => some { d, a, b, m, rm, ok := Tag.isFloat, same := true, out := fusedLane rm fun x y _ => x.div y }
  | .vsqrt d a m rm => some { d, a, b := a, m, rm, ok := Tag.isFloat, same := false, out := fusedLane rm fun x _ _ => x.sqrt }
  | .vmov d a m => some { d, a, b := a, m, ok := any, same := false, out := fun t _ x _ _ => cleanLane t x }
  | _ => none

/-- A vector compare: mask register, sources, mask, and the condition on integers and on floating values (R259). -/
def vectorCompare (i : Instr) : Option (MReg × VReg × VReg × MReg × (Int → Int → Bool) × (Val → Val → Bool)) :=
  match i with
  | .vceq d a b m => some (d, a, b, m, fun x y => decide (x = y), Val.eq)
  | .vcne d a b m => some (d, a, b, m, fun x y => decide (x ≠ y), fun x y => !x.eq y)
  | .vclt d a b m => some (d, a, b, m, fun x y => decide (x < y), Val.lt)
  | .vcle d a b m => some (d, a, b, m, fun x y => decide (x ≤ y), fun x y => x.lt y || x.eq y)
  | .vcun d a b m => some (d, a, b, m, fun _ _ => false, fun x y => x.isNan || y.isNan)
  | _ => none

/-- Mask logic, bit by bit (R260). -/
def maskLogic (i : Instr) (m : MReg → MaskV) : Option (MReg × (Nat → Bool)) :=
  match i with
  | .mand d a b => some (d, fun n => (m a).getLsbD n && (m b).getLsbD n)
  | .mor d a b => some (d, fun n => (m a).getLsbD n || (m b).getLsbD n)
  | .mxor d a b => some (d, fun n => (m a).getLsbD n != (m b).getLsbD n)
  | .mandn d a b => some (d, fun n => (m a).getLsbD n && !(m b).getLsbD n)
  | .mnot d a => some (d, fun n => !(m a).getLsbD n)
  | _ => none

/-- Lane moves that take any lane of va or vb: registers, and for lane i of n the source (true: vb) and its lane (R267). -/
def laneMove (i : Instr) (g : GReg → Word) : Option (VReg × VReg × VReg × (Nat → Nat → Bool × Nat)) :=
  match i with
  | .vzipl d a b => some (d, a, b, fun _ i => (decide (i % 2 = 1), i / 2))
  | .vziph d a b => some (d, a, b, fun n i => (decide (i % 2 = 1), n / 2 + i / 2))
  | .vunzip d a b => some (d, a, b, fun n i => if i < n / 2 then (false, 2 * i) else (true, 2 * i - n))
  | .vrotl d a b => some (d, a, a, fun n i => (false, (i + (g b).toNat) % n))
  | _ => none

/-- The conversions of R262: registers, tag, mask, mode, part, saturating. -/
def conversion (i : Instr) : Option (VReg × VReg × Tag × MReg × Rnd × Nat × Bool) :=
  match i with
  | .vcvt d a t m rm p => some (d, a, t, m, rm, p.toNat, false)
  | .vcvtSat d a t m rm p => some (d, a, t, m, rm, p.toNat, true)
  | _ => none

/-- R85's tree over a list whose length is a power of two: halves of neighbours, then the same on their results. -/
def pairUp {α : Type} (f : α → α → α) : List α → List α
  | x :: y :: r => f x y :: pairUp f r
  | l => l
def treeFold {α : Type} (f : α → α → α) : Nat → List α → List α
  | 0, l => l
  | n + 1, l => treeFold f n (pairUp f l)

/-- `vredmax` and `vredmin`: registers, mask, the choice among integers and among codes, and the identities (R85, R269). -/
def orderReduction (i : Instr) : Option (GReg × VReg × MReg × (Int → Int → Int) × (Bool → Nat → Int) × (Fmt → Nat → Nat → Nat) × (Fmt → Nat)) :=
  match i with
  | .vredmax d a m => some (d, a, m, max, fun sg w => if sg then -2 ^ (w - 1) else 0, Fmt.maxCode', fun f => 2 ^ (f.w - 1) + f.maxCode + 1)
  | .vredmin d a m => some (d, a, m, min, fun sg w => if sg then 2 ^ (w - 1) - 1 else 2 ^ w - 1, Fmt.minCode, fun f => f.maxCode + 1)
  | _ => none

/-- The scale exponent of R79 for block b of the values v, none a NaN or an infinity: -127 for zeros; else with 2^E at most the largest magnitude and
2^(E + 1) above it, E less the format's EMAX, kept within -127 to 127. -/
def BlockScale (t : Tag) (v : Nat → Val) (b : Nat) (sx : Int) : Prop :=
  let emax : Int := match t with
    | .e4m3 => 8
    | .e5m2 => 15
    | .e3m2 => 4
    | _ => 2
  let size (x : Val) : Val := match x with
    | .fin _ m e _ => .fin false m e
    | x => x
  ((∀ n, n / 24 = b → (v n).eq (.fin false 0 0) = true) → sx = -127) ∧
  ∀ E : Int, (∃ n, n / 24 = b ∧ (size (v n)).lt (.fin false 1 E) = false) → (∀ n, n / 24 = b → (size (v n)).lt (.fin false 1 (E + 1)) = true) →
    sx = max (-127) (min 127 (E - emax))


/-- A register's contents, as a number (R29, R205–R209). -/
def srContents (r : SReg) (s : State) : Nat :=
  match r with
  | .stat => s.src.state.toNat + 2 ^ 6 * s.src.intrap.toNat + 2 ^ 7 * s.src.supv.toNat + 2 ^ 16 * s.src.qheld.toNat
  | .tcause => s.src.tcause.toNat
  | .tinfo => s.src.tinfo.toNat
  | .taddr => s.src.taddr.toNat
  | .trappc => s.src.trappc.toNat
  | .cyc => (s.tile s.me.tile.toNat).cyc.toNat
  | .wdogt => (s.tile s.me.tile.toNat).wdogt.toNat
  | .dord => (s.tile s.me.tile.toNat).dord.toNat
  | .tallow =>
    let y := s.layer (s.me.tile.toNat / 64)
    2 ^ 8 * y.temp.toNat + 2 ^ 16 * y.allow.toNat + 2 ^ 32 * y.clk.toNat
  | .cgrp => s.src.cgrp.toNat
  | .prio => s.src.prio.toNat
  | .ctablo => s.src.ctab.toNat % 2 ^ 64
  | .ctabhi => s.src.ctab.toNat / 2 ^ 64
  | .dom => s.src.dom.toNat
  | .tvec => s.src.tvec.toNat
  | .lfsr => s.src.lfsr.toNat
  | .tileid => 2 ^ 16 * s.src.key.asid.toNat + s.me.tile.toNat
  | .home => s.src.home.toNat

/-- What a special register holds after a write of x over `old` (R206). -/
def srKeeps (r : SReg) (old x : Word) : Word :=
  match r with
  | .tcause => x &&& 0xFFFF
  | .trappc | .tvec => x &&& ~~~ 7
  | .wdogt => x &&& 0xFFFFFFFFFF
  | .dord => (writeDord (old.setWidth 18) x).setWidth 64
  | .cgrp => x &&& 0xFF
  | .prio => x &&& 3
  | .dom => x &&& domMask
  | .lfsr => x &&& 0xFFFFFFFF
  | .home => x &&& ~~~ 63
  | .tinfo | .taddr | .ctablo | .ctabhi => x
  | .stat | .cyc | .tallow | .tileid => old


/-! ### Accesses of a strand -/

/-- The `n` bytes at `a`, of which the address must be a multiple of `align`, can be loaded: they are `x`, none uncorrectable, and
the caches are then as in `s1`. -/
def Loads (s s1 : State) (a : Word) (n align x : Nat) : Prop :=
  ∃ l s', check s.whoLoad a n align s = .ok l s' ∧ memLoad s'.whoLoad l s' = .ok { val := x, bad := false } s1

/-- The checks of an instruction pass, or its access has begun with those pieces; what it does now may be seen by others. -/
def Checked (s s1 : State) (m : M (List (List Piece))) (l : List (List Piece)) : Prop := toBegin m s = .ok l s1

/-- The `n` bytes at `a` can be stored, and `s1` is the state with `v` in them. -/
def Stores (s s1 : State) (a : Word) (n align v : Nat) : Prop :=
  ∃ l s', Checked s s' (do return [← check s.whoStore a n align]) [l] ∧ memStore s'.whoStore l v s' = .ok () s1

/-- A plain load: address, bytes, and the register write of what it reads (R212, R214, R215). -/
def plainLoad (i : Instr) (s : State) : Option (Word × Nat × (Nat → State → State)) :=
  match i with
  | .ld d a dsp ty la => some (s.g a + disp dsp (ldBytes ty), ldBytes ty, fun x t => t.setGLa d la (ldExtend ty x))
  | .vld d a dsp tag la => some (s.g a + disp dsp 128, 128, fun x t => t.setVLa d la (BitVec.ofNat 1024 x) tag)
  | .vldp d a tag la =>
    some (bitVA (s.g a), packedBytes (s.g a) (Tag.memWidth tag) (Tag.lanes tag), fun x t =>
      t.setVLa d la (ofLanes (Tag.width tag) ((List.range (Tag.lanes tag)).map fun n =>
        cleanLane tag (x / 2 ^ ((s.g a).toNat % 8 + n * Tag.memWidth tag) % 2 ^ Tag.memWidth tag))) tag)
  | _ => none

/-- The alignment that R381 asks of a packed access's bit address. -/
def packedAligned (a : Word) (t : Tag) : Prop :=
  ((Tag.memWidth t = 2 ∨ Tag.memWidth t = 4) → a.toNat % Tag.memWidth t = 0) ∧ (8 ≤ Tag.memWidth t → a.toNat % 8 = 0)

/-- A plain store: its tag check, address, bytes and value (R213, R214). -/
def plainStore (i : Instr) (s : State) : Option (Prop × Word × Nat × Nat) :=
  match i with
  | .st d a dsp ty => some (True, s.g a + disp dsp (stBytes ty), stBytes ty, (s.g d).toNat)
  | .vst d a dsp tag => some (tag = .raw ∨ s.tag d = tag, s.g a + disp dsp 128, 128, (s.v d).toNat)
  | _ => none

/-- Gathers: lane bytes, registers, index tag, result tag; scatters: the same with the source register (R216). -/
def gatherOf (i : Instr) : Option (Nat × VReg × GReg × VReg × La × Tag × Tag) :=
  match i with
  | .vgath32 d a b la => some (4, d, a, b, la, .i32, .n32)
  | .vgath64 d a b la => some (8, d, a, b, la, .i64, .n64)
  | _ => none
def scatterOf (i : Instr) : Option (Nat × VReg × GReg × VReg × Tag) :=
  match i with
  | .vscat32 d a b => some (4, d, a, b, .i32)
  | .vscat64 d a b => some (8, d, a, b, .i64)
  | _ => none

/-- The lane addresses of a gather or scatter, in ascending order (R216). -/
def laneAddrs (s : State) (a : GReg) (b : VReg) (size : Nat) : List Word :=
  (List.range (128 / size)).map fun n => s.g a + sext (8 * size) (laneAt (s.v b) (8 * size) n)

/-- An atomic: address, bytes, order, what it makes of the old value, and the register write of the old value (R223, R224). -/
structure Atomic where
  a : Word
  n : Nat
  sem : Sem
  sc : Scope
  req : AmoReq
  new : Nat → Option Nat
  put : Nat → State → State

def amoReqOf (op : Nat) (sem : Sem) (sc : Scope) (data : List Byte) : AmoReq := { op := op, sc := scopeNum sc, sem := semNum sem, data := data }

/-- The integer atomics (R223): signed ones return the old value sign-extended, unsigned ones zero-extended. -/
def integerAtomic (s : State) (op : Nat) (zext : Bool) (f : Nat → Nat → Nat → Int) (d a b : GReg) (ty : AmoTy) (sem : Sem) (sc : Scope) : Atomic :=
  let n := amoBytes ty
  let y := (s.g b).toNat % 256 ^ n
  { a := s.g a, n, sem, sc, req := amoReqOf (memoOp 0 op ty) sem sc (natBytes n y), new := fun x => some (f (8 * n) x y % 256 ^ n).toNat,
    put := fun x t => t.setG d (if zext then BitVec.ofNat 64 x else sext (8 * n) x) }

def floatAtomic (s : State) (op : Nat) (f : Nat → Nat → Nat) (d a b : GReg) (sem : Sem) (sc : Scope) : Atomic :=
  let y := (s.g b).toNat % 2 ^ 32
  { a := s.g a, n := 4, sem, sc, req := amoReqOf (memoOp 1 op .w32) sem sc (natBytes 4 y), new := fun x => some (f x y),
    put := fun x t => t.setG d (BitVec.ofNat 64 x) }

def atomicOf (i : Instr) (s : State) : Option Atomic :=
  match i with
  | .amoadd d a b ty sem sc => some (integerAtomic s 0 false (fun _ x y => x + y) d a b ty sem sc)
  | .amoand d a b ty sem sc => some (integerAtomic s 1 false (fun _ x y => (x &&& y : Nat)) d a b ty sem sc)
  | .amoor d a b ty sem sc => some (integerAtomic s 2 false (fun _ x y => (x ||| y : Nat)) d a b ty sem sc)
  | .amoxor d a b ty sem sc => some (integerAtomic s 3 false (fun _ x y => (x ^^^ y : Nat)) d a b ty sem sc)
  | .amomax d a b ty sem sc => some (integerAtomic s 4 false (fun w x y => max (sint w x) (sint w y)) d a b ty sem sc)
  | .amomin d a b ty sem sc => some (integerAtomic s 5 false (fun w x y => min (sint w x) (sint w y)) d a b ty sem sc)
  | .amomaxu d a b ty sem sc => some (integerAtomic s 6 true (fun _ x y => (max x y : Nat)) d a b ty sem sc)
  | .amominu d a b ty sem sc => some (integerAtomic s 7 true (fun _ x y => (min x y : Nat)) d a b ty sem sc)
  | .amoswap d a b ty sem sc =>
    some { a := s.g a, n := amoBytes ty, sem, sc, req := amoReqOf (memoOp 1 0 ty) sem sc (natBytes (amoBytes ty) (amoReg s b ty)),
           new := fun _ => some (amoReg s b ty), put := fun x t => t.putAmo d ty x }
  | .amocas d a b ty sem sc =>
    some { a := s.g a, n := amoBytes ty, sem, sc,
           req := amoReqOf (memoOp 1 1 ty) sem sc (natBytes (amoBytes ty) (amoReg s b ty) ++ natBytes (amoBytes ty) (amoReg s d ty)),
           new := fun x => if x = amoReg s d ty then some (amoReg s b ty) else none, put := fun x t => t.putAmo d ty x }
  | .amoaddF32 d a b sem sc => some (floatAtomic s 2 (fun x y => fmtF32.round false .rne 0 ((fmtF32.val x).add .rne (fmtF32.val y))) d a b sem sc)
  | .amaxF32 d a b sem sc => some (floatAtomic s 3 fmtF32.maxCode' d a b sem sc)
  | .aminF32 d a b sem sc => some (floatAtomic s 4 fmtF32.minCode d a b sem sc)
  | _ => none

/-- What a home makes of an atomic's request (R136, R328). -/
def atHomeOf (q : AmoReq) (n : Nat) : Option (Nat → Option Nat) := portAtomic (q.op / 64) (q.op / 8 % 8) (q.op % 8) n q.data

/-- A request of the strand that is performed in its step: no earlier attempt of it is out, its window of 32 is open, and it need not travel (R323). -/
def AtOnce (s : State) (op : HomeOp) : Prop :=
  let m := s.request s.me.key s.here 1024 op
  (∀ n ∈ s.msgs, n.asks s.me.key s.here 1024 op = false) ∧ s.crowdedFrom .req s.here (destOf 1024 m.body) = false ∧ s.travels m = false

/-- What an instruction's release part does: at .t nothing (R111, R226). -/
def Releases (s s1 : State) (sc : Scope) : Prop := release sc s = .ok () s1

/-- The return-free reductions: operation, address, bytes, operand (R225). -/
def reductionOf (i : Instr) (s : State) : Option (Nat × Word × Nat × Nat) :=
  match i with
  | .redNF32 a b => some (0, s.g a, 4, (s.g b).toNat % 2 ^ 32)
  | .redNAdd a b ty => some (1, s.g a, amoBytes ty, (s.g b).toNat % 256 ^ amoBytes ty)
  | .redNMaxF32 a b => some (2, s.g a, 4, (s.g b).toNat % 2 ^ 32)
  | _ => none

/-- The scratchpad word of an address: its offset, when the address is aligned, in the window, and the strand may use it (R109, R217). -/
def ScratchWord (s : State) (a : Word) (off : Nat) : Prop :=
  a.toNat = Config.scratchBase + off ∧ off < Config.scratchSize ∧ off % 8 = 0 ∧ ownerFail s s.here s.me.key.asid s.me.supv off 8 = none

/-- The fences of R226: whether they release and acquire, and their scope. -/
def fenceOf (i : Instr) : Option (Bool × Bool × Scope) :=
  match i with
  | .fenceRelT => some (true, false, .t) | .fenceRelC => some (true, false, .c) | .fenceRelS => some (true, false, .s)
  | .fenceAcqT => some (false, true, .t) | .fenceAcqC => some (false, true, .c) | .fenceAcqS => some (false, true, .s)
  | .fenceArT | .fenceScT => some (true, true, .t)
  | .fenceArC | .fenceScC => some (true, true, .c)
  | .fenceArS | .fenceScS => some (true, true, .s)
  | _ => none

/-! ### Handles, engines and messages -/

/-- No packet is open. -/
def NoPacket (s : State) : Prop := s.src.pkst.getLsbD 63 = false

/-- Whether a page of `l` is of memory type 0. -/
def PlainPages (l : List PagePart) : Prop := ∀ p ∈ l, p.x.mt = 0

/-- The INVL instructions: form, ASID, VA and length (R233). -/
def invlOf (i : Instr) (s : State) : Option (BitVec 2 × BitVec 12 × Word × Word) :=
  match i with
  | .invlR d a b => some (0, (s.g d).setWidth 12, s.g a, s.g b)
  | .invlA a => some (1, (s.g a).setWidth 12, 0, 0)
  | .invlAll => some (2, 0, 0, 0)
  | _ => none

/-- Fields of a 32 B or 64 B copy descriptor, by byte offset (R228). -/
def fieldAt (x lo n : Nat) : Nat := x / 256 ^ lo % 256 ^ n

/-- The copy instructions: handle register, address register, descriptor bytes (R228). -/
def copyOf (i : Instr) : Option (KReg × GReg × Nat) :=
  match i with
  | .acopy d a => some (d, a, 32)
  | .acopy2 d a => some (d, a, 64)
  | _ => none

/-- The copy that a descriptor asks for (R228). -/
def describedCopy (s : State) (k : KReg) (n x : Nat) : Copy :=
  let t := if n = 32 then fieldAt x 24 2 else fieldAt x 40 2
  { key := s.me.key, kreg := k, seq := 0, asid := s.me.key.asid, cgrp := s.me.cgrp, supv := s.me.supv,
    src := BitVec.ofNat 64 (fieldAt x 0 8), dst := BitVec.ofNat 64 (fieldAt x 8 8), rowlen := fieldAt x 16 4,
    rows := if n = 32 then 1 else fieldAt x 20 4,
    sstride := if n = 32 then 0 else BitVec.ofNat 64 (fieldAt x 24 8), dstride := if n = 32 then 0 else BitVec.ofNat 64 (fieldAt x 32 8),
    remote := decide (t / 2 ^ 15 = 1), dtile := t % 1024, next := 0, pend := [], stop := none }

/-- Whether a copy descriptor passes the tests of R228 and, for a copy to another tile, its rows lie in the scratchpad. -/
def goodCopy (c : Copy) (n x : Nat) : Prop :=
  (if n = 32 then fieldAt x 20 4 = 0 ∧ fieldAt x 24 2 / 2 ^ 10 % 2 ^ 5 = 0 ∧ fieldAt x 26 6 = 0 ∧ c.rowlen ≠ 0
   else (1 ≤ c.rowlen ∧ c.rowlen ≤ 2 ^ 20) ∧ (1 ≤ c.rows ∧ c.rows ≤ 2 ^ 20) ∧ fieldAt x 40 2 / 2 ^ 10 % 2 ^ 5 = 0 ∧ fieldAt x 42 22 = 0) ∧
  (c.remote = true → ∀ r < c.rows, (c.dst + BitVec.ofNat 64 r * c.dstride).toNat + c.rowlen ≤ Config.scratchSize)

/-- The MMA instructions (R281). -/
def mmaOf (i : Instr) : Option (MmaForm × QReg × GReg × GReg × KReg) :=
  match i with
  | .mmaE4m3 d a b k => some (.e4m3, d, a, b, k)
  | .mmaE5m2 d a b k => some (.e5m2, d, a, b, k)
  | .mmaE2m1 d a b k => some (.e2m1, d, a, b, k)
  | .mmaI8 d a b k => some (.i8, d, a, b, k)
  | .mmaC4i8 d a b k => some (.c4i8, d, a, b, k)
  | .mmaTi8 d a b k => some (.ti8, d, a, b, k)
  | .mmaBf16 d a b k => some (.bf16, d, a, b, k)
  | .mmaF16 d a b k => some (.f16, d, a, b, k)
  | _ => none

/-- The strand holds accumulator qn, bound to physical accumulator i, and the matrix unit has nothing of it queued (R272, R277, R286). -/
def HoldsAcc (s : State) (q : QReg) (i : Nat) : Prop :=
  s.myTile.boundTo s.me.key q = some i ∧ s.src.qheld.getLsbD q.val = true ∧ ∀ o ∈ s.myTile.mat, ¬ (o.key = s.me.key ∧ o.q = q)

/-- The readouts: destination, accumulator, row, format, mode, saturating (R284). -/
def readoutOf (i : Instr) : Option (VReg × QReg × BitVec 5 × Tag × Rnd × Bool) :=
  match i with
  | .qread d a row fmt rm => some (d, a, row, fmt, rm, false)
  | .qreadSat d a row fmt rm => some (d, a, row, fmt, rm, true)
  | _ => none

/-- Barriers, votes and collectives: kind, level, contribution, and the register that takes the result (R243). -/
def barrierOf (i : Instr) (s : State) : Option (Fin 5 × Level × Word × Option GReg) :=
  match i with
  | .bar lvl => some (0, lvl, 0, none)
  | .bvote d a lvl => some (1, lvl, s.g a, some d)
  | .csum d a lvl => some (2, lvl, s.g a, some d)
  | .cmax d a lvl => some (3, lvl, s.g a, some d)
  | .cmin d a lvl => some (4, lvl, s.g a, some d)
  | _ => none

/-- `eypost` and `popen`: class, operands (R238, R241). -/
def postOf (i : Instr) : Option (Bool × GReg × GReg) :=
  match i with
  | .eypostMsg0 a b => some (false, a, b)
  | .eypostMsg1 a b => some (true, a, b)
  | _ => none
def openOf (i : Instr) : Option (Bool × GReg) :=
  match i with
  | .popenMsg0 a => some (false, a)
  | .popenMsg1 a => some (true, a)
  | _ => none

/-- An eyelet ID names a space and has no reserved bit set (R236). -/
def goodId (id : Word) (asid : BitVec 12) : Prop := id.toNat / 2 ^ 48 = 0 ∧ id.toNat / 2 ^ 28 % 2 ^ 4 = 0 ∧ id.toNat / 2 ^ 16 % 2 ^ 12 = asid.toNat

/-! ### Burlia -/

/-- A kernel's completion: class RSP, with the launch's RORD as its order and the launch's SEQ (R314, R321, R323). -/
def EndsKernel (m : Msg) (k : Kernel) (status : Byte) (info : BitVec 32) : Prop :=
  m.cls = .rsp ∧ m.src = 1024 ∧ m.dst = k.tile.toNat ∧ m.ord = k.rord ∧ m.seq = k.mseq ∧ m.st = .sent ∧ m.body = .weltEnd k status info

/-- A pointer after its post-increment: ADDR + STR modulo 2^38, the other fields as they were (R292). -/
def stepped (p : Word) : Word :=
  BitVec.ofNat 64 (p.toNat / 2 ^ 38 * 2 ^ 38 + (((p.toNat : Int) + (BitVec.ofNat 24 (p.toNat / 2 ^ 38)).toInt) % 2 ^ 38).toNat)

/-- The post-increments that an instruction asks for, in order, and the next PC (R292, R296). -/
def advanced (s : State) (l : List (PReg × Bool)) : State :=
  s.modCore fun c =>
    let p := l.foldl (fun (p : Vector Word 8) e => if e.2 then p.set e.1 (stepped p[e.1]) else p) c.p
    { c with p := p, pc := c.pc + 4 }

/-- A lane that `acvt` converts (R305). -/
def convertedLane (old new : Tag) (rm : Rnd) (x : Nat) : Nat :=
  if old = .f32 ∧ new = .i32 then (BitVec.ofInt 32 (roundInt true 32 rm 0 (fmtF32.val x))).toNat
  else if old = .i32 ∧ new = .f32 then fmtF32.round false rm 0 (.ofInt (BitVec.ofNat 32 x).toInt)
  else x

/-- The core after an instruction that reaches no memory and does not branch (R303–R305, R310); A is given by its lanes. -/
def coreResult (i : Instr) (c : Core) : Option (Core × (Nat → Nat)) :=
  let n : Core := { c with pc := c.pc + 4 }
  let same (c : Core) : Core × (Nat → Nat) := (c, laneA c.a)
  match i with
  | .nop => some (same n)
  | .setc imm => some (same { n with c := BitVec.ofNat 64 imm.toNat })
  | .psets d imm => some (same { n with p := c.p.set d (BitVec.ofNat 64 (2 ^ 62 + imm.toNat)) })
  | .pstride d imm =>
    some (same { n with p := c.p.set d (BitVec.ofNat 64 (c.p[d].toNat / 2 ^ 62 * 2 ^ 62 + (BitVec.ofInt 24 imm.toInt).toNat * 2 ^ 38 + c.p[d].toNat % 2 ^ 38)) })
  | .paddi d imm =>
    some (same { n with p := c.p.set d (BitVec.ofNat 64 (c.p[d].toNat / 2 ^ 38 * 2 ^ 38 + (c.p[d].toNat % 2 ^ 38 + (BitVec.ofInt 38 imm.toInt).toNat) % 2 ^ 38)) })
  | .pmov a b => some (same { n with p := c.p.set b c.p[a] })
  | .azero fmt => some ({ n with atag := fmt }, fun _ => 0)
  | .acvt fmt rm => some ({ n with atag := fmt }, fun l => convertedLane c.atag fmt rm (laneA c.a l))
  | .unclamp => some (same { n with clamps := [], f := c.f &&& ~~~ 0xC })
  | _ => none

/-- A branch: whether it is taken, its offset, and C and F after it (R303). -/
def coreBranch (i : Instr) (c : Core) : Option (Bool × BitVec 20 × Word × Word) :=
  match i with
  | .b off => some (true, off, c.c, c.f)
  | .loop off => some (decide (c.c ≠ 1), off, c.c - 1, c.f)
  | .bcz off => some (decide (c.c = 0), off, c.c, c.f)
  | .bcl off => some (c.f.getLsbD 0, off, c.c, c.f &&& ~~~ 1)
  | _ => none

/-- An instruction with one pointer that reads: pointer, post-increment, bytes, the tag that A must have, and the core after the value
(R304, R305). -/
def coreLoad (i : Instr) : Option (PReg × Bool × Nat × Option Tag × (Nat → Core → Core)) :=
  let word (f : Tag) : Tag := if f = .i32 ∨ f = .i8 then .i32 else .f32
  let each (f : Tag) (op : Nat → Nat → Nat) (x : Nat) (c : Core) : Core := { c with a := ofLanesA fun l => op (laneA c.a l) (elemLane f x l) }
  match i with
  | .ldc a ia => some (a, ia, 8, none, fun x c => { c with c := BitVec.ofNat 64 x })
  | .pld a b ia => some (a, ia, 8, none, fun x c => { c with p := c.p.set b (BitVec.ofNat 64 x) })
  | .ald a ia f => some (a, ia, 16 * elemSize f, none, fun x c => { c with a := ofLanesA (elemLane f x), atag := word f })
  | .aadd a ia f rm => some (a, ia, 16 * elemSize f, some (word f), each f (fun u v =>
      if word f = .i32 then (BitVec.ofInt 32 (u + v)).toNat else fmtF32.round false rm 0 ((fmtF32.val u).add rm (fmtF32.val v))))
  | .amax a ia f => some (a, ia, 16 * elemSize f, some (word f), each f (fun u v =>
      if word f = .i32 then (if (BitVec.ofNat 32 u).toInt < (BitVec.ofNat 32 v).toInt then v else u) else fmtF32.maxCode' u v))
  | .amin a ia f => some (a, ia, 16 * elemSize f, some (word f), each f (fun u v =>
      if word f = .i32 then (if (BitVec.ofNat 32 v).toInt < (BitVec.ofNat 32 u).toInt then v else u) else fmtF32.minCode u v))
  | .ascale a ia rm => some (a, ia, 4, some .f32, fun x c =>
      { c with a := ofLanesA fun l => fmtF32.round false rm 0 ((fmtF32.val (laneA c.a l)).mul (fmtF32.val x)) })
  | _ => none

/-- An instruction with one pointer that writes: pointer, post-increment, bytes, to DRAM only, the tag of A, the value (R305, R309). -/
def coreStore (i : Instr) (c : Core) : Option (PReg × Bool × Nat × Bool × Option Tag × Nat) :=
  match i with
  | .post a ia => some (a, ia, 8, true, none, c.c.toNat)
  | .ast a ia f rm => some (a, ia, 16 * elemSize f, false, some (if f = .i32 ∨ f = .i8 then .i32 else .f32),
      packN (8 * elemSize f) ((List.range 16).map fun l => writeElem f rm (laneA c.a l)))
  | _ => none

/-- The near atomics on the granule at Pa: pointer, post-increment, and what is posted (R307). -/
def coreNear (i : Instr) (c : Core) : Option (PReg × Bool × (Nat → Posted)) :=
  match i with
  | .faddn a ia rm => some (a, ia, fun loc => .faddn loc c.a rm)
  | .fmaxn a ia => some (a, ia, fun loc => .fmaxn loc c.a)
  | _ => none

/-- The gathered reductions: index pointer, row pointer, post-increment, format, and the lane's operation (R306). -/
def coreGather (i : Instr) : Option (PReg × PReg × Bool × Tag × (Nat → Nat → Nat)) :=
  match i with
  | .addx a b ia f rm => some (a, b, ia, f, addLane f rm)
  | .maxx a b ia f => some (a, b, ia, f, maxLane f)
  | _ => none

/-- The tag that A must have, and the pointer operands in the order of their checks: pointer, bytes, whether it is written, whether it must lie in
DRAM (R302, R304–R307, R396). The row of an indexed operand is not among them. -/
def coreOperands (i : Instr) : Option (Option Tag × List (PReg × Nat × Bool × Bool)) :=
  let word (f : Tag) : Option Tag := some (if f = .i32 ∨ f = .i8 then .i32 else .f32)
  match i with
  | .ldc a _ | .pld a _ _ => some (none, [(a, 8, false, false)])
  | .ald a _ f => some (none, [(a, 16 * elemSize f, false, false)])
  | .aadd a _ f _ | .amax a _ f | .amin a _ f => some (word f, [(a, 16 * elemSize f, false, false)])
  | .ascale a _ _ => some (some .f32, [(a, 4, false, false)])
  | .post a _ => some (none, [(a, 8, true, true)])
  | .ast a _ f _ => some (word f, [(a, 16 * elemSize f, true, false)])
  | .faddn a _ _ | .fmaxn a _ => some (some .f32, [(a, 64, true, true)])
  | .addx a _ _ f _ | .maxx a _ _ f => some (word f, [(a, 4, false, false)])
  | .faddnx a _ _ _ => some (some .f32, [(a, 4, false, false)])
  | .mov64 a b _ _ => some (none, [(a, 64, false, false), (b, 64, true, false)])
  | .afma a b _ _ f _ => some (some .f32, [(a, 16 * elemSize f, false, false), (b, 16 * elemSize f, false, false)])
  | _ => none

/-- The indexed operand of an instruction: its index pointer and row pointer, the row's bytes, whether it is written in DRAM (R306, R307). -/
def coreRow (i : Instr) : Option (PReg × PReg × Nat × Bool) :=
  match i with
  | .addx a b _ f _ | .maxx a b _ f => some (a, b, 16 * elemSize f, false)
  | .faddnx a b _ _ => some (a, b, 64, true)
  | _ => none

/-- The instruction ends its kernel with STATUS 7, a code of R300 and the PC; it has no other effect. -/
def EndsWith (i : Instr) (s : State) (code : Nat) : Prop :=
  Completes i s (s.endKernel 7 (BitVec.ofNat 32 (code + s.core.pc.toNat / 4 % 2 ^ 17 * 2 ^ 8)))

/-- A request for banks must wait: an earlier one for one of them does, or a core holds one (R310). -/
def BanksTaken (s : State) (stack : Nat) (banks : List (Nat × Nat)) : Prop :=
  ∃ b ∈ banks, (∃ e ∈ (s.stack stack).clampq, b ∈ e.2) ∨ ∃ e ∈ s.cores, e.1 / 16 = stack ∧ b ∈ e.2.clamps

/-- A may be combined with elements of a format of tag `t`, or any A will do. -/
def TagFits (c : Core) (t : Option Tag) : Prop := ∀ x, t = some x → c.atag = x

/-! ### Events -/

/-- Message `m` is the i-th in flight, in its window of 32, on its way over working links and next in its order (R323, R421). -/
def Arrives (s : State) (i : Nat) (m : Msg) : Prop :=
  s.msgs[i]? = some m ∧ m.st = .sent ∧ s.lostOn m.trip = none ∧ s.windowed i m = true ∧ s.inOrder i m = true

/-- The message of `Arrives` is performed with the effect `s'` and its answer leaves (R323, R424); its header then says whether it came by a
detour, and where it left the primary channels (R322, R420). -/
def performed (s s' : State) (i : Nat) (a : Ans) : State := s'.modMsg i fun m => { s.stamp m with st := .answered a }

/-- The reply events and their actions (R365). -/
def replyOf (i : Instr) : Option (Nat × Action) :=
  match i with
  | .replyRetry n => some (n, .retry)
  | .replyDeliver n => some (n, .deliver)
  | .replyKill n => some (n, .kill)
  | _ => none

/-- The strand comes forward, `f` happens to the machine as that strand, and it goes back. -/
def asStrand (s : State) (t : Strand) (f : State → State) : State := (f (s.load t)).unload

/-- The command at the head of an idle queue (R333). -/
def AtHead (s : State) (q : Fin 4) (c : Cmd) (code : Nat) : Prop :=
  s.queues[q].busy = false ∧ s.command q = some c ∧ c.code = code ∧ (code ≠ 2 → c.known = true)

/-- A physical address in a window that holds memory (R88). -/
def HoldsMemory (s : State) (pa : Nat) : Prop := s.win pa = .inter ∨ (∃ st o, s.win pa = .near st o) ∨ s.win pa = .host

/-- INVL commands: queue and form (R333). -/
def invlCommandOf (i : Instr) : Option (Fin 4 × Nat) :=
  match i with
  | .invlCommandRange q => some (q, 0)
  | .invlCommandAsid q => some (q, 1)
  | .invlCommandAll q => some (q, 2)
  | _ => none

/-- A strand that starts from a record in a slot (R43). -/
def Starts (u : Strand) (r : Rec) (slot : Fin 16) : Prop :=
  u.pc = r.entry ∧ u.npc = r.entry ∧ u.state = 1 ∧ u.slot = some slot ∧ u.dom = r.dom ∧ u.cgrp = r.cgrp ∧ u.prio.toNat = r.prio ∧ u.home = r.doneVA ∧
  u.intrap = false ∧ u.qheld = 0 ∧ u.reason = 0 ∧ u.pend = 0 ∧ (u.g[1], u.g[2], u.g[3], u.g[4]) = (r.arg 0, r.arg 1, r.arg 2, r.arg 3)

/-- The strand is dispatched again: active in the slot with the registers that its frame holds (R44, R369). -/
def Resumes (u v : Strand) (slot : Fin 16) : Prop :=
  v.state = 1 ∧ v.slot = some slot ∧ v.key = u.key ∧ v.g = u.g ∧ v.v = u.v ∧ v.k = u.k ∧ v.m = u.m ∧ v.wait = none ∧
  (u.deliver = false → v.pc = u.pc ∧ v.intrap = u.intrap ∧ v.trappc = u.trappc) ∧
  (u.deliver = true → v.pc = u.tvec ∧ v.intrap = true ∧ v.trappc = u.pc)

/-! ### The matrix unit's arithmetic -/

/-- AVal(r, k) (`isA`) or BVal(k, r): element k of row or column r of an MMA's operand, from the bytes that R77, R80 and R281 give it, with its
block's scale (R78, R282). -/
def operandVal (t : Tile) (ctab : BitVec 128) (f : MmaForm) (isA : Bool) (reg : Word) (r k : Nat) : Val :=
  let off := reg.toNat % 2 ^ 21
  let soff := reg.toNat / 2 ^ 21 % 2 ^ 21
  let byte (n : Nat) : Nat := t.scrRead n 1
  let nibble (row : Nat) : Nat := byte (off + row * r + k / 2) / 16 ^ (k % 2) % 16
  let plane (blocks planes p : Nat) : Int := ((t.scrRead (off + (r * blocks + k / 32) * planes * 4 + 4 * p) 4 / 2 ^ (k % 32) % 2 : Nat) : Int)
  let scaled (blocks : Nat) (v : Val) : Val :=
    let x := byte (soff + r * blocks + k / 24)
    if reg.getLsbD 63 then v else if x = 255 then .nan else v.scale ((x : Int) - 127)
  let small (c : Nat) : Val := .ofInt (if c < 128 then (c : Int) else (c : Int) - 256)
  match f, isA with
  | .e4m3, _ => scaled 4 (fmtE4m3.val (byte (off + 96 * r + k)))
  | .e5m2, _ => scaled 4 (fmtE5m2.val (byte (off + 96 * r + k)))
  | .e2m1, _ => scaled 8 (fmtE2m1.val (nibble 96))
  | .bf16, _ => fmtBf16.val (t.scrRead (off + 48 * r + 2 * k) 2)
  | .f16, _ => fmtF16.val (t.scrRead (off + 48 * r + 2 * k) 2)
  | .i8, true => .ofInt (((List.range 7).map fun p => plane 3 8 p * 2 ^ p).foldr (· + ·) 0 - plane 3 8 7 * 2 ^ 7)
  | .c4i8, true => .ofInt (ctabAt ctab (nibble 96))
  | .ti8, true => .ofInt (if plane 12 2 0 = 0 then 0 else if plane 12 2 1 = 0 then 1 else -1)
  | .i8, false => small (byte (off + 96 * r + k))
  | .c4i8, false => small (byte (off + 192 * r + k))
  | .ti8, false => small (byte (off + 384 * r + k))

/-- K of R281. -/
def mmaLength : MmaForm → Nat
  | .e4m3 | .e5m2 | .i8 => 96
  | .e2m1 | .c4i8 => 192
  | .ti8 => 384
  | .bf16 | .f16 => 24

/-- The flag that a product raises (R82): 3 a NaN, 1 and 2 an infinity. -/
def productFlag (x y : Val) : Option (BitVec 2) :=
  let signs (a b : Bool) : Option (BitVec 2) := some (if a = b then 1 else 2)
  match x, y with
  | .nan, _ | _, .nan => some 3
  | .inf a, .inf b => signs a b
  | .inf a, .fin b n _ _ | .fin a n _ _, .inf b => if n = 0 then some 3 else signs a b
  | .fin .., .fin .. => none

/-- The exact product of two finite values, in units of 2^anc and rounded down (R82). -/
def floorProduct (anc : Int) (x y : Val) : Int :=
  match x, y with
  | .fin a m e _, .fin b n f _ =>
    let p : Int := (if a = b then 1 else -1) * ((m : Int) * (n : Int))
    if anc ≤ e + f then p * 2 ^ (e + f - anc).toNat else p / 2 ^ (anc - (e + f)).toNat
  | _, _ => 0

/-- The final steps of R82: the flags raised and the exact sum give the element. -/
def Closes (nan pinf ninf : Prop) (sum : Int) (c : Elem) : Prop :=
  (nan ∨ pinf ∧ ninf → c.fl = 3 ∧ c.acc = 0) ∧
  (¬ nan → pinf → ¬ ninf → c.fl = 1 ∧ c.acc.toInt = 2 ^ 63 - 1) ∧
  (¬ nan → ninf → ¬ pinf → c.fl = 2 ∧ c.acc.toInt = -2 ^ 63) ∧
  (¬ nan → ¬ pinf → ¬ ninf →
    (2 ^ 63 - 1 < sum → c.fl = 1 ∧ c.acc.toInt = 2 ^ 63 - 1) ∧
    (sum < -2 ^ 63 → c.fl = 2 ∧ c.acc.toInt = -2 ^ 63) ∧
    (-2 ^ 63 ≤ sum → sum ≤ 2 ^ 63 - 1 → c.fl = 0 ∧ c.acc.toInt = sum))

/-- A welt core's SRAM is in canonical form, its PC is a multiple of 4 and the reserved bits of its F are zero (R293, R296). -/
def Core.Inv (c : Core) : Prop := Mem.wf c.sram = true ∧ c.pc.toNat % 4 = 0 ∧ c.f.toNat < 16

/-- What every step keeps. -/
def State.Inv (s : State) : Prop :=
  Mem.wf s.mem = true ∧ (∀ e ∈ s.tiles, Mem.wf e.2.scratch = true) ∧ s.core.Inv ∧ (∀ e ∈ s.cores, e.2.Inv) ∧
  ∀ e ∈ s.stks, ∀ v ∈ e.2.suspended ++ e.2.restores, v.core.Inv

end Sys2Proof.Machine

section

open Sys2Proof Sys2Proof.Machine

/-! ### Encoding -/

/-- R147–R159: a well-formed pair is what the decoder reads from its own two words; what the decoder accepts is well formed, and its
words are the only encoding of it. -/
def Obligations.PairDecodesFromItsWords : Prop :=
  (∀ p : Pair, Pair.wf p = true → ∃ w0 w1, encodePair p = some (w0, w1) ∧ decodePair w0 w1 = .ok p) ∧
  ∀ (w0 w1 : BitVec 32) (p : Pair), decodePair w0 w1 = .ok p → Pair.wf p = true ∧ encodePair p = some (w0, w1)

/-- R298, R299: a well-formed Burlia instruction is what the decoder reads from its word, and no other word decodes to it. -/
def Obligations.BurliaDecodesFromItsWord : Prop :=
  (∀ i : Instr, i.wf = true → i.kind = .welt → ∃ w, encodeBurlia i = some w ∧ decodeBurlia w = some i) ∧
  ∀ (w : BitVec 32) (i : Instr), decodeBurlia w = some i → i.wf = true ∧ i.kind = .welt ∧ encodeBurlia i = some w

/-- The words that the manual writes out decode to the instructions it gives for them (R150, R167, R171, R174, R181, R205, R258, R262). -/
def Obligations.ManualWordsDecode : Prop :=
  decodePair 0x80321410 0x00000000 = .ok (.lone (.sub 3 4 5)) ∧
  decodePair 0x82500000 0x80002040 = .ok (.lone (.addi 5 0 (.lit 0x80002040))) ∧
  decodePair 0x94528000 0x00000100 = .ok (.lone (.lhi 5 5 (.lit 0x100))) ∧
  decodePair 0x70000000 0x22532D46 = .ok (.two .cnop (.cvt 5 6 .f16 .f32 .rtz true)) ∧
  decodePair 0x70000000 0x32531DA0 = .ok (.two .cnop (.vfma 5 6 7 3 .rup)) ∧
  decodePair 0x70000000 0x3A113416 = .ok (.two .cnop (.vcvtSat 1 2 .e4m3 0 .rtz 2)) ∧
  decodePair 0xFE014005 0x00000000 = .ok (.lone (.mfsr 5 .cyc)) ∧
  decodeBurlia 0x04000000 = some .halt ∧
  decodeBurlia 0x0C0FFFFF = some (.loop 0xFFFFF)

/-! ### One step -/

/-- R149, R296: with nothing scheduled, a step of a tile runs the pair that its strand's PC decodes to, through `exec` of its two
slots, and then what comes after every step. The strand has neither a data error nor a KILL pending, nor an `exit` that waits to end it, its first slot has
not taken effect before the second, and nothing of the pair must wait for an outstanding load (that the accesses of `awaits` do, the slot after
which `noteSlot` has the next selection begin, and the schedule and the turn that choose the strand, are the model's choices: logs 83 and 1). A strand
with outstanding loads keeps its slot. -/
def Obligations.StepRunsDecodedPair : Prop :=
  ∀ (s s1 : State) (key : Key) (t : Strand) (w0 w1 : BitVec 32) (p : Pair),
    s.schedule = [] → s.turn = .strand key → s.strand? key = some t → t.state = 1 → t.errs = [] → t.killed = false → t.leaving = none → t.inSecond = false →
    let b := (s.fresh.noteSlot key).load t
    b.resident key.asid = true → b.restoring = false → b.fetch = (.words w0 w1, s1) → decodePair w0 w1 = .ok p → s1.lacks p = 0 →
    s1.awaits p = false → step s = onNext State.rest (onNext b.stay ((s1.touch p).runPair p))

/-- R149, R384: a lone instruction that completes retires with its next PC; a pair whose slots both complete runs the first slot,
then the second on the registers as the pair found them, and retires: a strand that does not leave the active state goes on at its
next PC. A condition in the first slot ends the pair; one in the second slot leaves the pair without effect but for its
translations and the packets it sent. A first slot that waits for its checks' sake holds the pair, and the second is not looked at; before one
that stalls past its checks does anything, the second slot's checks are made, and their condition ends the pair without effect (R383). A second
slot that stalls past its checks lets the first take effect, and then goes on alone.
A load that waits for data only is outstanding: the second slot runs, and a word past its window that names its destination waits (R152, R211);
that it need not wait in its slot is the model's choice (log 83). -/
def Obligations.PairRunsBothSlots : Prop :=
  (∀ (s s1 : State) (i : Instr), exec i s.beginC = .next s1 → s1.ended = .ok → s.runPair (.lone i) = .next s1.settle) ∧
  (∀ (s s1 s2 : State) (c a : Instr), exec c s.beginC = .next s1 → s1.ended = .ok → exec a (s.beginA s1) = .next s2 → s2.ended = .ok →
    s.runPair (.two c a) = .next s2.settle) ∧
  (∀ s : State, s.me.leaving = none → s.settle.me.pc = s.me.npc ∧ s.settle.me.state = s.me.state ∧ s.settle.mem = s.mem) ∧
  (∀ (s s1 : State) (c a : Instr) (e : Cond), exec c s.beginC = .next s1 → s1.ended = .cond e → s.runPair (.two c a) = .next s1) ∧
  (∀ (s s1 s2 : State) (c a : Instr) (e : Cond), exec c s.beginC = .next s1 → s1.ended = .ok →
    exec a (s.beginA s1) = .next s2 → s2.ended = .cond e → s.runPair (.two c a) = .next ((s.keep s2).takeCond e)) ∧
  (∀ (s s1 : State) (c a : Instr) (w : Wait), exec c s.beginC = .next s1 → s1.ended = .wait w → s1.passed = false → s.me.begun = false →
    s.beginC.lateOf s1 c w = none → s.runPair (.two c a) = .next (s1.undo s false)) ∧
  (∀ (s s1 s2 : State) (c a : Instr) (w : Wait) (e : Cond), exec c s.beginC = .next s1 → s1.ended = .wait w → s1.passed = true → s.me.begun = false →
    s.beginC.lateOf s1 c w = none → exec a s.beginAlone = .next s2 → s2.ended = .cond e →
    s.runPair (.two c a) = .next ((s.keepBoth s1 s2).takeCond e)) ∧
  (∀ (s s1 s2 : State) (c a : Instr) (w : Wait), exec c s.beginC = .next s1 → s1.ended = .ok → exec a (s.beginA s1) = .next s2 → s2.ended = .wait w →
    w.blocking = false → s2.passed = true → s.runPair (.two c a) = .next (s.commitC s1 s2 a)) ∧
  (∀ (s s1 s2 : State) (a : Instr), let t := s.commitC s1 s2 a
    t.me.inSecond = true ∧ t.me.pc = s2.me.pc ∧ t.me.m = (s.beginA s1).me.m ∧ (t.half.head?).map (·.2) = some a ∧ t.mem = s2.mem) ∧
  (∀ (s s1 : State) (v : Strand) (a : Instr), exec a { s with view := some v, passed := false, pieceNo := 0 } = .next s1 → s1.ended = .ok →
    s.stepHalf v a = .next s1.settle) ∧
  (∀ (s s1 s2 : State) (c a : Instr) (w : Wait) (l : Late), exec c s.beginC = .next s1 → s1.ended = .wait w → s.beginC.lateOf s1 c w = some l →
    exec a (s.beginA (s1.putLate l)) = .next s2 → s2.ended = .ok → s.runPair (.two c a) = .next s2.settle) ∧
  (∀ (s s1 : State) (i : Instr) (w : Wait) (l : Late), exec i s.beginC = .next s1 → s1.ended = .wait w → s.beginC.lateOf s1 i w = some l →
    s.runPair (.lone i) = .next (s1.putLate l).settle) ∧
  ∀ (s : State) (l : Late) (i : Instr), l ∈ s.me.late → l.gone = false → l.left = 0 → Instr.touches i l.dst = true → s.awaits (.lone i) = true

/-- R296, R303: with nothing scheduled, a step of a welt core runs the instruction that the word at its PC decodes to. -/
def Obligations.StepRunsDecodedBurliaWord : Prop :=
  ∀ (s : State) (st : Fin 12) (n : Fin 16) (k : Kernel) (i : Instr),
    s.schedule = [] → s.turn = .core st n → (s.coreOf (st.val * 16 + n.val)).kern = some k →
    (s.coreOf (st.val * 16 + n.val)).ends = none → k.cancel = false → k.unmapped = false →
    (s.coreOf (st.val * 16 + n.val)).waiting = false → (s.coreOf (st.val * 16 + n.val)).pc.toNat < 0x20000 →
    decodeBurlia (s.coreOf (st.val * 16 + n.val)).word = some i →
    step s = onNext State.rest (onNext State.unloadCore (exec i (s.fresh.loadCore (st.val * 16 + n.val))))

/-! ### Registers and scalar instructions -/

/-- R27, R31: g0 reads as zero whatever is written to it, m0 as all ones; every other register reads what was written last. -/
def Obligations.RegisterWritesRead : Prop :=
  (∀ (s : State) (d r : GReg) (x : Word), s.view = none →
    (s.setG d x).g r = if r.val = 0 then 0 else if r = d then x else s.g r) ∧
  (∀ (s : State) (d r : MReg) (x : MaskV), s.view = none →
    (s.setM d x).m r = if r.val = 0 then BitVec.allOnes 128 else if r = d then x else s.m r) ∧
  (∀ (s : State) (d r : VReg) (x : Line) (t : Tag), s.view = none →
    (s.setV d x t).v r = (if r = d then x else s.v r) ∧ (s.setV d x t).tag r = (if r = d then t else s.tag r)) ∧
  ∀ (s : State) (d : GReg) (x : Word), d.val = 0 → s.setG d x = s

/-- R171, R173–R176: every scalar integer and bit-field instruction but the divisions completes with its column's value in gd. -/
def Obligations.ScalarIntegerResults : Prop :=
  ∀ (i : Instr) (s : State) (d : GReg) (v : Int), i.wf = true → scalarResult i s.g = some (d, v) →
    Completes i s (s.setG d (BitVec.ofInt 64 v))

/-- R172: the four divisions complete for all operands. -/
def Obligations.DivisionNeverTraps : Prop :=
  ∀ (i : Instr) (s : State) (d : GReg) (la : La) (v : Int), divResult i s.g = some (d, la, v) →
    Completes i s (s.setGLa d la (BitVec.ofInt 64 v))

/-- R177–R179: the scalar floating arithmetic completes with the rounded exact result, zero-extended, and one LFSR step in SR. The
product of an infinity and a zero makes a fused multiply-add NaN, whatever the third operand holds. -/
def Obligations.ScalarFloatResults : Prop :=
  (∀ (i : Instr) (s : State) (d : GReg) (f : Fmt) (rm : Rnd) (la : La) (x : Val), floatResult i s.g = some (d, f, rm, la, x) →
    Completes i s ((s.setGLa d la (BitVec.ofNat 64 (f.round false rm (lfsrAfter rm s.src.lfsr) x))).setLfsr rm (lfsrAfter rm s.src.lfsr))) ∧
  ∀ (m n : Bool) (e : Int) (z : Val) (rm : Rnd),
    ((Val.inf m).mul (.fin n 0 e)).add rm z = .nan ∧ ((Val.fin n 0 e).mul (.inf m)).add rm z = .nan ∧
    ((Val.inf m).mul (.fin n 0 e)).sub rm z = .nan ∧ ((Val.fin n 0 e).mul (.inf m)).sub rm z = .nan

/-- R72, R178, R180, R181: comparisons, classes, sign operations, minimum and maximum, and `cvt` between integers and floating
formats, complete with their column's value in gd. -/
def Obligations.ScalarCompareAndConvertResults : Prop :=
  (∀ (i : Instr) (s : State) (d : GReg) (v : Nat), signResult i s.g = some (d, v) → Completes i s (s.setG d (BitVec.ofNat 64 v))) ∧
  ∀ (s : State) (d a : GReg) (dt st : Tag) (rm : Rnd) (sat : Bool), (Instr.cvt d a dt st rm sat).wf = true →
    let l := lfsrAfter rm s.src.lfsr
    let x := elemVal st 0 (s.g a).toNat
    Completes (.cvt d a dt st rm sat) s ((s.setG d (match Tag.int? dt, Tag.fmt? dt with
      | some (sg, w), _ => if dt = .i32 then (BitVec.ofInt 32 (roundInt sg w rm l x)).signExtend 64 else BitVec.ofNat 64 (BitVec.ofInt w (roundInt sg w rm l x)).toNat
      | none, some f => BitVec.ofNat 64 (f.round sat rm l x)
      | none, none => 0)).setLfsr rm l)

/-- R73–R76: a value that the format represents is returned unchanged in every mode, a NaN as the canonical NaN. With the magnitude
between multiples of 2^q, RTZ takes the lower one, RUP and RDN the one toward their infinity, RNE the nearer and on a tie the even, SR the upper
neighbour when t + s[15:0] reaches 2^16, s the LFSR 16 steps on, from 1 where it is 0. A finite value is rounded in units of its last place, or
of the smallest subnormal; a result above the largest finite magnitude M becomes an infinity or M as R75's table gives the mode, M where the form
saturates or the format has no infinity, as an infinite source does. -/
def Obligations.RoundingFollowsItsMode : Prop :=
  (∀ l : BitVec 32, lfsrAfter .sr l = Nat.repeat lfsrStep 16 (if l = 0 then 1 else l) ∧
    (lfsrStep l).getLsbD 0 = (((l.getLsbD 31 != l.getLsbD 21) != l.getLsbD 1) != l.getLsbD 0) ∧ ∀ i < 31, (lfsrStep l).getLsbD (i + 1) = l.getLsbD i) ∧
  (∀ (neg : Bool) (mag : Nat) (exp q : Int) (r16 : Nat), exp < q →
    let x : Int := (if neg then -1 else 1) * (mag : Int)
    let u : Int := 2 ^ (q - exp).toNat
    let lo := x / u
    let t := (x - lo * u) * 2 ^ 16 / u
    (if neg then -1 else 1) * (roundQ .sr r16 neg mag exp false q : Int) = if x % u = 0 then lo else if 2 ^ 16 ≤ t + (r16 : Int) then lo + 1 else lo) ∧
  (∀ (f : Fmt) (sat : Bool) (rm : Rnd) (l : BitVec 32) (neg : Bool) (mag : Nat) (exp : Int),
    f ∈ [fmtF64, fmtF32, fmtF16, fmtBf16, fmtE4m3, fmtE5m2, fmtE3m2, fmtE2m3, fmtE2m1] → mag ≠ 0 →
    let last := max (exp + (Nat.log2 mag : Int) - (f.m : Int)) (1 - (f.bias : Int) - (f.m : Int))
    let n := roundQ rm (l.toNat % 2 ^ 16) neg mag exp false last
    let c := f.round sat rm l (.fin neg mag exp)
    let big : Nat := (if neg then 2 ^ (f.w - 1) else 0) + f.maxCode
    ((f.val f.maxCode).lt (.fin false n last) = false → (f.val c).eq (.fin neg n last) = true ∧ (c / 2 ^ (f.w - 1) = 1 ↔ neg = true)) ∧
    ((f.val f.maxCode).lt (.fin false n last) = true →
      c = if sat ∨ f.inf = false ∨ rm = .rtz ∨ (rm = .rup ∧ neg = true) ∨ (rm = .rdn ∧ neg = false) then big else big + 1) ∧
    f.round sat rm l (.inf neg) = if sat ∨ f.inf = false then big else big + 1) ∧
  (∀ (sat : Bool) (rm : Rnd) (l : BitVec 32),
    [fmtF64, fmtF32, fmtF16, fmtBf16, fmtE4m3, fmtE5m2, fmtE3m2, fmtE2m3, fmtE2m1].map (fun f => f.round sat rm l .nan) =
      [0x7FF8000000000000, 0x7FC00000, 0x7E00, 0x7FC0, 0x7F, 0x7E, 0, 0, 0]) ∧
  (∀ (f : Fmt) (sat : Bool) (rm : Rnd) (l : BitVec 32) (c : Nat),
    f ∈ [fmtF64, fmtF32, fmtF16, fmtBf16, fmtE4m3, fmtE5m2, fmtE3m2, fmtE2m3, fmtE2m1] → c < 2 ^ f.w →
    f.round sat rm l (f.val c) =
      match f.val c with
      | .nan => f.nan.getD 0
      | .inf neg => if sat then f.sign neg + f.maxCode else c
      | .fin _ _ _ _ => c) ∧
  ∀ (neg : Bool) (mag : Nat) (exp q : Int) (r16 : Nat), exp < q →
    let k := (q - exp).toNat
    let n := mag / 2 ^ k
    let e := roundQ .rne r16 neg mag exp false q
    roundQ .rtz r16 neg mag exp false q = n ∧
    roundQ .rup r16 neg mag exp false q = (if mag % 2 ^ k = 0 ∨ neg then n else n + 1) ∧
    roundQ .rdn r16 neg mag exp false q = (if mag % 2 ^ k = 0 ∨ !neg then n else n + 1) ∧
    (∀ j : Nat, ((e * 2 ^ k : Nat) - (mag : Int)).natAbs ≤ ((j * 2 ^ k : Nat) - (mag : Int)).natAbs) ∧
    (2 * (mag % 2 ^ k) = 2 ^ k → e % 2 = 0)

/-- R152: the result of a long-latency instruction with lookahead n stays out of its register until n more words have issued;
a write of the register in the window discards it. -/
def Obligations.LookaheadWindow : Prop :=
  ∀ (t : Strand) (r : GReg) (n : Nat) (x : Word), r.val ≠ 0 → 0 < n → n < 16 → t.held = [] →
    let u := t.result { dst := .g r, left := n, val := x.setWidth 1024, tag := .raw }
    (∀ j, j < n → (Nat.repeat (fun v => v.tick.written) j u).g = t.g) ∧
    (Nat.repeat (fun v => v.tick.written) n u).g = t.g.set r x ∧
    ∀ (j : Nat) (y : Word), j < n → (Nat.repeat (fun v => v.tick.written) n ((Nat.repeat (fun v => v.tick.written) j u).setG r y)).g = t.g.set r y

/-! ### Vector instructions -/

/-- R66, R71, R250–R253, R257, R258, R261: an elementwise instruction whose tags pass completes; each lane switched on takes its operation's
result, one SR step each in ascending order for a floating tag, every other lane keeps its bits, and vd takes va's tag. A tag outside
the instruction's class, or one that differs where it must not, takes TAGCHK with the field and the tag found, in the order a, b, d.
That `vmov` and the bitwise instructions clear the unused bits of a 6-bit lane and turn the reserved ternary code into 0 is the model's reading of
R66 and R71 (logs 13 and 72). -/
def Obligations.VectorElementwiseResults : Prop :=
  (∀ (i : Instr) (s : State) (e : Elementwise), elementwise i = some e → e.ok (s.tag e.a) = true →
    (e.same = true → s.tag e.b = s.tag e.a) → (e.fused = true ∨ e.m.val ≠ 0 → s.tag e.d = s.tag e.a) →
    let t := s.tag e.a
    let w := Tag.width t
    let on := laneOn (s.m e.m) (Tag.lanes t)
    let seed (n : Nat) := seedAfter e.rm s.src.lfsr (onBelow on n)
    ∃ x, Completes i s (if Tag.isFloat t then (s.setV e.d x t).setLfsr e.rm (seed (Tag.lanes t)) else s.setV e.d x t) ∧
      ∀ n < Tag.lanes t, laneAt x w n =
        if on n then e.out t (seed (n + 1)) (laneAt (s.v e.a) w n) (laneAt (s.v e.b) w n) (laneAt (s.v e.d) w n) % 2 ^ w else laneAt (s.v e.d) w n) ∧
  ∀ (i : Instr) (s : State) (e : Elementwise), elementwise i = some e →
    (e.ok (s.tag e.a) = false → exec i s = .next (s.takeCond (tagCond 1 0 0 (s.tag e.a)))) ∧
    (e.ok (s.tag e.a) = true → e.same = true → s.tag e.b ≠ s.tag e.a → exec i s = .next (s.takeCond (tagCond 2 0 0 (s.tag e.b)))) ∧
    (e.ok (s.tag e.a) = true → (e.same = true → s.tag e.b = s.tag e.a) → (e.fused = true ∨ e.m.val ≠ 0) → s.tag e.d ≠ s.tag e.a →
      exec i s = .next (s.takeCond (tagCond 0 0 0 (s.tag e.d))))

/-- R66, R71, R259–R261, R263: compares write one bit a lane, 0 for a lane off or past the last; mask logic works bit by bit; select, zero, tag
setting and the tag check follow their columns. All complete. That `vsel` writes a lane without unused bits set and without the reserved
ternary code is the model's reading of R66 and R71 (log 13). -/
def Obligations.MaskAndTagResults : Prop :=
  (∀ (i : Instr) (s : State) (d : MReg) (a b : VReg) (m : MReg) (f : Int → Int → Bool) (g : Val → Val → Bool),
    vectorCompare i = some (d, a, b, m, f, g) → Tag.isNum (s.tag a) = true → s.tag b = s.tag a →
    let t := s.tag a
    let w := Tag.width t
    ∃ x, Completes i s (s.setM d x) ∧ ∀ n < 128, x.getLsbD n =
      (decide (n < Tag.lanes t) && laneOn (s.m m) (Tag.lanes t) n &&
        match Tag.fmt? t with
        | some fm => g (fm.val (laneAt (s.v a) w n)) (fm.val (laneAt (s.v b) w n))
        | none => f (intLane t (laneAt (s.v a) w n)) (intLane t (laneAt (s.v b) w n)))) ∧
  (∀ (i : Instr) (s : State) (d : MReg) (f : Nat → Bool), maskLogic i s.m = some (d, f) →
    ∃ x, Completes i s (s.setM d x) ∧ ∀ n < 128, x.getLsbD n = f n) ∧
  (∀ (s : State) (d a b : VReg) (m : MReg), s.tag b = s.tag a →
    let t := s.tag a
    let w := Tag.width t
    ∃ x, Completes (.vsel d a b m) s (s.setV d x t) ∧
      ∀ n < Tag.lanes t, laneAt x w n = cleanLane t (laneAt (s.v (if laneOn (s.m m) (Tag.lanes t) n then a else b)) w n)) ∧
  (∀ (s : State) (d : VReg) (m : MReg), (m.val ≠ 0 → s.tag d = .raw) →
    ∃ x, Completes (.vzero d m) s (s.setV d x .raw) ∧ ∀ n < 128, laneAt x 8 n = if (s.m m).getLsbD n then 0 else laneAt (s.v d) 8 n) ∧
  (∀ (s : State) (d a : VReg) (t : Tag), Completes (.vsettag d a t) s (s.setV d (s.v a) t)) ∧
  (∀ (s : State) (a : VReg) (t : Tag), s.tag a = t → Completes (.vchk a t) s s) ∧
  ∀ (s : State) (a : VReg) (t : Tag), s.tag a ≠ t → exec (.vchk a t) s = .next (s.takeCond (tagCond 1 0 0 (s.tag a)))

/-- R262: a conversion completes when S is not raw, the ratio is 1, 2 or 4, the part exists and a masked vd has the tag; it converts
the part's elements in ascending order and leaves the rest of vd. -/
def Obligations.VectorConvertResults : Prop :=
  ∀ (i : Instr) (s : State) (d a : VReg) (t : Tag) (m : MReg) (rm : Rnd) (p : Nat) (sat : Bool), conversion i = some (d, a, t, m, rm, p, sat) →
    let st := s.tag a
    let ns := Tag.lanes st
    let nd := Tag.lanes t
    let c := min ns nd
    st ≠ .raw → (max ns nd / c = 1 ∨ max ns nd / c = 2 ∨ max ns nd / c = 4) → p < max ns nd / c → (m.val ≠ 0 → s.tag d = t) →
    let on := laneOn (s.m m) c
    let seed (n : Nat) := seedAfter rm s.src.lfsr (onBelow on n)
    let di (n : Nat) := if ns ≤ nd then p * ns + n else n
    let si (n : Nat) := if ns ≤ nd then n else p * nd + n
    ∃ x, Completes i s ((s.setV d x t).setLfsr rm (seed c)) ∧
      (∀ n < c, laneAt x (Tag.width t) (di n) =
        if on n then toElem t s.src.ctab sat rm (seed (n + 1)) (elemVal st s.src.ctab (laneAt (s.v a) (Tag.width st) (si n))) % 2 ^ Tag.width t
        else laneAt (s.v d) (Tag.width t) (di n)) ∧
      ∀ k < nd, (∀ n < c, di n ≠ k) → laneAt x (Tag.width t) k = laneAt (s.v d) (Tag.width t) k

/-- R79, R80, R264–R266, R270: block quantisation of 96 f32 values, in blocks of 24: a block with a NaN or an infinity has the scale byte 255 and codes
0 and takes no SR step, another the scale exponent Floor(Log2(amax)) - EMAX within -127 to 127 (-127 for zeros) and each value over the scale
rounded, saturating, with one SR step each in ascending order, and bytes 100 to 127 are 0. Its inverse, and the code-table lookup, complete on their
tags; `vbpack` puts bit p of element 32r + j at bit j of word p of row block r, `vbunpack` is its inverse, and both complete on i8 and tern; that they
move a ternary code as it is, the reserved one too, is the model's choice (log 96). -/
def Obligations.BlockAndTableResults : Prop :=
  (∀ (s : State) (d a : VReg) (t : Tag) (f : Fmt) (rm : Rnd), (Instr.vbq d a t rm).wf = true → Tag.fmt? t = some f →
    s.tag a = .f32 → s.tag (a + 1) = .f32 → s.tag (a + 2) = .f32 →
    let v (n : Nat) : Val := fmtF32.val (laneAt (s.v (a + BitVec.toFin (BitVec.ofNat 4 (n / 32)))) 32 (n % 32))
    ∃ (x : Line) (seed : Nat → BitVec 32), Completes (.vbq d a t rm) s ((s.setV d x t).setLfsr rm (seed 96)) ∧ seed 0 = s.src.lfsr ∧
      (∀ n, 100 ≤ n → n < 128 → laneAt x 8 n = 0) ∧
      ∀ b < 4,
        ((∃ n, n / 24 = b ∧ (v n).special = true) →
          laneAt x 8 (96 + b) = 255 ∧ ∀ n, n / 24 = b → laneAt x 8 n = 0 ∧ seed (n + 1) = seed n) ∧
        ((∀ n, n / 24 = b → (v n).special = false) →
          ∃ sx : Int, (laneAt x 8 (96 + b) : Int) = sx + 127 ∧ BlockScale t v b sx ∧
            ∀ n, n / 24 = b → seed (n + 1) = lfsrAfter rm (seed n) ∧ laneAt x 8 n = f.round true rm (seed (n + 1)) ((v n).scale (-sx)))) ∧
  (∀ (s : State) (d a : VReg) (t : Tag) (f : Fmt) (rm : Rnd), (Instr.vbdq d a t rm).wf = true → Tag.fmt? t = some f → s.tag a = t →
    let val (n : Nat) : Val := blockVal (laneAt (s.v a) 8 (96 + n / 24)) (f.val (laneAt (s.v a) 8 n % 2 ^ f.w))
    let seed (n : Nat) := seedAfter rm s.src.lfsr n
    ∃ x0 x1 x2, Completes (.vbdq d a t rm) s ((((s.setV d x0 .f32).setV (d + 1) x1 .f32).setV (d + 2) x2 .f32).setLfsr rm (seed 96)) ∧
      ∀ n < 32, laneAt x0 32 n = fmtF32.round false rm (seed (n + 1)) (val n) ∧
        laneAt x1 32 n = fmtF32.round false rm (seed (n + 33)) (val (n + 32)) ∧
        laneAt x2 32 n = fmtF32.round false rm (seed (n + 65)) (val (n + 64))) ∧
  (∀ (s : State) (d a : VReg) (t : Tag) (m : MReg), (Instr.vctab d a t m).wf = true → (s.tag a = .n8 ∨ s.tag a = .c4) → (m.val ≠ 0 → s.tag d = t) →
    ∃ x, Completes (.vctab d a t m) s (s.setV d x t) ∧
      ∀ n < Tag.lanes t, laneAt x (Tag.width t) n =
        if laneOn (s.m m) (Tag.lanes t) n then
          toElem t 0 false .rne 0 (.ofInt (ctabAt s.src.ctab (laneAt (s.v a) (Tag.width (s.tag a)) n))) % 2 ^ Tag.width t
        else laneAt (s.v d) (Tag.width t) n) ∧
  ∀ (s : State) (d a : VReg) (w : Nat), (s.tag a = .i8 ∧ w = 8) ∨ (s.tag a = .tern ∧ w = 2) →
    (∃ x, Completes (.vbpack d a) s (s.setV d x (s.tag a)) ∧
      ∀ r p j, r < 32 / w → p < w → j < 32 → x.getLsbD (32 * w * r + 32 * p + j) = (s.v a).getLsbD (w * (32 * r + j) + p)) ∧
    ∃ x, Completes (.vbunpack d a) s (s.setV d x (s.tag a)) ∧
      ∀ r p j, r < 32 / w → p < w → j < 32 → x.getLsbD (w * (32 * r + j) + p) = (s.v a).getLsbD (32 * w * r + 32 * p + j)

/-- R66, R71, R267, R268: permutes and the moves between a lane and a g register complete. That the zips, `vunzip`, `vrotl`, `vbcast` and `vins`
write a lane without unused bits set and without the reserved ternary code, and `vperm` moves its bytes as they are, is the model's reading of
R66, R71 and R267 (log 13). -/
def Obligations.PermuteResults : Prop :=
  (∀ (i : Instr) (s : State) (d a b : VReg) (pick : Nat → Nat → Bool × Nat), laneMove i s.g = some (d, a, b, pick) → s.tag b = s.tag a →
    let t := s.tag a
    let w := Tag.width t
    ∃ x, Completes i s (s.setV d x t) ∧ ∀ n < Tag.lanes t,
      laneAt x w n = cleanLane t (laneAt (s.v (if (pick (Tag.lanes t) n).1 then b else a)) w (pick (Tag.lanes t) n).2)) ∧
  (∀ (s : State) (d a b : VReg), s.tag b = .n8 →
    ∃ x, Completes (.vperm d a b) s (s.setV d x (s.tag a)) ∧
      ∀ n < 128, laneAt x 8 n = if 128 ≤ laneAt (s.v b) 8 n then 0 else laneAt (s.v a) 8 (laneAt (s.v b) 8 n)) ∧
  (∀ (s : State) (d : VReg) (a : GReg) (t : Tag) (m : MReg), (m.val ≠ 0 → s.tag d = t) →
    ∃ x, Completes (.vbcast d a t m) s (s.setV d x t) ∧ ∀ n < Tag.lanes t,
      laneAt x (Tag.width t) n = if laneOn (s.m m) (Tag.lanes t) n then cleanLane t (s.g a).toNat else laneAt (s.v d) (Tag.width t) n) ∧
  (∀ (s : State) (d : GReg) (a : VReg) (b : GReg),
    Completes (.vextr d a b) s (s.setG d (extracted (s.tag a) (laneAt (s.v a) (Tag.width (s.tag a)) ((s.g b).toNat % Tag.lanes (s.tag a)))))) ∧
  ∀ (s : State) (d : VReg) (a b : GReg),
    ∃ x, Completes (.vins d a b) s (s.setV d x (s.tag d)) ∧ ∀ n < Tag.lanes (s.tag d),
      laneAt x (Tag.width (s.tag d)) n =
        if n = (s.g b).toNat % Tag.lanes (s.tag d) then cleanLane (s.tag d) (s.g a).toNat else laneAt (s.v d) (Tag.width (s.tag d)) n

/-- R74, R85, R269: a reduction of numeric lanes completes with the tree's value, lanes off entering as the identity. In SR the tree's additions take one
step each, level by level and in ascending order: with the n lanes and then the results numbered in that order, addition j combines entries 2j
and 2j + 1 into entry n + j, rounded with the LFSR after j + 1 steps. -/
def Obligations.ReductionResults : Prop :=
  (∀ (s : State) (d : GReg) (a : VReg) (m : MReg) (rm : Rnd), Tag.isInt (s.tag a) = true →
    let t := s.tag a
    Completes (.vredadd d a m rm) s (s.setG d (BitVec.ofInt 64
      (((List.range (Tag.lanes t)).map fun n => if laneOn (s.m m) (Tag.lanes t) n then intLane t (laneAt (s.v a) (Tag.width t) n) else 0).foldr (· + ·) 0)))) ∧
  (∀ (s : State) (d : GReg) (a : VReg) (m : MReg) (rm : Rnd) (f : Fmt), Tag.isFloat (s.tag a) = true → Tag.fmt? (s.tag a) = some f → rm ≠ .sr →
    let t := s.tag a
    let leaf (n : Nat) : Nat := if laneOn (s.m m) (Tag.lanes t) n then laneAt (s.v a) (Tag.width t) n else if rm = .rdn then 0 else 2 ^ (f.w - 1)
    Completes (.vredadd d a m rm) s (s.setG d (BitVec.ofNat 64
      ((treeFold (fun x y => f.round false rm s.src.lfsr ((f.val x).add rm (f.val y))) 8 ((List.range (Tag.lanes t)).map leaf)).headD 0)))) ∧
  (∀ (s : State) (d : GReg) (a : VReg) (m : MReg) (f : Fmt), Tag.isFloat (s.tag a) = true → Tag.fmt? (s.tag a) = some f →
    let t := s.tag a
    let n := Tag.lanes t
    let seed (j : Nat) := seedAfter .sr s.src.lfsr j
    ∃ entry : Nat → Nat, (∀ k < n, entry k = if laneOn (s.m m) n k then laneAt (s.v a) (Tag.width t) k else 2 ^ (f.w - 1)) ∧
      (∀ j < n - 1, entry (n + j) = f.round false .sr (seed (j + 1)) ((f.val (entry (2 * j))).add .sr (f.val (entry (2 * j + 1))))) ∧
      Completes (.vredadd d a m .sr) s ((s.setG d (BitVec.ofNat 64 (entry (2 * n - 2)))).setLfsr .sr (seed (n - 1)))) ∧
  ∀ (i : Instr) (s : State) (d : GReg) (a : VReg) (m : MReg) (g : Int → Int → Int) (iid : Bool → Nat → Int) (c : Fmt → Nat → Nat → Nat) (fid : Fmt → Nat),
    orderReduction i = some (d, a, m, g, iid, c, fid) → Tag.isNum (s.tag a) = true →
    let t := s.tag a
    let lane (n : Nat) := laneAt (s.v a) (Tag.width t) n
    let on := laneOn (s.m m) (Tag.lanes t)
    Completes i s (s.setG d (match Tag.fmt? t, Tag.int? t with
      | some f, _ => BitVec.ofNat 64 ((treeFold (c f) 8 ((List.range (Tag.lanes t)).map fun n => if on n then lane n else fid f)).headD 0)
      | none, some (sg, w) => BitVec.ofInt 64 ((treeFold g 8 ((List.range (Tag.lanes t)).map fun n => if on n then intLane t (lane n) else iid sg w)).headD 0)
      | none, none => 0))

/-! ### Control transfer -/

/-- R182, R183: a conditional branch completes; the strand goes on at PC + 8 × off when the comparison holds, else at the next pair.
`jal` and, with an aligned target, `jr` and `jalr` complete; `jalr` reads ga before it writes gd. A target with a bit of 2:0 set
takes MISALIGN at the jump and writes no register. -/
def Obligations.BranchesAndJumps : Prop :=
  (∀ (s : State), s.beginC.me.npc = s.me.pc + 8) ∧
  (∀ (i : Instr) (s : State) (h : Bool) (off : Imm 12), branchOf i s.g = some (h, off) →
    Completes i s (if h then { s with me := { s.me with npc := s.me.pc + BitVec.ofInt 64 (8 * immInt off) } } else s)) ∧
  (∀ (s : State) (d : GReg) (off : Imm 20),
    Completes (.jal d off) s ((s.setG d (s.me.pc + 8)).goTo (s.me.pc + BitVec.ofInt 64 (8 * immInt off)))) ∧
  (∀ (s : State) (a : GReg), (s.g a).toNat % 8 = 0 → Completes (.jr a) s (s.goTo (s.g a))) ∧
  (∀ (s : State) (d a : GReg), (s.g a).toNat % 8 = 0 → Completes (.jalr d a) s ((s.setG d (s.me.pc + 8)).goTo (s.g a))) ∧
  (∀ (s : State) (t : Word), (s.goTo t).me = { s.me with npc := t }) ∧
  ∀ (s : State) (d a : GReg), (s.g a).toNat % 8 ≠ 0 →
    exec (.jr a) s = .next (s.takeCond { code := 4, tinfo := 8, taddr := s.g a }) ∧
    exec (.jalr d a) s = .next (s.takeCond { code := 4, tinfo := 8, taddr := s.g a })

/-- R186, R187: `trap` takes USERTRAP with TINFO its code and TADDR 0. With INTRAP set, `rft` completes, goes on at TRAPPC and clears
INTRAP; with INTRAP clear it takes ILLSTATE. -/
def Obligations.TrapAndReturn : Prop :=
  (∀ (s : State) (c : BitVec 5), exec (.trap c) s = .next (s.takeCond { code := 13, tinfo := c.setWidth 64, taddr := 0 })) ∧
  (∀ s : State, s.me.intrap = true →
    ∃ t, exec .rft s = .next t ∧ t.ended = .ok ∧ t.me.npc = s.me.trappc ∧ t.me.intrap = false ∧
      t = { s with me := { s.me with npc := s.me.trappc, intrap := false, dirty := t.me.dirty }, ended := .ok }) ∧
  ∀ s : State, s.me.intrap = false → exec .rft s = .next (s.takeCond { code := 2, tinfo := 0x101 })

/-- R184, R185, R47: `cnop` and `yield` complete; `exit` does with no engine of its own pending, when the counter cell, the pool
descriptor and the frame that it names pass their checks, after the release at .c that a counter asks for; with an engine pending
it waits. -/
def Obligations.YieldAndExitComplete : Prop :=
  (∀ s : State, Completes .cnop s s) ∧
  (∀ s : State, s.src.pkst.getLsbD 63 = false → Completes .yield s { s with me := { s.me with leaving := some false } }) ∧
  (∀ (s s1 s2 s3 : State) (l1 l2 l3 : List Piece), s.src.pkst.getLsbD 63 = false → s.me.pendingEngines = 0 →
    (s.me.home ≠ 0 ∧ check s.whoStore s.me.home 64 1 s = .ok l1 s1 ∨ s.me.home = 0 ∧ s1 = s) →
    ((∃ p t, s.me.pool = some p ∧ check s.whoStore p 64 1 s1 = .ok l2 t ∧ check s.whoStore (frameVA s.me.key) 8 1 t = .ok l3 s2) ∨
      s.me.pool = none ∧ s2 = s1) →
    (s.me.home ≠ 0 ∧ Releases s2 s3 .c ∨ s.me.home = 0 ∧ s3 = s2) →
    Completes .exit s { s3 with me := { s3.me with leaving := some true } }) ∧
  ∀ s : State, s.me.pendingEngines ≠ 0 → s.src.pkst.getLsbD 63 = false →
    exec .exit s = .next (s.enterWait (.handles s.me.pendingEngines))

/-! ### Special registers -/

/-- R205–R209: `mfsr` completes with the register, zero-extended, as it stood before the pair. `mtsr` of a register that the strand may write completes: the register reads back the written bits that it keeps,
a read-only one what it held, and every other special register what it held; the strand's g, m, k and v registers stay. A write that
needs SUPV, by a strand without it, takes PRIV with the register's number and writes nothing. A write of DOM that makes a 33rd pair of R61 goes
through, which is the model's choice (log 85). -/
def Obligations.SpecialRegisters : Prop :=
  (∀ (s : State) (d : GReg) (r : SReg), Completes (.mfsr d r) s (s.setG d (BitVec.ofNat 64 (srContents r s)))) ∧
  (∀ (s : State) (d : GReg) (r : SReg), s.view = none → (s.me.supv = true ∨ (r ≠ .wdogt ∧ r ≠ .dord ∧ r ≠ .cgrp)) →
    (r = .dom → s.me.pkst.getLsbD 63 = false ∧ ∀ a, s.me.arrival = some a → a.result ≠ none) →
    ∃ t, Completes (.mtsr r d) s t ∧ t.view = none ∧ t.readSr r = srKeeps r (s.readSr r) (s.g d) ∧
      (∀ q, q ≠ r → t.readSr q = s.readSr q) ∧ t.me.g = s.me.g ∧ t.me.m = s.me.m ∧ t.me.k = s.me.k ∧ t.me.v = s.me.v ∧ t.mem = s.mem) ∧
  ∀ (s : State) (d : GReg), s.me.supv = false →
    exec (.mtsr .wdogt d) s = .next (s.takeCond { code := 6, tinfo := 6 }) ∧ exec (.mtsr .dord d) s = .next (s.takeCond { code := 6, tinfo := 7 }) ∧
    exec (.mtsr .cgrp d) s = .next (s.takeCond { code := 6, tinfo := 9 })

/-! ### Taking a condition (R359–R361, R368) -/

/-- R359–R361, R368: a program trap of a strand with a handler, outside its handler and not supervisor, enters the handler: TRAPPC names
the pair, TCAUSE, TINFO and TADDR the condition, INTRAP is set and PC is TVEC; memory and every other strand stay. A forwarded fault, or
a trap that no handler takes, parks the strand with REASON 2 and one more reply outstanding; PC stays; the trap registers are
written, TCAUSE 0, unless INTRAP is set. A frame fault parks with REASON 1, leaves TRAPPC, TINFO and TADDR, and clears TCAUSE outside
a handler. -/
def Obligations.ConditionsAreTaken : Prop :=
  (∀ (s : State) (c : Cond), c.fwd = false → c.frame = false → s.me.tvec ≠ 0 → s.me.intrap = false → s.me.supv = false →
    let t := s.takeCond c
    t.me.trappc = c.pc.getD s.me.pc ∧ t.me.tcause = c.reg ++ BitVec.ofNat 12 c.code ∧ t.me.tinfo = c.tinfo ∧ t.me.taddr = c.taddr ∧
    t.me.intrap = true ∧ t.me.pc = s.me.tvec ∧ t.me.state = s.me.state ∧ t.me.k = s.me.k ∧ t.me.m = s.me.m ∧ t.me.slot = s.me.slot ∧
    (s.me.held = [] → t.me.g = s.me.g ∧ t.me.v = s.me.v) ∧ t.me.held = [] ∧
    t.mem = s.mem ∧ t.l2 = s.l2 ∧ t.strands = s.strands ∧ t.msgs = s.msgs ∧ t.ended = .cond c) ∧
  (∀ (s : State) (c : Cond), c.frame = false → (c.fwd = true ∨ s.me.tvec = 0 ∨ s.me.intrap = true ∨ s.me.supv = true) →
    let t := s.takeCond c
    t.me.state = 3 ∧ t.me.reason = 2 ∧ t.me.pend = s.me.pend + 1 ∧ t.me.pc = s.me.pc ∧ t.me.slot = none ∧ t.me.intrap = s.me.intrap ∧
    (s.me.intrap = false → t.me.trappc = c.pc.getD s.me.pc ∧ t.me.tinfo = c.tinfo ∧ t.me.taddr = c.taddr ∧ t.me.tcause = 0) ∧
    (s.me.intrap = true → t.me.trappc = s.me.trappc ∧ t.me.tinfo = s.me.tinfo ∧ t.me.taddr = s.me.taddr ∧ t.me.tcause = s.me.tcause) ∧
    t.mem = s.mem ∧ (s.me.supv = false → ∃ m, t.msgs = s.msgs ++ [m] ∧ m.cls = .sync ∧ m.src = s.me.tile.toNat)) ∧
  ∀ (s : State) (c : Cond), c.frame = true →
    let t := s.takeCond c
    t.me.state = 3 ∧ t.me.reason = 1 ∧ t.me.pend = s.me.pend + 1 ∧ t.me.trappc = s.me.trappc ∧ t.me.tinfo = s.me.tinfo ∧
    t.me.taddr = s.me.taddr ∧ t.me.tcause = (if s.me.intrap then s.me.tcause else 0) ∧ t.me.pc = s.me.pc

/-! ### Loads, stores, atomics, fences -/

/-- R59, R210, R212, R214, R215, R222: a load whose bytes can be read completes with them in its destination, extended or unpacked as its
type says, through its lookahead window; an acquire comes before the bytes are read, and one at .c follows a load that sees a COUNT as a
decrement left it (R59; that any load of an equal value counts as one that sees it is the model's choice, log 73). -/
def Obligations.LoadsComplete : Prop :=
  (∀ (i : Instr) (s s1 : State) (a : Word) (n x : Nat) (put : Nat → State → State), plainLoad i s = some (a, n, put) →
    (∀ d b t la, i = .vldp d b t la → packedAligned (s.g b) t) → Loads s s1 a n 1 x → Completes i s (put x s1)) ∧
  ∀ (s s' s1 : State) (d a : GReg) (ty : LdTy) (sc : Scope) (l : List Piece) (x : Nat),
    check s.whoLoad (s.g a) (ldBytes ty) (ldBytes ty) s = .ok l s' → Loads (s'.acquire sc) s1 (s.g a) (ldBytes ty) (ldBytes ty) x →
    Completes (.ldAcq d a ty sc) s ((if s1.sawCount (s.g a) (ldBytes ty) x then s1.acquire .c else s1).setG d (ldExtend ty x))

/-- R210, R213–R215, R222: a store whose bytes can be written completes with them written; `vst` and `vstp` check the tag; `vstp`
keeps the other bits of its edge bytes; a release comes before and after an ordered store, and an ordered store that has been made and
waits only for its acknowledgement completes with the second release. That second release, and edge bytes written apart where they were
uncorrectable, are the model's choices (logs 14 and 18). -/
def Obligations.StoresComplete : Prop :=
  (∀ (i : Instr) (s s1 : State) (ok : Prop) (a : Word) (n v : Nat), plainStore i s = some (ok, a, n, v) → ok → Stores s s1 a n 1 v →
    Completes i s s1) ∧
  (∀ (s s1 : State) (d : VReg) (a : GReg) (t : Tag), s.tag d = t → packedAligned (s.g a) t → (s.g a).toNat % 8 = 0 →
    Stores s s1 (bitVA (s.g a)) (packedBytes (s.g a) (Tag.memWidth t) (Tag.lanes t)) 1
      (packN (Tag.memWidth t) ((List.range (Tag.lanes t)).map fun n => laneAt (s.v d) (Tag.width t) n)) →
    Completes (.vstp d a t) s s1) ∧
  (∀ (s s2 s3 s4 : State) (d : VReg) (a : GReg) (t : Tag) (l r : List Piece) (old : Got),
    let w := Tag.memWidth t
    let sh := (s.g a).toNat % 8
    let n := packedBytes (s.g a) w (Tag.lanes t)
    s.tag d = t → packedAligned (s.g a) t → sh ≠ 0 → Checked s s2 (do
      let l ← check s.whoStore (bitVA (s.g a)) n
      return [l, ← check s.whoLoad (bitVA (s.g a)) n]) [l, r] → memLoad s.whoLoad r s2 = .ok old s3 →
    memStore s.whoStore (if old.bad then edges l else l) (old.val % 2 ^ sh + 2 ^ sh * packN w ((List.range (Tag.lanes t)).map fun n => laneAt (s.v d) (Tag.width t) n) +
      old.val / 2 ^ (sh + Tag.lanes t * w) * 2 ^ (sh + Tag.lanes t * w)) s3 = .ok () s4 →
    Completes (.vstp d a t) s s4) ∧
  (∀ (s s1 s2 s3 s4 : State) (d a : GReg) (ty : StTy) (sc : Scope) (l : List Piece), s.me.did = 0 →
    (s.g a).toNat % stBytes ty = 0 → Checked s s1 (do return [← check s.whoStore (s.g a) (stBytes ty)]) [l] → Releases s1 s2 sc → memStore s.whoStore l (s.g d).toNat s2 = .ok () s3 →
    Releases { s3 with me := { s3.me with did := 1 } } s4 sc → Completes (.stRel d a ty sc) s s4) ∧
  ∀ (s s1 : State) (d a : GReg) (ty : StTy) (sc : Scope), s.me.did ≠ 0 → Releases s s1 sc → Completes (.stRel d a ty sc) s s1

/-- R216: a gather or scatter whose index tag is right and whose lanes all pass their checks, made before any lane is read or
written, completes with every lane read or written. -/
def Obligations.GatherScatterComplete : Prop :=
  (∀ (i : Instr) (s s1 s2 : State) (n : Nat) (d : VReg) (a : GReg) (b : VReg) (la : La) (want out : Tag) (l : List (Word × List Piece)) (xs : List Nat),
    gatherOf i = some (n, d, a, b, la, want, out) → s.tag b = want → checkLanes s.whoLoad n (laneAddrs s a b n) s = .ok l s1 →
    loadLanes s.whoLoad l s1 = .ok (xs, none) s2 → Completes i s (s2.setVLa d la (ofLanes (8 * n) xs) out)) ∧
  ∀ (i : Instr) (s s1 s2 : State) (n : Nat) (d : VReg) (a : GReg) (b : VReg) (want : Tag) (l : List (List Piece)),
    scatterOf i = some (n, d, a, b, want) → s.tag b = want →
    Checked s s1 (do return (← checkLanes s.whoStore n (laneAddrs s a b n)).map (·.2)) l →
    storeLanes s.whoStore l ((List.range (128 / n)).map (laneAt (s.v d) (8 * n))) s1 = .ok () s2 → Completes i s s2

/-- R103, R104, R109: the bytes of the scratch window that a strand may use can be stored and then loaded: the store writes the
tile's scratchpad and nothing else but the strand's note of its pieces, every other byte of it stays, and the load returns what was stored. All
pieces of the access are performed in one step (R133), which is its first. -/
def Obligations.ScratchpadStoreThenLoad : Prop :=
  ∀ (s : State) (a : Word) (off n v : Nat), s.piecewise = false → s.me.begun = false → a.toNat = Config.scratchBase + off → off + n ≤ Config.scratchSize →
    0 < n → v < 256 ^ n → ownerFail s s.here s.me.key.asid s.me.supv off n = none →
    ∃ s1, Stores s s1 a n 1 v ∧ s1 = { s.modMyTile (fun t => t.scrWrite off n v) with me := { s.me with pieces := s1.me.pieces }, passed := true } ∧
      (∀ b, b < off ∨ off + n ≤ b → Mem.read s1.myTile.scratch b = Mem.read s.myTile.scratch b) ∧
      ((s1.myTile.scrBad off n) = false → Loads s1 s1 a n 1 v)

/-- R210, R389: a non-canonical address takes ADDRFORM, then a misaligned one MISALIGN with the alignment, then one that the strand may
not use PRIV; the register destinations stay. An ordered load or store takes MISALIGN before all of them. -/
def Obligations.AccessChecksInOrder : Prop :=
  (∀ (s : State) (d a : GReg) (sc : Scope),
    (∀ ty : LdTy, (s.g a).toNat % ldBytes ty ≠ 0 →
      exec (.ldAcq d a ty sc) s = .next (s.takeCond { code := 4, tinfo := BitVec.ofNat 64 (ldBytes ty), taddr := s.g a })) ∧
    ∀ ty : StTy, s.me.did = 0 → (s.g a).toNat % stBytes ty ≠ 0 →
      exec (.stRel d a ty sc) s = .next (s.takeCond { code := 4, tinfo := BitVec.ofNat 64 (stBytes ty), taddr := s.g a })) ∧
  ∀ (s : State) (w : Who) (a : Word) (n align : Nat),
    (canon a = false → check w a n align s = .error (.cond { code := 12, taddr := a }) s) ∧
    (canon a = true → a.toNat % align ≠ 0 → check w a n align s = .error (.cond { code := 4, tinfo := BitVec.ofNat 64 align, taddr := a }) s) ∧
    ∀ off, canon a = true → a.toNat % align = 0 → a.toNat = Config.scratchBase + off → off < Config.scratchSize → off + n ≤ Config.scratchSize →
      ∀ o why, ownerFail s s.here s.me.key.asid s.me.supv off n = some (o, why) →
        check w a n align s = .error (.cond { code := 6, tinfo := BitVec.ofNat 64 why, taddr := BitVec.ofNat 64 (Config.scratchBase + o) }) s

/-- R91, R97, R110, R112: a load changes nothing but translations, cached lines and what goes with them: no register, no strand, no byte
of DRAM; with charging off and no dirty line in the tile's L1, every home serves the bytes that it served before. Where the one checked
piece of a store lies in memory, the bytes stored to are the n bytes at the address that the check translated; with no dirty line
in the tile's L1, a cached store leaves every home as it was and every byte of the tile's own lines outside the n bytes, an uncached one
changes at its home those n bytes only, in its step, or leaves as a message and changes none yet. A store to a stash map's line changes those n
bytes of the tile's scratchpad and marks them dirty; no home and no other tile changes (R106). The store's pieces are performed in one step (R133). -/
def Obligations.LoadAndStoreFrames : Prop :=
  (∀ (s s1 : State) (a : Word) (n align x : Nat), Loads s s1 a n align x →
    s1 = { s with me := { s.me with parts := s1.me.parts }, pieceNo := s1.pieceNo,
                  tiles := s1.tiles, layers := s1.layers, walker := s1.walker, l2 := s1.l2, cxl := s1.cxl, walkLog := s1.walkLog,
                  msgs := s1.msgs, packets := s1.packets, portOut := s1.portOut, portSeq := s1.portSeq, loglost := s1.loglost, logtail := s1.logtail, msix := s1.msix } ∧
    (chgOn s = false → (∀ e ∈ s.myTile.l1, e.dirty = 0) → ∀ pa, s1.homeRead pa 1 = s.homeRead pa 1)) ∧
  (∀ (s s' s1 : State) (a : Word) (n v off : Nat) (o : Option Xl), s'.piecewise = false → 0 < n → off % 128 + n ≤ 128 →
    Checked s s' (do return [← check s.whoStore a n]) [[{ va := a, len := n, place := .stash off o }]] →
    memStore s'.whoStore [{ va := a, len := n, place := .stash off o }] v s' = .ok () s1 →
    s1.me = s'.me ∧ s1.strands = s'.strands ∧ s1.mem = s'.mem ∧ s1.l2 = s'.l2 ∧ (∀ i, i ≠ s.here → s1.tile i = s'.tile i) ∧
    s1.myTile.scrRead off n = v % 256 ^ n ∧ (∀ b, b < off ∨ off + n ≤ b → Mem.read s1.myTile.scratch b = Mem.read s'.myTile.scratch b) ∧
    (s1.myTile.slineFind (off / 128)).dirty = (s'.myTile.slineFind (off / 128)).dirty ||| lineMask (off % 128) n ∧
    s1.myTile.l1 = s'.myTile.l1 ∧ s1.myTile.full = s'.myTile.full) ∧
  ∀ (s s' s1 : State) (a : Word) (n v : Nat) (x : Xl), s'.piecewise = false → 0 < n → x.pa % 128 + n ≤ 128 →
    Checked s s' (do return [← check s.whoStore a n]) [[{ va := a, len := n, place := .mem x }]] →
    memStore s'.whoStore [{ va := a, len := n, place := .mem x }] v s' = .ok () s1 →
    (∀ e ∈ s'.myTile.l1, e.dirty = 0) → (s'.win x.pa = .inter ∨ ∃ st o, s'.win x.pa = .near st o) → s'.badIn x.pa n = false →
    s1.me = s'.me ∧ s1.strands = s'.strands ∧ s1.mem = s'.mem ∧
    (x.mt ≠ 1 → (∀ pa, s1.homeRead pa 1 = s'.homeRead pa 1) ∧
      ∃ e, s1.myTile.l1Find (x.pa / 128) s.me.key.asid = some e ∧ lineBytes e.data (x.pa % 128) n = v % 256 ^ n ∧
        ∀ f, s'.myTile.l1Find (x.pa / 128) s.me.key.asid = some f → ∀ b < 128, (b < x.pa % 128 ∨ x.pa % 128 + n ≤ b) →
          lineBytes e.data b 1 = lineBytes f.data b 1) ∧
    (x.mt = 1 → s1.msgs = s'.msgs → s1.homeRead x.pa n = v % 256 ^ n ∧ ∀ pa, (pa < x.pa ∨ x.pa + n ≤ pa) → s1.homeRead pa 1 = s'.homeRead pa 1) ∧
    (x.mt = 1 → s1.msgs ≠ s'.msgs → ∀ pa, s1.homeRead pa 1 = s'.homeRead pa 1)

/-- R135, R223–R225: an atomic whose location passes its checks, of memory type 3 among them (R91), completes: its release, the operation, its
acquire, and then the old value in its destination. The operands that `amocas` sends to a home are the new value and then the compared one, which
is the model's choice (log 15). A return-free reduction to device memory of this package completes: the request
leaves for the home and the strand counts one more in flight; no register changes. -/
def Obligations.AtomicsComplete : Prop :=
  (∀ (i : Instr) (s0 s s1 s2 s3 : State) (m : Atomic) (l r : List Piece) (old : Nat), s = { s0 with part := none } →
    atomicOf i s0 = some m → m.a.toNat % m.n = 0 → Checked s s1 (amoChecks m.a m.n m.sc) [l, r] →
    (if semReleases m.sem then Releases s1 s2 m.sc else s2 = s1) → amoAt l r m.a m.n m.sc m.req m.new s2 = .ok old s3 →
    Completes i s0 (m.put old (if semAcquires m.sem then s3.acquire m.sc else s3))) ∧
  ∀ (i : Instr) (s s1 : State) (op : Nat) (va : Word) (n v : Nat) (x : Xl), reductionOf i s = some (op, va, n, v) → i.wf = true →
    canon va = true → va.toNat % n = 0 → isScratch va.toNat = false → xlate s.whoStore va s = .ok x s1 →
    (s1.win x.pa = .inter ∨ ∃ st o, s1.win x.pa = .near st o) → x.mt ≤ 1 → s1.rednInFlight < 256 → s1.crowded .req (1025 + slice x.pa) = false →
    let t := s1.send .req s1.here 1024 (.redn s.me.key x.pa op (n == 8) (BitVec.ofNat 64 v))
    Completes i s { t with me := { t.me with redn := t.me.redn + 1 } }

/-- R136, R141: in the scratchpad and at a home, an atomic returns the location's old value and leaves there what the operation makes of
it; one that writes nothing leaves it alone. A home does with the request that an instruction sends it what the instruction does at its tile. A
request that need not travel is performed in its step. -/
def Obligations.AtomicReadsThenWrites : Prop :=
  (∀ (s : State) (a : Word) (off n : Nat) (sc : Scope) (q : AmoReq) (f : Nat → Option Nat), s.piecewise = false → s.myTile.scrBad off n = false →
    let l : List Piece := [{ va := a, len := n, place := .scr off }]
    amoAt l l a n sc q f s = .ok (s.myTile.scrRead off n)
      (match f (s.myTile.scrRead off n) with
        | some new => s.modMyTile fun t => t.scrWrite off n (new % 256 ^ n)
        | none => s)) ∧
  (∀ (s : State) (a : Word) (pa n : Nat) (q : AmoReq) (f : Nat → Option Nat), s.heldAtHome pa = false → s.badIn pa n = false → 0 < n →
    pa % 128 + n ≤ 128 → atHomeOf q n = some f →
    ∃ s1, s.served s.here 1024 (.amo pa n q.op q.data) = some (.old (s.homeRead pa n), s1) ∧
      (AtOnce s (.amo pa n q.op q.data) → amoHome a pa n q s = .ok (s.homeRead pa n) s1) ∧ s1.mem = s.mem ∧ s1.me = s.me ∧
      s1.homeRead pa n = (match f (s.homeRead pa n) with | some new => new % 256 ^ n | none => s.homeRead pa n) ∧
      ∀ b, (b < pa ∨ pa + n ≤ b) → s1.homeRead b 1 = s.homeRead b 1) ∧
  ∀ (i : Instr) (s : State) (m : Atomic), i.wf = true → atomicOf i s = some m →
    ∃ f, atHomeOf m.req m.n = some f ∧ ∀ x < 256 ^ m.n, (f x).map (· % 256 ^ m.n) = (m.new x).map (· % 256 ^ m.n)

/-- R217, R138: on a scratchpad word that the strand may use, `ldf` and `ldfe` complete on a full word that no other `ldfe` waits
for, `ldfe` leaving it empty; `stf`, and `stef` on an empty word that no other `stef` waits for, complete and leave it full with
their value; `fempty` leaves it empty and `ftest` tells which. Nobody waits on the word. -/
def Obligations.FullEmptyWords : Prop :=
  ∀ (s : State) (a d : GReg) (la : La) (off : Nat), ScratchWord s (s.g a) off → s.src.pkst.getLsbD 63 = false → s.me.ans = none →
    s.myTile.feq = [] →
    let p : State := { s with passed := true }
    (∀ x, x = BitVec.ofNat 64 (s.myTile.scrRead off 8) → s.myTile.isFull off = true → s.myTile.scrBad off 8 = false →
      let s0 := if s.myTile.scopeC.contains (off / 8) then p.acquire .c else p
      Completes (.ldf d a la) s (s0.setGLa d la x) ∧ Completes (.ldfe d a la) s ((s0.setGLa d la x).modMyTile fun t => t.setEmpty off)) ∧
    Completes (.stf d a) s (p.modMyTile fun t => (t.scrWrite off 8 (s.g d).toNat).setFull off false) ∧
    (s.myTile.isFull off = false → Completes (.stef d a) s (p.modMyTile fun t => (t.scrWrite off 8 (s.g d).toNat).setFull off false)) ∧
    Completes (.fempty a) s (s.modMyTile fun t => t.setEmpty off) ∧
    Completes (.ftest d a) s (s.setG d (if s.myTile.isFull off then 1 else 0)) ∧
    (s.myTile.isFull off = false → exec (.ldf d a la) s = .next (p.enterWait (.full off false)) ∧ exec (.ldfe d a la) s = .next (p.enterWait (.full off true))) ∧
    (s.myTile.isFull off = true → exec (.stef d a) s = .next (p.enterWait (.empty off (s.g d))))

/-- R226, R111, R132: a fence completes with its release and then its acquire at its scope; at .t it does nothing. -/
def Obligations.FencesComplete : Prop :=
  (∀ (i : Instr) (s s1 : State) (rel acq : Bool) (sc : Scope), fenceOf i = some (rel, acq, sc) → (if rel then Releases s s1 sc else s1 = s) →
    Completes i s (if acq then s1.acquire sc else s1)) ∧
  (∀ s : State, Releases s s .t ∧ s.acquire .t = s) ∧
  (∀ s : State, Completes .fenceI s (s.modMyTile fun t => { t with icache := [] })) ∧
  (∀ s : State, s.me.redn = 0 → Completes .fenceN s s) ∧
  (∀ s : State, s.me.redn ≠ 0 → exec .fenceN s = .next (s.enterWait .unit)) ∧
  (∀ (s s1 s2 : State) (a b : GReg) (l : List PagePart), nearPages s.whoStore (s.g a) (s.g b).toNat s = .ok l s1 →
    nearRelease (s.g a) (s.g b).toNat l s1 = .ok () s2 → Completes (.fenceRelN a b) s s2) ∧
  ∀ (s s1 : State) (a b : GReg) (l : List PagePart), nearPages s.whoLoad (s.g a) (s.g b).toNat s = .ok l s1 →
    (s1.l2.all fun e => e.dirty == 0 || !inParts l e.addr || !s1.clamped (e.addr * 128)) = true →
    ∃ t, Completes (.fenceAcqN a b) s t ∧ SameStrands s1 t ∧ (∀ e ∈ t.l2, inParts l e.addr = false) ∧
      ∀ e ∈ t.myTile.l1, inParts l e.addr = true → e.valid = false ∧ e.dirty ≠ 0

/-! ### Stash maps, spaces, handles, engines -/

/-- R219, R220, R233: `map` completes when its ranges are aligned, of MT 0 and outside the scratch window, meet no other map and fit the
scratchpad, and the tile's cached lines of the range can go home; the lowest free map takes them (the model's choice, log 66), the tile's
cached bytes of the range go home, and gd names the map. `unmap` and `sflush` complete on a map of the strand's space, its dirty lines
written, those that `sflush` leaves whole and clean filled from their homes where they lack bytes (the model's choice, log 62); another base takes STASH 5. An INVL of a supervisor completes when every receiver has answered. -/
def Obligations.StashAndSpaceInstructions : Prop :=
  (∀ (s s1 : State) (d a b : GReg) (l : List PagePart) (n : Nat),
    let base := s.g a
    let off := (s.g b).toNat % 2 ^ 32
    let len := (s.g b).toNat / 2 ^ 32
    let maps := s.myTile.stashes
    base.toNat % 128 = 0 → off % 128 = 0 → len % 128 = 0 → len ≠ 0 → off + len ≤ Config.scratchSize →
    allPages s.whoStore base len false s = .ok l s1 → PlainPages l → (∀ p ∈ l, p.scr = false) →
    (∀ e ∈ s.myTile.l1, e.asid = s.me.key.asid → inParts l e.addr = true → s.stuck s.here e = false) → maps.length < 8 →
    (∀ e ∈ maps, e.2.asid = s.me.key.asid → overlap (va57 base) len (va57 e.2.base) e.2.len = false) →
    (∀ e ∈ maps, overlap off len e.2.off e.2.len = false) → (isCobbler s.here = true → off + len ≤ Config.cobblerBase) →
    ownerFail s1 s1.here s1.me.key.asid s1.me.supv off len = none →
    n < 8 → look n maps = none → (∀ m < n, look m maps ≠ none) →
    Completes (.map d a b) s (((s1.l1Purge s.here s.me.key.asid l).modMyTile fun t =>
      { t with
        stashes := put n { asid := s.me.key.asid, base := base, off := off, len := len } t.stashes
        slines := t.slines.filter fun e => !(decide (off ≤ e.addr * 128) && decide (e.addr * 128 < off + len)) }).setG d (BitVec.ofNat 64 n))) ∧
  (∀ (s s1 : State) (a : GReg) (n : Nat) (m : Stash),
    (s.myTile.stashes.find? fun e => e.2.asid = s.me.key.asid && e.2.base = s.g a) = some (n, m) →
    (stashOut s.whoStore m true s = .ok () s1 → Completes (.sflush a) s s1) ∧
    (stashOut s.whoStore m false s = .ok () s1 → Completes (.unmap a) s (s1.modMyTile fun t =>
      { t with stashes := del n t.stashes, slines := t.slines.filter fun e => !(decide (m.off ≤ e.addr * 128) && decide (e.addr * 128 < m.off + m.len)) }))) ∧
  (∀ (s : State) (a : GReg), (s.myTile.stashes.find? fun e => e.2.asid = s.me.key.asid && e.2.base = s.g a) = none →
    exec (.unmap a) s = .next (s.takeCond { code := 10, tinfo := 5, taddr := s.g a }) ∧
    exec (.sflush a) s = .next (s.takeCond { code := 10, tinfo := 5, taddr := s.g a })) ∧
  ∀ (i : Instr) (s : State) (form : BitVec 2) (asid : BitVec 12) (va len : Word), invlOf i s = some (form, asid, va, len) → NoPacket s →
    (s.me.supv = false → exec i s = .next (s.takeCond { code := 6, tinfo := 0x100 })) ∧
    (s.me.supv = true → (form = 0 ∧ len = 0 ∨ s.me.ans = some .accepted) → Completes i s { s with passed := true }) ∧
    (s.me.supv = true → ¬ (form = 0 ∧ len = 0) → s.me.ans = none →
      ∃ t, exec i s = .next t ∧ t.ended = .wait .invl ∧
        t.invls = s.invls ++ [{ form := form, asid := asid, va := va, len := len, who := .strand s.me.key, left := BitVec.allOnes 1026 }])

/-- R197–R203, R137: the handle instructions complete on what their handles hold: a wait and a test of a done handle acquire as its
kind asks, `hwaitany` returns the lowest done handle, `hcancel` empties a done or imported handle and asks a pending engine to stop,
`hexport` writes the word after a release and empties the register (a second release comes after the write, for which a store already made
then only waits: the model's choice, log 14), `himport` takes a pending or a done word of a cell, `hstate` reads the word. -/
def Obligations.HandlesComplete : Prop :=
  (∀ (s s1 : State) (d : GReg) (a : KReg), hEmpty (s.k a) = false → pollCell a s = .ok () s1 →
    (NoPacket s → hPending (s1.kNow a) = false → Completes (.hwait a) s (({ s1 with passed := true } : State).handleAcquire (s1.kNow a))) ∧
    (hDone (s1.kNow a) = true → Completes (.htest d a) s ((s1.handleAcquire (s1.kNow a)).setG d 1)) ∧
    (hDone (s1.kNow a) = false → Completes (.htest d a) s (s1.setG d 0))) ∧
  (∀ (s s1 : State) (d a : GReg) (n : KReg), NoPacket s →
    let ks := selected ((s.g a).toNat % 256)
    (s.g a).toNat % 256 ≠ 0 → (∀ k ∈ ks, hEmpty (s.k k) = false) → pollAll ks s = .ok () s1 →
    n ∈ ks → hDone (s1.kNow n) = true → (∀ k ∈ ks, k < n → hDone (s1.kNow k) = false) →
    Completes (.hwaitany d a) s
      ((ks.foldl (fun (t : State) k => if hDone (s1.kNow k) then t.handleAcquire (s1.kNow k) else t) ({ s1 with passed := true } : State)).setG d (BitVec.ofNat 64 n.val))) ∧
  (∀ (s : State) (a : KReg), hEmpty (s.k a) = false →
    let empty : State := { s.setK a 0 with me := { (s.setK a 0).me with xw := s.me.xw.set a 0 } }
    (hDone (s.k a) = true ∨ hKind (s.k a) = 5 → Completes (.hcancel a) s empty) ∧
    (hPending (s.k a) = true → hKind (s.k a) = 2 → Completes (.hcancel a) s s) ∧
    (hPending (s.k a) = true → hKind (s.k a) = 4 → Completes (.hcancel a) s (s.cancelKernel s.me.key a (seqOf (s.k a)))) ∧
    (hPending (s.k a) = true → (hKind (s.k a) = 1 ∨ hKind (s.k a) = 3) →
      Completes (.hcancel a) s (s.modMyTile fun t => t.cancelCopies s.me.key a (seqOf (s.k a))))) ∧
  (∀ (s s1 s2 s3 s4 : State) (d : GReg) (a : KReg) (l : List Piece),
    let w := s.k a
    let noted : State := if hPending w then s3.modMyTile fun t =>
      { t with exports := t.exports.filter (fun e => !(decide (e.1 = seqOf w) && decide (e.2.1 = s3.me.key))) ++ [(seqOf w, s3.me.key, s.g d)] } else s3
    hEmpty w = false → hKind w ≠ 5 → (s.g d).toNat % 8 = 0 →
    (s.me.did = 0 → Checked s s1 (do return [← check s.whoStore (s.g d) 8 8]) [l] → Releases s1 s2 .c → memStore s.whoStore l w.toNat s2 = .ok () s3 →
      Releases { noted with me := { noted.me with did := 1 } } s4 .c → Completes (.hexport d a) s (s4.setK a 0)) ∧
    (s.me.did ≠ 0 → Releases s s4 .c → Completes (.hexport d a) s (s4.setK a 0))) ∧
  (∀ (s s1 s2 s3 : State) (d : KReg) (a : GReg) (l : List Piece) (w : Word), (hPending (s.k d) = true → NoPacket s) → (s.g a).toNat % 8 = 0 →
    check s.whoLoad (s.g a) 8 8 s = .ok l s1 → claimHandle d s1 = .ok () s2 → waitRead (s.g a) s2 = .ok w s3 →
    let s4 := s3.acquire .c
    let kept (h x : Word) : State := { s4.setK d h with me := { (s4.setK d h).me with xw := s4.me.xw.set d x } }
    let imported := BitVec.ofNat 64 (hState w * 2 ^ 62 + 5 * 2 ^ 59 + w.toNat % 2 ^ 57)
    Completes (.himport d a) s
      (if hState w = 1 then kept imported (s.g a) else if hState w = 2 then kept imported 0 else kept 0 0)) ∧
  (∀ (s : State) (d : GReg) (a : KReg), Completes (.hstate d a) s (s.setG d (s.k a))) ∧
  ∀ (s : State) (a : KReg) (d : GReg), hEmpty (s.k a) = true →
    let no : Cond := { code := 11, tinfo := BitVec.ofNat 64 a.val }
    exec (.htest d a) s = .next (s.takeCond no) ∧ exec (.hcancel a) s = .next (s.takeCond no) ∧ exec (.hexport d a) s = .next (s.takeCond no)

/-- R194, R196, R228–R232, R283, R286: an engine's operation completes when its descriptor and operands pass their tests, its handle
register is free and the engine has room: the handle is pending with the tile's next number, and the operation joins its queue. -/
def Obligations.EngineOperationsStart : Prop :=
  (∀ (s : State) (k : KReg) (kind : Nat) (rmt : Bool), ∃ t, startHandle k kind rmt s = .ok s.myTile.handleCount t ∧
    t.me.k = s.me.k.set k (newHandle kind rmt s.myTile.handleCount) ∧ t.me.xw = s.me.xw.set k 0 ∧ t.me.g = s.me.g ∧
    t.myTile.handleCount = s.myTile.handleCount + 1 ∧ t.mem = s.mem) ∧
  (∀ (i : Instr) (s s1 s2 s3 s4 : State) (k : KReg) (a : GReg) (n x : Nat) (seq : BitVec 16), copyOf i = some (k, a, n) → NoPacket s →
    (s.g a).toNat % n = 0 → readDesc (s.g a) n s = .ok x s1 →
    let c := describedCopy s k n x
    goodCopy c n x → claimHandle k s1 = .ok () s2 → s1.myTile.copies.length < 32 → Releases s2 s3 (if c.remote then .c else .t) →
    startHandle k 1 c.remote s3 = .ok seq s4 →
    Completes i s (s4.modMyTile fun t => { t with copies := t.copies ++ [{ c with seq := seq }] })) ∧
  (∀ (s s1 s2 : State) (d : KReg) (a b : GReg) (seq : BitVec 16), NoPacket s → (s.g b).toNat ≤ 2 ^ 36 → claimHandle d s = .ok () s1 →
    startHandle d 3 false s1 = .ok seq s2 →
    (s.g b = 0 → Completes (.pfl2 d a b) s (s2.setK d (doneHandle (newHandle 3 false seq) 0 0))) ∧
    (s.g b ≠ 0 → Completes (.pfl2 d a b) s (s2.modMyTile fun u => { u with prefetches := u.prefetches ++
      [{ key := s.me.key, kreg := d, seq := seq, asid := s.me.key.asid, supv := s.me.supv, va := s.g a, len := (s.g b).toNat, done := 0, stop := none }] }))) ∧
  (∀ (i : Instr) (s s1 s2 : State) (f : MmaForm) (d : QReg) (a b : GReg) (k : KReg) (n : Nat) (seq : BitVec 16), mmaOf i = some (f, d, a, b, k) →
    s.myTile.boundTo s.me.key d = some n → s.src.qheld.getLsbD d.val = true →
    (s.g a).toNat / 2 ^ 42 % 2 ^ 21 = 0 → (s.g b).toNat / 2 ^ 42 % 2 ^ 21 = 0 →
    (∀ e ∈ mmaExtents (mmaRow f) (s.g a) (s.g b), e.1 % e.2.2 = 0 ∧ e.1 + e.2.1 ≤ Config.scratchSize ∧
      ownerFail s s.here s.me.key.asid s.me.supv e.1 e.2.1 = none) →
    claimHandle k s = .ok () s1 → s1.myTile.mat.length < 8 → startHandle k 2 false s1 = .ok seq s2 →
    Completes i s (s2.modMyTile fun u =>
      { u with mat := u.mat ++ [{ key := s.me.key, kreg := k, seq := seq, q := d, form := some f, a := s.g a, b := s.g b, ctab := s.src.ctab,
                                  uses := regionsOf (mmaGranules (mmaRow f) (s.g a) (s.g b)), got := [] }] })) ∧
  ∀ (s s1 s2 s3 : State) (d : QReg) (a b : GReg) (k : KReg) (n : Nat) (seq : BitVec 16), s.myTile.boundTo s.me.key d = some n →
    s.src.qheld.getLsbD d.val = true → (∀ o ∈ s.myTile.mat, ¬ (o.key = s.me.key ∧ o.q = d ∧ o.form.isSome = true)) → (s.myTile.acc n).bad = false →
    (s.g b).toNat < 1024 → (s.g a).toNat + 8512 ≤ Config.scratchSize → (s.g a).toNat % 64 = 0 →
    let there : Bool := decide ((s.g b).toNat ≠ s.here)
    claimHandle k s = .ok () s1 → s1.myTile.mat.length < 8 → Releases s1 s2 (if there then .c else .t) → startHandle k 2 there s2 = .ok seq s3 →
    Completes (.qsend d a b k) s (s3.modMyTile fun u =>
      { u with mat := u.mat ++ [{ key := s.me.key, kreg := k, seq := seq, q := d, form := none, a := s.g a, b := s.g b, ctab := 0,
                                  uses := 0, got := [] }] })

/-- R272, R278, R279, R284, R285, R287: the accumulator instructions complete on a held accumulator with nothing queued for it:
`qacq` binds a free one, zero, with its save area; `qrel` frees it; `qzero` and `qanchor` clear it; `qadd` adds element by element;
`qaddm` adds a full image and leaves its words empty; the readouts round a row to the format, lane by lane in ascending order. -/
def Obligations.AccumulatorsComplete : Prop :=
  (∀ (s s1 : State) (d : QReg) (a : GReg) (l : List PagePart) (i : Nat), NoPacket s → s.src.qheld.getLsbD d.val = false →
    ((s.g a).toNat + 8448 ≤ Config.scratchBase ∨ Config.scratchBase + Config.scratchSize ≤ (s.g a).toNat) → (s.g a).toNat % 8192 = 0 →
    allPages s.whoStore (s.g a) 8448 false s = .ok l s1 → PlainPages l → s1.myTile.freeAcc = some i →
    ∃ t, Completes (.qacq d a) s t ∧ t.me.qheld = s1.me.qheld ||| BitVec.ofNat 16 (2 ^ d.val) ∧
      t.me.area d.val = sext 57 ((s.g a).toNat % 2 ^ 57) ∧ t.me.savedAnchor d.val = 0 ∧ (∀ q : QReg, q ≠ d → t.me.area q.val = s1.me.area q.val) ∧
      t = { s1.modMyTile (fun u => { u with accs := t.myTile.accs }) with me := { s1.me with qheld := t.me.qheld, save := t.me.save, dirty := t.me.dirty } } ∧
      t.myTile.acc i = { Accum.reset with bind := some (s.me.key, d) } ∧ ∀ j, j ≠ i → t.myTile.acc j = s1.myTile.acc j) ∧
  (∀ (s : State) (d : QReg) (i : Nat), HoldsAcc s d i →
    Completes (.qrel d) s
      { (s.modMyTile fun t => t.setAcc i { t.acc i with bind := none, bad := false, retained := false }) with me := s.me.setHeld d false } ∧
    Completes (.qzero d) s (s.modMyTile fun t => t.setAcc i { t.acc i with elems := [], bad := false }) ∧
    (∀ a : GReg, -1024 ≤ (s.g a).toInt → (s.g a).toInt ≤ 1023 → Completes (.qanchor d a) s
      (s.modMyTile fun t => t.setAcc i { t.acc i with elems := [], bad := false, anchor := BitVec.ofInt 11 (s.g a).toInt })) ∧
    (∀ a : GReg, ((s.g a).toInt < -1024 ∨ 1023 < (s.g a).toInt) → exec (.qanchor d a) s = .next (s.takeCond { code := 5, tinfo := 6 }))) ∧
  (∀ (s : State) (d a b : QReg) (i j n : Nat), HoldsAcc s a i → HoldsAcc s b j → HoldsAcc s d n →
    (s.myTile.acc i).bad = false → (s.myTile.acc j).bad = false → (s.myTile.acc n).bad = false →
    ((s.myTile.acc i).anchor = (s.myTile.acc j).anchor →
      ∃ el, Completes (.qadd d a b) s (s.modMyTile fun t => t.setAcc n { t.acc n with anchor := (s.myTile.acc i).anchor, elems := el }) ∧
        ∀ e < 1024, el[e]? = some (((s.myTile.acc i).elem e).add ((s.myTile.acc j).elem e))) ∧
    ((s.myTile.acc i).anchor ≠ (s.myTile.acc j).anchor → 
      let both := (s.myTile.acc i).anchor.toInt % 2 ^ 16 * 2 ^ 16 + (s.myTile.acc j).anchor.toInt % 2 ^ 16
      exec (.qadd d a b) s = .next (s.takeCond { code := 7, tinfo := BitVec.ofInt 64 both }))) ∧
  (∀ (s : State) (d : QReg) (a : GReg) (i : Nat), HoldsAcc s d i → (s.myTile.acc i).bad = false → NoPacket s →
    let off := (s.g a).toNat
    off + 8512 ≤ Config.scratchSize → off % 64 = 0 → ownerFail s s.here s.me.key.asid s.me.supv off 8512 = none →
    (∀ j < 1064, s.myTile.isFull (off + 8 * j) = true ∧ s.myTile.scrBad (off + 8 * j) 8 = false) →
    s.myTile.scrRead (off + 8448) 8 = ((s.myTile.acc i).anchor.signExtend 64).toNat → s.myTile.feq = [] →
    ∃ t, Completes (.qaddm d a) s t ∧ (∀ j < 1064, t.myTile.isFull (off + 8 * j) = false) ∧
      (t = { s.modMyTile (fun u => { u with
        accs := t.myTile.accs, full := t.myTile.full, scopeC := t.myTile.scopeC, l1 := t.myTile.l1, slines := t.myTile.slines,
        tlb1 := t.myTile.tlb1, tlb2 := t.myTile.tlb2 }) with layers := t.layers }) ∧
      (∀ j, j ≠ i → t.myTile.acc j = s.myTile.acc j) ∧
      (∀ b, b % 8 = 0 → (b + 8 ≤ off ∨ off + 8512 ≤ b) → t.myTile.isFull b = s.myTile.isFull b) ∧
      ∀ e < 1024, (t.myTile.acc i).elem e = ((s.myTile.acc i).elem e).add
        { acc := BitVec.ofNat 64 (s.myTile.scrRead (off + 8 * e) 8),
          fl := BitVec.ofNat 2 (s.myTile.scrRead (off + 8192 + e / 4) 1 / 4 ^ (e % 4)) }) ∧
  ∀ (i : Instr) (s : State) (d : VReg) (q : QReg) (row : BitVec 5) (f : Tag) (rm : Rnd) (sat : Bool) (n : Nat),
    readoutOf i = some (d, q, row, f, rm, sat) → HoldsAcc s q n → (s.myTile.acc n).bad = false →
    let acc := s.myTile.acc n
    let seed (n : Nat) := seedAfter rm s.src.lfsr n
    let elem (l : Nat) := acc.elem ((row.toNat + l / 32) % 32 * 32 + l % 32)
    ∃ x, Completes i s ((s.setV d x f).setLfsr rm (seed (Tag.lanes f))) ∧ ∀ l < Tag.lanes f, laneAt x (Tag.width f) l =
      toElem f s.src.ctab sat rm (seed (l + 1)) (accVal (elem l).acc (elem l).fl acc.anchor.toInt) % 2 ^ Tag.width f

/-! ### Strands, pools, launches -/

/-- R188–R192, R247, R289, R58: the strand instructions complete when their descriptors pass and there is room: `spawn` reads and checks
its record once, places it at once without a counter, and with one once the counter's home has answered; `depdec` sends the decrement after
its release; `fpop` takes the pool's head or 0 and `fpush` returns a frame; `waitw` returns the first value that differs; `ctabld` loads the
code table; `wlaunch` sends the launch, which carries the order and the number of its completion (R321, R323). The homes that `fpop` and `fpush` update are reached and not clamped. The model's choices: a pool
operation takes effect when its home's answer is back (log 86); `wlaunch` releases the image up to the end of its page, 64 B and both SRAM segments at
most, and waits for those pages (log 46); a launch travels in class REQ to agent 1024, and its completion carries its order (log 30). -/
def Obligations.StrandInstructionsComplete : Prop :=
  (∀ (s : State) (va : Word) (x : Spawning), s.me.spawning = some x → readSpawn va s = .ok x s) ∧
  (∀ (s s1 s2 s3 : State) (va : Word) (body pa cell : Nat),
    let r : Rec := { body := BitVec.ofNat 512 body, dom := s.me.dom, asid := s.me.key.asid, cgrp := s.me.cgrp, stamp := 0, hold := 0, spill := none }
    s.me.spawning = none → va.toNat % 64 = 0 → readDesc va 64 s = .ok body s1 → badRec r.body = none →
    (r.mode = 2 ∧ (∃ x, xlate { s.whoLoad with supv := true, charge := none } r.affinity s1 = .ok x s2 ∧ pa = x.pa) ∨
      r.mode ≠ 2 ∧ pa = 0 ∧ s2 = s1) →
    (r.depc ≠ 0 ∧ (∃ x, homeOf s.whoStore r.depcVA 64 64 s2 = .ok x s3 ∧ cell = x.pa) ∨ r.depc = 0 ∧ cell = 0 ∧ s3 = s2) →
    let x : Spawning := { body := r.body, pa := pa, cell := cell }
    readSpawn va s = .ok x { s3 with me := { s3.me with spawning := some x } }) ∧
  (∀ (s s1 : State) (a : GReg) (x : Spawning), NoPacket s → readSpawn (s.g a) s = .ok x s1 →
    let r : Rec := { body := x.body, dom := s.me.dom, asid := s.me.key.asid, cgrp := s.me.cgrp, stamp := 0, hold := 0, spill := none }
    (∀ s2, r.depc = 0 → Releases { s1 with passed := true } s2 (if r.mode = 0 then .t else .c) → placeWait s2.myTile r x.pa = none →
      Completes (.spawn a) s (s2.placeRec s2.here r x.pa)) ∧
    (r.depc ≠ 0 → s.me.ans = some .accepted → Completes (.spawn a) s s1) ∧
    (∀ n, r.depc ≠ 0 → s.me.ans = some (.placeNow n) → placeWait s1.myTile r x.pa = none →
      Completes (.spawn a) s ((s1.placeRec s1.here r x.pa).modMyTile fun t => { t with deferrals := t.deferrals.filter fun j => j ≠ n }))) ∧
  (∀ (s s1 s2 : State) (a : GReg) (x : Xl), (s.g a).toNat % 64 = 0 → homeOf s.whoStore (s.g a) 64 64 s = .ok x s1 →
    s.crowded .req (1025 + slice x.pa) = false → Releases s1 s2 .c →
    Completes (.depdec a) s (s2.send .req s.here 1024 (.decrement s.me.key.asid x.pa (s.g a)))) ∧
  (∀ (s s1 s2 s3 : State) (d a : GReg) (p : Xl), (s.g a).toNat % 4096 = 0 → homeOf s.whoStore (s.g a) 64 64 s = .ok p s1 → Releases s1 s2 .c →
    atHome (s.g a) p.pa s2 = .ok () s3 →
    let entry := chgEntry s3 s.me.key.asid s.me.cgrp
    (chgOn s3 = true → s3.barred s.here entry = false ∧ s3.badIn entry 16 = false ∧ chgUsed s3 entry + 1 ≤ chgLimit s3 entry) → s3.badIn p.pa 24 = false →
    (s3.homeRead p.pa 8 = 0 → Completes (.fpop d a) s ((s3.setG d 0).acquire .c)) ∧
    ∀ (f : Xl) (s4 : State), s3.homeRead p.pa 8 ≠ 0 → homeOf s.whoLoad (BitVec.ofNat 64 (s3.homeRead p.pa 8)) 8 8 s3 = .ok f s4 →
      s4.barred s.here f.pa = false → s4.badIn f.pa 8 = false →
      let free := BitVec.ofNat 64 (s4.homeRead (p.pa + 8) 8) - 1
      let s5 := if chgOn s4 then s4.setUsed entry (chgUsed s4 entry + 1) else s4
      let s6 := (s5.homeWrite p.pa 8 (s4.homeRead f.pa 8)).homeWrite (p.pa + 8) 8 free.toNat
      let s7 := if free.toNat = s4.homeRead (p.pa + 16) 8 then (s6.sendItem s.here 5 { asid := s.me.key.asid, pc := s.me.pc, addr := s.g a }).1 else s6
      Completes (.fpop d a) s ((s7.setG d (BitVec.ofNat 64 (s3.homeRead p.pa 8))).acquire .c)) ∧
  (∀ (s s1 s2 s3 s4 s5 : State) (a b : GReg) (p f : Xl), (s.g a).toNat % 4096 = 0 → (s.g b).toNat % 4096 = 0 → s.g b ≠ 0 →
    homeOf s.whoStore (s.g a) 64 64 s = .ok p s1 → homeOf s.whoStore (s.g b) 8 8 s1 = .ok f s2 → Releases s2 s3 .c →
    l1Leave (f.pa / 128) s3 = .ok () s4 → atHome (s.g a) p.pa s4 = .ok () s5 → s5.barred s.here f.pa = false →
    (chgOn s5 = true → s5.barred s.here (chgEntry s5 s.me.key.asid s.me.cgrp) = false ∧ s5.badIn (chgEntry s5 s.me.key.asid s.me.cgrp) 16 = false) → s5.badIn p.pa 16 = false →
    Completes (.fpush a b) s
      (((((s5.homeStore s.here f.pa 8 (s5.homeRead p.pa 8)).homeWrite p.pa 8 (s.g b).toNat).homeWrite (p.pa + 8) 8
        ((s5.homeRead (p.pa + 8) 8 + 1) % 2 ^ 64)).uncharge s.here s.me.key.asid s.me.cgrp 1).acquire .c)) ∧
  (∀ (s s1 : State) (d a b : GReg) (x : Word), NoPacket s → (s.g a).toNat % 8 = 0 → waitRead (s.g a) s = .ok x s1 →
    let p : State := { s1 with passed := true }
    (x ≠ s.g b → Completes (.waitw d a b) s (p.setG d x)) ∧ (x = s.g b → exec (.waitw d a b) s = .next (p.enterWait (.word (s.g a) (s.g b))))) ∧
  (∀ (s s1 : State) (a : GReg) (x : Nat), readDesc (s.g a) 16 s = .ok x s1 →
    Completes (.ctabld a) s { s1 with me := { s1.me with ctab := BitVec.ofNat 128 x, dirty := s1.me.dirty ||| 1 } }) ∧
  ∀ (s s1 s2 s3 s4 s5 s6 s7 s8 s9 s10 : State) (d : KReg) (a : GReg) (x : Nat) (img : PagePart) (rest : List PagePart)
    (quietPages pages : List (List PagePart)) (seq : BitVec 16),
    let image := BitVec.ofNat 64 (fieldAt x 0 8)
    let ranges := launchRanges x
    let free (w : Who) : Who := { w with charge := none }
    let pageEnd := img.x.pa / 2 ^ sizeShift img.x.size * 2 ^ sizeShift img.x.size + 2 ^ sizeShift img.x.size
    let n := min (pageEnd - img.x.pa) (64 + 0x20000 + 0x1FFE0)
    NoPacket s → (s.g a).toNat % 128 = 0 → readDesc (s.g a) 128 s = .ok x s1 → (∀ e ∈ launchTests x, e.2 = true) →
    allPages (free s.whoLoad) image 1 false s1 = .ok (img :: rest) s2 → (∀ p ∈ img :: rest, p.scr = false) →
    rangesPages (free s.whoLoad) ranges s2 = .ok quietPages s3 → pagesIdle s.me.key.asid ((img :: rest) ++ quietPages.flatten) s3 = .ok () s4 →
    (∀ l ∈ quietPages, l.length ≤ 64) → nearCheck quietPages.flatten s4 = .ok () s5 → rangesPages s.whoLoad ranges s5 = .ok pages s6 →
    s.myTile.launches < 8 → s.crowded .req (1025 + slice img.x.pa) = false → claimHandle d s6 = .ok () s7 →
    nearReleases (ranges.zip pages) s7 = .ok () s8 → nearRelease image n [{ va := image, len := n, x := img.x }] s8 = .ok () s9 →
    startHandle d 4 false s9 = .ok seq s10 →
    let k : Kernel :=
      { asid := s.me.key.asid, tile := s.me.tile, key := s.me.key, kreg := d, seq := seq,
        stack := ((pages.flatten.head?).map (PagePart.stack s10)).getD 0, image := img.x.pa, imageEnd := pageEnd, ranges := ranges,
        segs := segsOf s10 0 pages, args := (List.range 4).map fun j => BitVec.ofNat 64 (fieldAt x (96 + 8 * j) 8), supv := s.me.supv }
    Completes (.wlaunch d a) s ((s10.modMyTile fun u => { u with launches := u.launches + 1 }).send .req s.here 1024 (.launch
      { k with rord := s10.myTile.order .rsp, mseq := s10.nextSeq .req s.here 1024 (.launch k) }))

/-! ### Messages and barriers -/

/-- R235, R238–R241: an eyelet is created from a good descriptor in the lowest free entry (the model's choice, log 66) with the next
generation; a post and a
packet's send complete when the owner's tile has accepted the message, and take EYELET or QUOTA when it has not; a take returns the
oldest message, or 0, a wait completes when there is one; a packet opens with its class and target and gathers two words a `pput`, and two more with the `psend` that sends and closes it. -/
def Obligations.MessagesComplete : Prop :=
  (∀ (s s1 s2 : State) (d a : GReg) (x i : Nat) (l : List PagePart),
    let ring := BitVec.ofNat 64 (fieldAt x 0 8)
    let n := fieldAt x 8 4
    let scr := fieldAt x 12 4
    (s.g a).toNat % 64 = 0 → readDesc (s.g a) 64 s = .ok x s1 → ring.toNat % 4096 = 0 → 32 ≤ n → n ≤ 1048576 → (∃ k, n = 2 ^ k) →
    scr % 2048 = 0 → scr + 2048 ≤ Config.scratchSize → fieldAt x 16 48 = 0 →
    allPages s.whoStore ring (128 * n) true s1 = .ok l s2 → (∀ p ∈ l, p.scr = false) →
    i < 64 → (s.myTile.eyelet i).live = false → (∀ j < i, (s.myTile.eyelet j).live = true) →
    (∀ m ∈ s.myTile.stashes, overlap scr 2048 m.2.off m.2.len = false) →
    (∀ e ∈ s.myTile.eyelets, e.2.live = true → overlap scr 2048 e.2.scr 2048 = false) → (isCobbler s.here = true → scr + 2048 ≤ Config.cobblerBase) →
    ownerFail s2 s2.here s2.me.key.asid s2.me.supv scr 2048 = none →
    let gen := (s.myTile.eyelet i).gen + 1
    let e : Eyelet := { Eyelet.blank with gen := gen, live := true, owner := s.me.key, ring := ring, ringN := n, scr := scr }
    Completes (.eycreate d a) s ((s2.modMyTile fun t => { t with eyelets := put i e t.eyelets }).setG d
        (BitVec.ofNat 64 (s.here + i * 2 ^ 10 + s.me.key.asid.toNat * 2 ^ 16 + gen.toNat * 2 ^ 32)))) ∧
  (∀ (i : Instr) (s : State) (cls : Bool) (a b : GReg), postOf i = some (cls, a, b) → NoPacket s → goodId (s.g a) s.me.key.asid →
    (s.me.ans = some .accepted → Completes i s { s with me := s.me.nextSeq cls }) ∧
    (s.me.ans = some .stale → exec i s = .next (s.takeCond { code := 18, tinfo := 2, taddr := s.g a })) ∧
    (s.me.ans = some .refused → exec i s = .next (s.takeCond { code := 20, tinfo := BitVec.ofNat 64 (2 ^ 63 + (s.g a).toNat % 2 ^ 48) })) ∧
    ∀ s1, s.me.ans = none → s.crowded (if cls then .msg1 else .msg0) (eyTile (s.g a)) = false → Releases { s with passed := true } s1 .c →
      ∃ t, exec i s = .next t ∧ t.ended = .wait .answer ∧
        t.msgs = (s1.send (if cls then .msg1 else .msg0) s1.here (eyTile (s.g a)) (.eyelet s.me.key (s.g a) cls false [s.g b] (s1.me.seqOf cls))).msgs) ∧
  (∀ (s : State) (d a : GReg), NoPacket s →
    let id := s.g a
    let i := eyIndex id
    let e := s.myTile.eyelet i
    eyTile id = s.here → goodId id s.me.key.asid → e.live = true → e.gen = eyGen id → e.owner = s.me.key →
    let p : State := { s with passed := true }
    (e.queue ≠ [] → Completes (.eywait a) s p) ∧
    (e.queue = [] → exec (.eywait a) s = .next (p.enterWait (.eyelet id))) ∧
    let s0 := s.modMyTile fun t => t.freeLast i
    let s1 := (match e.last with | some n => s0.serve s.here (e.scr + 64 * n.val) 64 | none => s0).pump s.here i 32
    ((s1.myTile.eyelet i).queue = [] → Completes (.eytake d a) s (s1.setG d 0)) ∧
    ∀ h r, (s1.myTile.eyelet i).queue = h :: r →
      ∃ t, Completes (.eytake d a) s t ∧ (d.val ≠ 0 → t.me.g[d] = h) ∧ (∀ q : GReg, q ≠ d → t.me.g[q] = s1.me.g[q]) ∧
        (t.myTile.eyelet i).queue = r ∧ ((t.myTile.eyelet i).last.map (·.val)) = some (h.toNat / 2 ^ 56 % 32) ∧
        (∀ j, j ≠ i → t.myTile.eyelet j = s1.myTile.eyelet j) ∧
        t = { s1.modMyTile (fun u => { u with
            eyelets := t.myTile.eyelets, l1 := t.myTile.l1, slines := t.myTile.slines, tlb1 := t.myTile.tlb1, tlb2 := t.myTile.tlb2 }) with
          layers := t.layers,
          me := { s1.me with g := t.me.g, dirty := t.me.dirty, held := t.me.held } }) ∧
  (∀ (i : Instr) (s : State) (cls : Bool) (a : GReg), openOf i = some (cls, a) → s.me.pkst.getLsbD 63 = false → goodId (s.g a) s.me.key.asid →
    Completes i s { s with me := s.me.setPkst (BitVec.ofNat 64 (2 ^ 63 + cls.toNat * 2 ^ 61 + (s.g a).toNat % 2 ^ 48)) }) ∧
  ∀ (s : State) (a b : GReg),
    let p := s.me.pkst
    let n := p.toNat / 2 ^ 57 % 16
    p.getLsbD 62 = false → p.getLsbD 63 = true → n ≤ 6 →
    (∃ t, Completes (.pput a b) s t ∧ t.me.pkst.toNat = p.toNat + 2 * 2 ^ 57 ∧ t.me.pword = (s.me.pword.setIfInBounds n (s.g a)).setIfInBounds (n + 1) (s.g b) ∧
      t = { s with me := { s.me with pkst := t.me.pkst, pword := t.me.pword, dirty := t.me.dirty } }) ∧
    (s.me.ans = some .accepted →
      ∃ t, Completes (.psend a b) s t ∧ t.me.pkst.toNat + 2 ^ 63 = p.toNat + 2 * 2 ^ 57 ∧
        t.me.pword = (s.me.pword.setIfInBounds n (s.g a)).setIfInBounds (n + 1) (s.g b) ∧ t.me.seqOf (p.getLsbD 61) = s.me.seqOf (p.getLsbD 61) + 1 ∧
        t = { s with me := { s.me with pkst := t.me.pkst, pword := t.me.pword, seq0 := t.me.seq0, seq1 := t.me.seq1, dirty := t.me.dirty } } ∧
        t.me.seqOf (!p.getLsbD 61) = s.me.seqOf (!p.getLsbD 61))

/-- R243, R62: a member whose generation has completed goes on with its acquire and the result in gd; before that it arrives once,
after its release, at its own router, and waits. The result of a vote has bit 0 for any and bit 1 for all, that of a sum wraps at 2^64, that of a maximum or
a minimum is a member's value that no other one passes. -/
def Obligations.BarriersComplete : Prop :=
  (∀ (i : Instr) (s : State) (kind : Fin 5) (lvl : Level) (val : Word) (d : Option GReg), barrierOf i s = some (kind, lvl, val, d) → NoPacket s →
    let sc : Scope := if lvl = .tile then .t else .c
    (∀ (a : Arrival) (r : Word), s.me.arrival = some a → a.result = some r →
      let s1 := ({ s with me := { s.me with arrival := none } } : State).acquire sc
      Completes i s (match d with | some d => s1.setG d r | none => s1)) ∧
    ∀ s1, s.me.arrival = none → s.crowded .sync s.here = false → Releases { s with passed := true } s1 sc →
      ∃ t, exec i s = .next t ∧ t.ended = .wait .barrier ∧ t.me.arrival = some { kind := kind, level := lvl, val := val } ∧
        t.msgs = (s1.send .sync s1.here s1.here (.arrival s.me.key { kind := kind, level := lvl, val := val })).msgs) ∧
  ∀ vals : List Word, vals ≠ [] →
    (collective 1 vals).toNat = (if ∃ v ∈ vals, v.getLsbD 0 = true then 1 else 0) + (if ∀ v ∈ vals, v.getLsbD 0 = true then 2 else 0) ∧
    (collective 2 vals).toNat = (vals.map BitVec.toNat).sum % 2 ^ 64 ∧
    (collective 3 vals ∈ vals ∧ ∀ v ∈ vals, v.toInt ≤ (collective 3 vals).toInt) ∧
    (collective 4 vals ∈ vals ∧ ∀ v ∈ vals, (collective 4 vals).toInt ≤ v.toInt)

/-! ### Burlia -/

/-- R292, R293, R303–R305, R310: the Burlia instructions that reach no memory complete: counts, pointers, A and the flags take their
column's values and PC goes on by 4; a branch that is taken goes to PC + 4 × off, and leaves the code region when its target does.
`halt` ends the kernel with STATUS 0 once its posted accesses are performed; the completion takes the launching tile's RSP order and
the number of the launch it answers (R321, R323). -/
def Obligations.BurliaControlAndRegisters : Prop :=
  (∀ (i : Instr) (s : State) (c : Core) (f : Nat → Nat), coreResult i s.core = some (c, f) →
    ∃ a, Completes i s { s with core := { c with a := a } } ∧ ∀ l < 16, laneA a l = f l) ∧
  (∀ (i : Instr) (s : State) (taken : Bool) (off : BitVec 20) (c f : Word), coreBranch i s.core = some (taken, off, c, f) →
    ∃ pc, Completes i s { s with core := { s.core with c := c, f := f, pc := pc } } ∧
      let t : Int := (s.core.pc.toNat : Int) + 4 * off.toInt
      (taken = false → pc = s.core.pc + 4) ∧ (taken = true → 0 ≤ t → t < 0x20000 → (pc.toNat : Int) = t) ∧
      (taken = true → (t < 0 ∨ 0x20000 ≤ t) → 0x20000 ≤ pc.toNat)) ∧
  (∀ (s : State) (k : Kernel), s.core.kern = some k → s.core.posted = [] →
    ∃ m, EndsKernel m k 0 0 ∧ Completes .halt s { s with msgs := s.msgs ++ [m], core := Core.reset }) ∧
  ∀ s : State, s.core.posted ≠ [] → exec .halt s = .next { s with ended := .wait .unit }

/-- R301, R304–R309, R396: the Burlia instructions with memory operands complete when each operand lies in SRAM or in a range that allows
the access and A has the format's tag: the value read goes where the column says, a write goes into SRAM at once or is posted, the
pointers step, and PC goes on by 4. An operand that fails its check ends the kernel with STATUS 7, its code and the PC; a wrong tag
ends it with FORMAT. -/
def Obligations.BurliaMemoryInstructions : Prop :=
  (∀ (i : Instr) (s s1 : State) (a : PReg) (ia : Bool) (n x : Nat) (tag : Option Tag) (put : Nat → Core → Core) (l : Loc),
    coreLoad i = some (a, ia, n, tag, put) → i.wf = true → TagFits s.core tag → kPtr a n false false n s = .ok l s → kRead l n s = .ok x s1 →
    Completes i s (advanced (s1.modCore (put x)) [(a, ia)])) ∧
  (∀ (i : Instr) (s s1 : State) (a : PReg) (ia dram : Bool) (n v : Nat) (tag : Option Tag) (l : Loc),
    coreStore i s.core = some (a, ia, n, dram, tag, v) → TagFits s.core tag → kPtr a n true dram n s = .ok l s → kWrite l n v s = .ok () s1 →
    Completes i s (advanced s1 [(a, ia)])) ∧
  (∀ (i : Instr) (s : State) (a : PReg) (ia : Bool) (p : Nat → Posted) (loc : Nat), coreNear i s.core = some (a, ia, p) → s.core.atag = .f32 →
    kPtr a 64 true true 64 s = .ok (.dram loc) s →
    Completes i s (advanced (s.modCore fun c => { c with posted := c.posted ++ [p loc], writes := c.writes + 1 }) [(a, ia)])) ∧
  (∀ (i : Instr) (s s1 s2 : State) (a b : PReg) (ia : Bool) (f : Tag) (op : Nat → Nat → Nat) (la lb : Loc) (x y : Nat), coreGather i = some (a, b, ia, f, op) →
    s.core.atag = (if f = .i32 ∨ f = .i8 then .i32 else .f32) → kPtr a 4 false false 4 s = .ok la s → kRead la 4 s = .ok x s1 →
    kRow b x (16 * elemSize f) false false s1 = .ok lb s1 → kRead lb (16 * elemSize f) s1 = .ok y s2 →
    Completes i s (advanced (s2.modCore fun c => { c with a := ofLanesA fun l => op (laneA c.a l) (elemLane f y l) }) [(a, ia)])) ∧
  (∀ (s s1 : State) (a b : PReg) (ia : Bool) (rm : Rnd) (la : Loc) (x loc : Nat), s.core.atag = .f32 → kPtr a 4 false false 4 s = .ok la s →
    kRead la 4 s = .ok x s1 → kRow b x 64 true true s1 = .ok (.dram loc) s1 →
    Completes (.faddnx a b ia rm) s
      (advanced (s1.modCore fun c => { c with posted := c.posted ++ [.faddn loc s.core.a rm], writes := c.writes + 1 }) [(a, ia)])) ∧
  (∀ (s s1 s2 : State) (a b : PReg) (ia ib : Bool) (la lb : Loc) (x : Nat), kPtr a 64 false false 64 s = .ok la s →
    kPtr b 64 true false 64 s = .ok lb s → kRead la 64 s = .ok x s1 → kWrite lb 64 x s1 = .ok () s2 →
    Completes (.mov64 a b ia ib) s (advanced s2 [(a, ia), (b, ib)])) ∧
  (∀ (s s1 s2 : State) (a b : PReg) (ia ib : Bool) (f : Tag) (rm : Rnd) (la lb : Loc) (x y : Nat), (Instr.afma a b ia ib f rm).wf = true →
    s.core.atag = .f32 → kPtr a (16 * elemSize f) false false (16 * elemSize f) s = .ok la s →
    kPtr b (16 * elemSize f) false false (16 * elemSize f) s = .ok lb s → kRead la (16 * elemSize f) s = .ok x s1 →
    kRead lb (16 * elemSize f) s1 = .ok y s2 →
    let lane (l : Nat) : Nat :=
      fmtF32.round false rm 0 ((fmtF32.val (laneA s.core.a l)).add rm ((fmtF32.val (elemLane f x l)).mul (fmtF32.val (elemLane f y l))))
    Completes (.afma a b ia ib f rm) s (advanced (s2.modCore fun c => { c with a := ofLanesA lane }) [(a, ia), (b, ib)])) ∧
  (∀ (s : State) (off n : Nat), kRead (.sram off) n s = .ok (Mem.readN s.core.sram off n) s) ∧
  (∀ (s : State) (k : Kernel) (loc n : Nat), s.core.kern = some k → s.clampedByOther k.stack loc = false →
    s.badIn (s.unplace k.stack (loc / 64 * 64)) 64 = false → (∀ p ∈ s.core.posted, p.loc / 64 ≠ loc / 64) →
    kRead (.dram loc) n s = .ok (s.granule k.stack loc / 256 ^ (loc % 64) % 256 ^ n) (s.modCore fun c => { c with reads := c.reads + 1 })) ∧
  (∀ (s : State) (off n v : Nat), kWrite (.sram off) n v s = .ok () (s.modCore fun c => { c with sram := Mem.writeN c.sram off n v })) ∧
  (∀ (i : Instr) (s : State) (tag : Option Tag) (l r : List (PReg × Nat × Bool × Bool)) (p : PReg) (n code : Nat) (w d : Bool),
    coreOperands i = some (tag, l ++ (p, n, w, d) :: r) → i.wf = true → TagFits s.core tag →
    (∀ q ∈ l, ∃ x, kPtr q.1 q.2.1 q.2.2.1 q.2.2.2 q.2.1 s = .ok x s) → kPtr p n w d n s = .error (.code code) s → EndsWith i s code) ∧
  (∀ (i : Instr) (s s1 : State) (tag : Option Tag) (o : List (PReg × Nat × Bool × Bool)) (a b : PReg) (n x code : Nat) (d : Bool) (l : Loc),
    coreOperands i = some (tag, o) → coreRow i = some (a, b, n, d) → i.wf = true → TagFits s.core tag → kPtr a 4 false false 4 s = .ok l s →
    kRead l 4 s = .ok x s1 → kRow b x n d d s1 = .error (.code code) s1 → EndsWith i s code) ∧
  ∀ (i : Instr) (s : State) (tag : Tag) (o : List (PReg × Nat × Bool × Bool)), coreOperands i = some (some tag, o) → i.wf = true →
    s.core.atag ≠ tag → EndsWith i s 6

/-- R310, R311: a clamp of one bank or of two completes when no core holds them and no earlier request waits for them, and otherwise joins the
stack's queue and waits there; the row operations do one row a step in a bank that the core holds, and end with C at 0. A core that holds a clamp
ends with CLAMP when it asks for another; a row operation in a bank that the core does not hold goes on behind its loop when CL is set, and ends
with CLAMP when it is not. -/
def Obligations.BurliaClampsAndRows : Prop :=
  (∀ (s : State) (k : Kernel) (i : Instr) (banks : List (Nat × Nat)), s.core.kern = some k →
    ((∃ a x, i = .clamp a ∧ kPtr a 1 true true 1 s = .ok (.dram x) s ∧ banks = [s.bank k.stack x]) ∨
      ∃ a b x y, i = .clampTwoBank a b ∧ kPtr a 1 true true 1 s = .ok (.dram x) s ∧ kPtr b 1 true true 1 s = .ok (.dram y) s ∧
        banks = if s.bank k.stack x = s.bank k.stack y then [s.bank k.stack x] else [s.bank k.stack x, s.bank k.stack y]) →
    let got : Core :=
      { s.core with
        clamps := banks, f := (s.core.f &&& ~~~ 0xD) ||| (if banks.length = 1 then 4 else 12), waiting := false, pc := s.core.pc + 4 }
    (s.core.clamps ≠ [] → EndsWith i s 4) ∧
    (s.core.clamps = [] → s.core.waiting = false → ¬ BanksTaken s k.stack banks → Completes i s { s with core := got }) ∧
    (s.core.clamps = [] → s.core.waiting = false → BanksTaken s k.stack banks →
      ∃ t, Completes i s t ∧ t.core = { s.core with waiting := true } ∧
        (t.stack k.stack).clampq = (s.stack k.stack).clampq ++ [(s.coreAt, banks)] ∧ t.cores = s.cores ∧ t.mem = s.mem) ∧
    (s.core.clamps = [] → s.core.waiting = true → exec i s = .next { s with ended := .wait .unit })) ∧
  (∀ (s : State) (a b : PReg) (ia ib : Bool), s.core.c = 0 →
    Completes (.rowzero a ia) s { s with core := { s.core with pc := s.core.pc + 4 } } ∧
    Completes (.rowcopy a b ia ib) s { s with core := { s.core with pc := s.core.pc + 4 } }) ∧
  (∀ (s : State) (k : Kernel) (a : PReg) (ia : Bool) (loc : Nat), s.core.c ≠ 0 → s.core.kern = some k →
    kPtr a 2048 true true 2048 s = .ok (.dram loc) s → s.core.clamps.contains (s.bank k.stack loc) = true →
    (∀ p ∈ s.core.posted, p.loc / 2048 ≠ loc / 2048) →
    ∃ t, Completes (.rowzero a ia) s t ∧ t.mem = Mem.writeN s.mem (s.unplace k.stack loc) 2048 0 ∧ t.core.c = s.core.c - 1 ∧
      t.core.writes = s.core.writes + 32 ∧ t.core.p = (if ia then s.core.p.set a (stepped s.core.p[a]) else s.core.p) ∧
      t.core.pc = (if s.core.c = 1 then s.core.pc + 4 else s.core.pc)) ∧
  (∀ (s : State) (k : Kernel) (i : Instr) (a : PReg) (loc : Nat), s.core.c ≠ 0 → s.core.kern = some k →
    ((∃ ia, i = .rowzero a ia ∧ kPtr a 2048 true true 2048 s = .ok (.dram loc) s) ∨
      (∃ b ia ib, i = .rowcopy a b ia ib ∧ kPtr a 2048 false true 2048 s = .ok (.dram loc) s) ∨
      ∃ b ia ib x, i = .rowcopy b a ia ib ∧ kPtr b 2048 false true 2048 s = .ok (.dram x) s ∧ s.core.clamps.contains (s.bank k.stack x) = true ∧
        kPtr a 2048 true true 2048 s = .ok (.dram loc) s) →
    s.core.clamps.contains (s.bank k.stack loc) = false →
    (s.core.f.getLsbD 0 = true → Completes i s { s with core := { s.core with pc := s.core.pc + 4 } }) ∧
    (s.core.f.getLsbD 0 = false → EndsWith i s 4)) ∧
  ∀ (s : State) (k : Kernel) (a b : PReg) (ia ib : Bool) (la lb : Nat), s.core.c ≠ 0 → s.core.kern = some k →
    kPtr a 2048 false true 2048 s = .ok (.dram la) s → kPtr b 2048 true true 2048 s = .ok (.dram lb) s →
    s.core.clamps.contains (s.bank k.stack la) = true → s.core.clamps.contains (s.bank k.stack lb) = true →
    (∀ p ∈ s.core.posted, p.loc / 2048 ≠ la / 2048 ∧ p.loc / 2048 ≠ lb / 2048) →
    (∀ i < 32, s.badIn (s.unplace k.stack la + 64 * i) 64 = false) →
    ∃ t, Completes (.rowcopy a b ia ib) s t ∧
      t.mem = Mem.writeN s.mem (s.unplace k.stack lb) 2048 (Mem.readN s.mem (s.unplace k.stack la) 2048) ∧ t.core.c = s.core.c - 1 ∧
      t.core.reads = s.core.reads + 32 ∧ t.core.writes = s.core.writes + 32 ∧ t.core.pc = (if s.core.c = 1 then s.core.pc + 4 else s.core.pc) ∧
      t.core.p = [(a, ia), (b, ib)].foldl (fun (p : Vector Word 8) e => if e.2 then p.set e.1 (stepped p[e.1]) else p) s.core.p

/-! ### Events: messages and records -/

/-- R49, R50, R55, R56, R58, R59, R225, R323, R424: a request that arrives in its turn, at a home that can serve it, is performed once and answered: a
read, a write-back, an atomic or an image, a reduction, a counter's decrement, a deferral by the counter's state; the release of a deferral and
an ENQ record place their record, and a thief dispatches the one it stole. The answer then frees what waits for it at the requester, and its
message is over; a home's answer to a read or an atomic stays for its requester to take. That the home remembers what a COUNT was decremented to,
for the loads of R59, is the model's own device (log 73). -/
def Obligations.RequestsArePerformed : Prop :=
  (∀ (s : State) (i : Nat) (m : Msg) (key : Key) (pa op : Nat) (wide : Bool) (v : Word), Arrives s i m → m.body = .redn key pa op wide v →
    let n := if wide then 8 else 4
    s.heldAtHome pa = false → s.badIn pa n = false →
    Completes (.req i) s (performed s (s.homeWrite pa n (rednOp op wide (s.homeRead pa n) v.toNat)) i .accepted)) ∧
  (∀ (s s1 : State) (i : Nat) (m : Msg) (key : Key) (op : HomeOp) (x : HomeAns), Arrives s i m → m.body = .access key op none →
    s.served m.src m.dst op = some (x, s1) → Completes (.req i) s (performed s s1 i (.home x))) ∧
  (∀ (s : State) (i : Nat) (m : Msg) (asid : BitVec 12) (pa : Nat) (cell : Word), Arrives s i m → m.body = .decrement asid pa cell →
    s.heldAtHome pa = false → s.badIn pa 64 = false →
    let c := BitVec.ofNat 64 (s.homeRead pa 8) - 1
    let s0 := s.homeWrite pa 8 c.toNat
    let s1 : State := if s0.counts.contains (pa, c) then s0 else { s0 with counts := s0.counts ++ [(pa, c)] }
    Completes (.counterDecrement i) s (performed s (if s.homeRead pa 8 % 2 ^ 64 = 1 then s1.releaseWaiters pa 7 1 else s1) i .accepted)) ∧
  (∀ (s : State) (i : Nat) (m : Msg) (who : Spawner) (pa e : Nat), Arrives s i m → m.body = .waiter who pa e →
    s.heldAtHome pa = false → s.badIn pa 64 = false →
    let count := (BitVec.ofNat 64 (s.homeRead pa 8)).toInt
    (count ≤ 0 → Completes (.counterWaiter i) s (performed s s i (.placeNow e))) ∧
    (0 < count → (∀ j < 7, s.homeRead (pa + 8 * (j + 1)) 8 ≠ 0) → Completes (.counterWaiter i) s (performed s s i (.full e))) ∧
    ∀ j < 7, 0 < count → s.homeRead (pa + 8 * (j + 1)) 8 = 0 → (∀ l < j, s.homeRead (pa + 8 * (l + 1)) 8 ≠ 0) →
      Completes (.counterWaiter i) s (performed s (s.homeWrite (pa + 8 * (j + 1)) 8 (m.src * 2 ^ 54 + e + 1)) i .accepted)) ∧
  (∀ (s s2 : State) (i : Nat) (m : Msg) (e : Nat), Arrives s i m → m.body = .release e → s.isHeld m.dst m = false →
    let area := (s.tile m.dst).dfrBase + 128 * e
    let r := recOfEntry (s.homeRead area 128)
    s.areaFault area = none → s.barred m.dst area = false → s.resident r.asid = true → (s.freeDeferral m.dst e).placeReleased m.dst r = some s2 →
    Completes (.deferredRelease i) s (performed s s2 i .accepted)) ∧
  (∀ (s : State) (i : Nat) (m : Msg) (r : Rec) (climb : Bool) (cmd : Option CmdRef), Arrives s i m → m.body = .enq r climb cmd →
    ((climb = false ∨ s.lightest m.dst = m.dst) → s.canTake m.dst r = true →
      let s1 := s.storedFor (s.deposit m.dst r) m.dst r cmd
      Completes (.enq i) s (performed s (if cmd.isNone && r.mode = 3 then s1.dispatchStolen m.dst r else s1) i .accepted)) ∧
    (climb = true → s.lightest m.dst ≠ m.dst → (s.tile m.dst).credit (s.lightest m.dst) < 2 →
      Completes (.enq i) s (performed s (s.sendEnq m.dst (s.lightest m.dst) r false cmd) i .accepted))) ∧
  (∀ (s s1 : State) (tile : Nat) (r : Rec), s.storedFor s1 tile r none = s1) ∧
  (∀ (s : State) (i : Nat) (m : Msg) (x : HomeAns) (key : Key) (op : HomeOp), s.msgs[i]? = some m → m.st = .answered (.home x) →
    s.lostOn m.tripBack = none → m.body = .access key op none →
    ((∀ pa n v sh, op ≠ .write pa n v sh) → Completes (.rsp i) s (s.modMsg i fun m => { s.stampBack m with body := .access key op (some (some x)) })) ∧
    ∀ pa n v sh, op = .write pa n v sh → Completes (.rsp i) s (s.dropMsg i)) ∧
  ∀ (s s1 : State) (i : Nat) (m : Msg) (a : Ans), s.msgs[i]? = some m → m.st = .answered a → s.lostOn m.tripBack = none →
    (∀ key op o, m.body ≠ .access key op o) → s.holdAnswer m = s → s.isHeld m.src m = false → s.answered m a = some s1 →
    Completes (.rsp i) s (s1.dropMsg i) ∧
    (∀ key pa op wide v, m.body = .redn key pa op wide v → s1 = s.modStrand key fun t => { t with redn := t.redn - 1 }) ∧
    (∀ r climb cmd, m.body = .enq r climb cmd → s1 = s.modTile m.src fun t => t.backCredit m.dst) ∧
    ∀ key id cls pkt words seq, m.body = .eyelet key id cls pkt words seq →
      s1 = s.modStrand key fun t => if t.ans = some .asked then { t with ans := some a } else t

/-- R237, R364–R367, R369: a message enters the first free slot of its eyelet, and is stale when the eyelet has gone; the ring's head moves
into a free slot; a fault record joins its cobbler tile's queue and is placed in the record ring with its eight words full; a full reply
slot is taken and sent; a reply of each action is performed at the tile of its record. -/
def Obligations.EyeletsRecordsAndReplies : Prop :=
  (∀ (s : State) (i : Nat) (m : Msg) (key : Key) (id : Word) (cls pkt : Bool) (words : List Word) (seq : BitVec 32), Arrives s i m →
    m.body = .eyelet key id cls pkt words seq → s.isHeld m.dst m = false →
    let e := (s.tile m.dst).eyelet (eyIndex id)
    let hdr := eyHeader cls pkt 0 words.length m.src seq
    ((e.live = false ∨ e.gen ≠ eyGen id ∨ e.owner.asid ≠ eyAsid id) → Completes (.eyeletMessage i) s (performed s s i .stale)) ∧
    (∀ slot, e.live = true → e.gen = eyGen id → e.owner.asid = eyAsid id → e.arriving = none → e.rcount = 0 → e.freeSlot = some slot →
      Completes (.eyeletMessage i) s (performed s (s.fillSlot m.dst (eyIndex id) slot hdr words) i .accepted)) ∧
    ((e.rcount ≠ 0 ∨ e.freeSlot = none) → e.live = true → e.gen = eyGen id → e.owner.asid = eyAsid id → e.arriving = none → e.ringN ≤ e.rcount →
      Completes (.eyeletMessage i) s (performed s s i .refused))) ∧
  (∀ (s s1 s2 : State) (tile : BitVec 10) (idx : Fin 64) (slot v : Nat) (x : Xl),
    let e := (s.tile tile.toNat).eyelet idx.val
    e.live = true → e.rcount ≠ 0 → s.pumpHeld tile.toNat idx.val = false → e.freeSlot = some slot →
    s.ringXl tile.toNat e e.rhead false = .ok (x, s1) → s1.ringRead tile.toNat e x = .ok (v, s2) →
    ∃ t hdr, Completes (.ringToSlot tile idx) s t ∧ ((t.tile tile.toNat).eyelet idx.val).queue = e.queue ++ [hdr] ∧
      hdr.toNat / 2 ^ 56 % 32 = slot % 32 ∧ ((t.tile tile.toNat).eyelet idx.val).rcount = e.rcount - 1 ∧
      ((t.tile tile.toNat).eyelet idx.val).rhead = (e.rhead + 1) % e.ringN) ∧
  (∀ (s : State) (i : Nat) (m : Msg) (w : List Word), Arrives s i m → m.body = .record w → (s.tile m.dst).cobq.length < 64 →
    Completes (.faultRecord i) s (performed s (s.modTile m.dst fun t => { t with cobq := t.cobq ++ [w] }) i .accepted)) ∧
  (∀ (s : State) (tile : BitVec 10) (w : List Word) (r : List (List Word)),
    let u := s.tile tile.toNat
    let off := recordSlot u.placed.toNat
    u.cobq = w :: r → w.length = 7 → (∀ j < 8, u.isFull (off + 8 * j) = false) → u.feq = [] →
    ∃ t, Completes (.recordRingPlace tile) s t ∧ (t.tile tile.toNat).cobq = r ∧ (t.tile tile.toNat).placed = u.placed + 1 ∧
      (∀ j < 8, (t.tile tile.toNat).isFull (off + 8 * j) = true) ∧
      ∀ j < 8, (w ++ [u.placed])[j]? = some (BitVec.ofNat 64 ((t.tile tile.toNat).scrRead (off + 8 * j) 8))) ∧
  (∀ (s : State) (tile : BitVec 10),
    let u := s.tile tile.toNat
    let off := replySlot u.reply
    isCobbler tile.toNat = true → u.isFull off = true → u.isFull (off + 8) = true → u.feq = [] → u.scrBad off 16 = false →
    Completes (.replySlotTake tile) s ((s.setTile tile.toNat { (u.setEmpty off).setEmpty (off + 8) with reply := u.reply + 1 }).sendReply tile.toNat
      (BitVec.ofNat 64 (u.scrRead off 8)) (BitVec.ofNat 64 (u.scrRead (off + 8) 8)))) ∧
  (∀ (i : Instr) (s s1 : State) (n : Nat) (act : Action) (m : Msg) (w0 w1 : Word), replyOf i = some (n, act) → Arrives s n m →
    m.body = .reply w0 w1 → replyAction w0 = act →
    (s.strandReply m.dst w0 w1 false = some s1 ∨ s.strandReply m.dst w0 w1 false = none ∧ s1 = s.itemReply m.dst w0 w1) →
    Completes i s (performed s s1 n .accepted)) ∧
  ∀ (t : Strand) (code : BitVec 16),
    ((t.takeReply .retry code).pend = t.pend - 1 ∧ (t.takeReply .retry code).killed = t.killed) ∧
    ((t.takeReply .kill code).pend = t.pend - 1 ∧ (t.takeReply .kill code).tcause.toNat = KILLED ∧ (t.takeReply .kill code).killed = true) ∧
    (code ≠ 0 → t.tvec ≠ 0 → t.tcause = 0 → t.intrap = false → (t.takeReply .deliver code).tcause = code)

/-- R55, R61, R100, R120, R121, R326: an arrival reaches its tile's router and may complete its generation, a combined value stands at the
next router of its tree, and a completion carries the result to its member; an idle tile starts to probe its neighbours, and starts again after its wait; a probed tile sends its last stealable record or
refuses; a load figure reaches the column's bottom tile; an INVL that reaches a receiver takes its copies, and completes when all
have answered; a migration that has drained reports its status. -/
def Obligations.BarriersStealsAndInvalidations : Prop :=
  (∀ (s : State) (i : Nat) (m : Msg) (key : Key) (a : Arrival) (t : Strand), Arrives s i m → m.body = .arrival key a →
    s.theStrand? key = some t → t.arrival = some a →
    let u : Strand := { t with arrival := some { a with stage := 1, at_ := m.dst } }
    Completes (.barrierArrival i) s (performed s ((s.modStrand key fun _ => u).tryComplete u) i .accepted)) ∧
  (∀ (s : State) (i : Nat) (m : Msg) (key : Key) (a : Arrival) (dom : Word), Arrives s i m → m.body = .combined key a dom →
    Completes (.barrierArrival i) s (performed s (s.combined m.src m.dst key a dom) i .accepted)) ∧
  (∀ (s : State) (i : Nat) (m : Msg) (key : Key) (b : Arrival) (dom r : Word) (a : Arrival) (t : Strand), Arrives s i m →
    m.body = .completion key b dom r → s.theStrand? key = some t → t.arrival = some a → a.kind = b.kind → a.stage = 2 →
    Completes (.barrierCompletion i) s
      (performed s (s.modStrand key fun t => { t with arrival := some { a with result := some r } }) i .accepted)) ∧
  (∀ (s : State) (tile : BitVec 10),
    let n := tile.toNat
    let i := (s.tile n).idle
    let probe : State := (s.modTile n fun t => { t with idle := { t.idle with on := true, dir := 0 } }).send .sync n (neighbour n .xp) (.probe 0)
    (s.isIdle n = true → 64 ≤ i.cycles → i.on = false → Completes (.tileIdle tile) s probe) ∧
    (i.on = true → i.dir = 6 → i.wait = 0 → s.isIdle n = true → Completes (.stealRetry tile) s probe) ∧
    (i.on = true → i.dir = 6 → i.wait = 0 → s.isIdle n = false →
      Completes (.stealRetry tile) s (s.modTile n fun t => { t with idle := { t.idle with on := false } })) ∧
    let load := (s.tile n).deque.length + (s.strands.filter fun t => t.tile = tile && t.state = 1).length
    Completes (.loadFigureReport tile) s (s.modTile (n % 64) fun t => { t with figures := put n load t.figures })) ∧
  (∀ (s : State) (i : Nat) (m : Msg) (dir : Nat), Arrives s i m → m.body = .probe dir →
    (s.surrendered m.dst = none → Completes (.stealProbe i) s (performed s s i .refused)) ∧
    ∀ r, s.surrendered m.dst = some r → (s.tile m.dst).credit m.src < 2 →
      Completes (.stealProbe i) s
        (performed s ((s.modTile m.dst fun t => t.dropRec r).sendEnq m.dst m.src { r with spill := none } false) i .accepted)) ∧
  (∀ (s : State) (i : Nat) (n : BitVec 11) (v : Invl), s.invls[i]? = some v → n.toNat < 1026 → v.left.getLsbD n.toNat = true →
    (n.toNat < 1024 → (s.invlTile n.toNat v).2 = true) → (n.toNat = 1025 → (s.invlWelt v).2 = true) →
    ∃ t, Completes (.invlReceive i n) s t ∧ (t.invls[i]?).map (·.left) = some (v.left &&& ~~~ (BitVec.ofNat 1026 (2 ^ n.toNat))) ∧
      (n.toNat < 1024 → (∀ e ∈ (t.tile n.toNat).tlb1, v.hitsTlb e = false) ∧ (∀ e ∈ (t.tile n.toNat).tlb2, v.hitsTlb e = false) ∧
        (∀ e ∈ (t.layer (n.toNat / 64)).lltlb, v.hitsTlb e = false) ∧ ∀ e ∈ (t.tile n.toNat).l1, v.hitsAsid e.asid = false) ∧
      (n.toNat = 1024 → ∀ e ∈ t.walker, v.hitsWalker e = false)) ∧
  (∀ (s : State) (tile : Nat) (v : Invl), s.unserved tile = false → (s.invlDrop tile v).invlHeld tile v = false →
    (∀ e ∈ (s.tile tile).l1, v.hitsAsid e.asid = true → e.dirty ≠ 0 → ∀ n, s.win (e.addr * 128) ≠ .remote n) → (s.invlTile tile v).2 = true) ∧
  (∀ (s : State) (i : Nat) (v : Invl), s.invls[i]? = some v → v.left = 0 →
    let s1 : State := { s with invls := dropAt i s.invls }
    (∀ key, v.who = .strand key →
      Completes (.invlComplete i) s (s1.modStrand key fun t => { t with ans := if t.ans = some .asked then some .accepted else t.ans })) ∧
    (∀ c, v.who = .command c → Completes (.invlComplete i) s (s1.answerCmd c 1)) ∧
    (∀ g s2, v.who = .migrateBusy → s.migrating = some g →
      (s1.migrateCopy g = (s2, true) → Completes (.invlComplete i) s s2) ∧
      (s1.migrateCopy g = (s2, false) → Completes (.invlComplete i) s { s2 with invls := s.invls })) ∧
    ((v.who = .migrateFlip ∨ v.who = .migrateUndo) → Completes (.invlComplete i) s s1)) ∧
  ∀ (s : State) (g : Migration), s.migrating = some g → g.status ≠ 0 → g.drain = 0 → s.heldAtHome g.done.toNat = false →
    Completes .migrationDone s ((({ s with migrating := none } : State).writeDone g.done.toNat g.status).answerCmd g.who g.status)

/-! ### Events: scheduling and engines -/

/-- R35, R37, R40, R43, R44, R46, R51, R53: dispatch takes the first eligible record: a resumed strand goes on from its frame, a prepared
frame and a pool's frame start from the record; a spilled record comes back; a blocked strand leaves its slot after 256 cycles, a
strand that has run 65,536 cycles gives way to an eligible record of its level. -/
def Obligations.DispatchAndSlots : Prop :=
  (∀ (s : State) (tile : BitVec 10) (slot : Fin 16) (r : Rec),
    let n := tile.toNat
    (s.tile n).out = false → s.freeSlot n = some slot → bestRec (s.tile n).d (s.eligible n) (s.tile n).deque = some r → r.spill = none →
    let s0 := if r.hold = 3 then s.modTile n (·.unhold r) else s
    let q : Rec := if r.hold = 3 then { r with hold := 0 } else r
    (∀ (t t1 u : Strand) (s1 s2 : State), r.resume = true → s0.strand? r.key = some t → s0.fetchLines t 1 32 = .ok (s1, t1) →
      s1.fetchLines t1 (if t1.qheld = 0 then 0 else lineBit 24) 32 = .ok (s2, u) →
      ∃ v, Resumes u v slot ∧
        Completes (.dispatch tile) s (((s2.decided n q).modTile n fun w => (w.keepRetained v.key).bindAll v (w.unbound v)).putStrand v)) ∧
    (∀ (x y : Line) (s1 s2 : State), r.resume = false → s.teamFits n r = true → r.preset = true →
      let sw := s0.waysFor n r.key
      sw.hasWays n r.key = true →
      frameRead sw (newStrand r.key n) 0 = .ok (x, s1) → (x.extractLsb' 64 3 : BitVec 3) = 4 → sw.strand? r.key = none →
      frameRead s1 (newStrand r.key n) 1 = .ok (y, s2) →
      ∃ v, Starts v r slot ∧ v.key = r.key ∧ v.supv = itemSupv r.asid n ∧ Completes (.dispatch tile) s (s2.enter n q v)) ∧
    ∀ (p : Xl) (frame : Word) (low : Bool) (s1 s2 : State), r.resume = false → s.teamFits n r = true → r.preset = false →
      let who := agentWho r.asid n (itemSupv r.asid n) true 1
      let e := chgEntry s1 r.asid r.cgrp
      agentXl s0 who (frameVA r.key) = .ok (p, s1) → s1.badIn p.pa 64 = false → s1.hasHome p.pa = true → s1.barred n p.pa = false →
      s1.homeRead p.pa 8 ≠ 0 → (chgOn s1 = true → s1.barred n e = false ∧ s1.badIn e 16 = false ∧ chgUsed s1 e + 1 ≤ chgLimit s1 e) →
      popFrame s1 who p = .ok (frame, low, s2) →
      let s3 := if chgOn s2 then s2.setUsed e (chgUsed s2 e + 1) else s2
      let s4 := if low then (s3.sendItem n 5 { asid := r.asid, pc := r.entry, addr := frameVA r.key }).1 else s3
      let key : Key := { asid := r.asid, handle := BitVec.ofNat 45 (frame.toNat / 2 ^ 12) }
      ∀ (x : Xl) (s5 : State), frameXl s4 (newStrand key n) (frameVA key) 3 = .ok (x, s5) →
      let s6 := s5.waysFor n key
      s6.hasWays n key = true →
      ∃ v, Starts v r slot ∧ v.key = key ∧ v.fresh = true ∧ v.pool = some (frameVA r.key) ∧ v.lfsr.toNat = frame.toNat / 2 ^ 12 % 2 ^ 32 ||| 1 ∧
        Completes (.dispatch tile) s (s6.enter n q v)) ∧
  (∀ (s : State) (tile : BitVec 10) (r : Rec) (j : Nat),
    let u := s.tile tile.toNat
    let area := u.ovfBase + 128 * j
    u.inHw.length < 192 → u.out = false → (u.deque.find? fun r => r.spill.isSome && s.resident r.asid) = some r → r.spill = some j →
    s.areaFault area = none → s.barred tile.toNat area = false →
    Completes (.dequeRefill tile) s
      (s.modTile tile.toNat fun t => { t with deque := swapRec r { recOfEntry (s.homeRead area 128) with hold := r.hold } t.deque })) ∧
  (∀ (s : State) (key : Key) (t : Strand) (w : Wait), s.theStrand? key = some t → t.state = 1 → t.wait = some w → w.blocking = true → 256 ≤ t.blocked →
    t.late = [] → t.pieces = [] → t.inSecond = false → Completes (.blockDeactivate key) s (asStrand s t fun u => { u with me := t.deactivate 2 })) ∧
  ∀ (s : State) (key : Key) (t : Strand) (r : Rec), s.theStrand? key = some t →
    let u := s.tile t.tile.toNat
    t.state = 1 → t.late = [] → t.pieces = [] → t.inSecond = false → t.wait = none → 65536 ≤ t.slotCycles → t.errs = [] → t.killed = false → s.resident key.asid = true → t.pkst.getLsbD 63 = false →
    r ∈ u.deque → s.eligible t.tile.toNat r = true → t.prio.toNat ≤ r.level u.d →
    Completes (.slotRotation key) s ((s.modStrand key fun t => t.deactivate 0).makeReady key)

/-- R107, R152, R160, R192, R204, R242, R275, R370, R374, R35: a wait that reaches WDOGT sends a WATCHDOG record; a watched word is read
again; results, pending data errors, register lines, code lines and save areas reach the strand that waits for them; the tile cleans a
stash line; a packet still open 16,384 cycles after its space's pre-emption reached the tile is discarded, in any state but created. -/
def Obligations.WaitsAreServed : Prop :=
  (∀ (s : State) (key : Key) (t : Strand) (w : Wait), s.theStrand? key = some t → (t.state = 1 ∨ t.state = 2) → t.wait = some w → w.blocking = true →
    (s.load t).myTile.wdogt ≠ 0 → (s.load t).myTile.wdogt.toNat ≤ t.blocked → t.noticed = false →
    Completes (.watchdogNotice key) s (asStrand s t fun u =>
      let (s1, t1) := u.sendStrand { t with tokens := t.tokens.filter fun e => e.2 ≠ 4 } 4 { pc := t.pc, addr := t.waitAddr, info := u.myTile.wdogt.setWidth 64 }
      { s1 with me := { t1 with noticed := true } })) ∧
  (∀ (s s1 : State) (key : Key) (t : Strand) (va x : Word) (p : Word → Bool), s.theStrand? key = some t → t.state = 2 → t.watched = [(va, p)] →
    waitRead va (s.load t) = .ok x s1 →
    let s2 := ({ s1 with walkLog := s.walkLog } : State).unload
    (p x = false → Completes (.waitwRecheck key) s s2) ∧
    (p x = true → Completes (.waitwRecheck key) s ((s2.modStrand key fun t => { t with blocked := 0, noticed := false }).makeReady key))) ∧
  (∀ (t : Strand) (va old : Word), t.wait = some (.word va old) → ∃ p, t.watched = [(va, p)] ∧ ∀ x, p x = true ↔ x ≠ old) ∧
  (∀ (t : Strand) (va : Word), t.wait = some (.cell va) → ∃ p, t.watched = [(va, p)] ∧ ∀ x, p x = true ↔ hState x = 2) ∧
  (∀ (s : State) (key : Key) (t : Strand) (r : GReg) (h : Held), s.theStrand? key = some t → t.late = [] → t.held = [h] → h.left = 0 → h.dst = .g r →
    r.val ≠ 0 →
    Completes (.loadDataReturn key) s (s.modStrand key fun u =>
      { u with g := u.g.set r (h.val.setWidth 64), held := [], dirty := u.dirty ||| lineBit (if r.val < 16 then 1 else 2) })) ∧
  (∀ (s s1 : State) (key : Key) (t : Strand) (l : Late) (r : List Late) (xs : List Nat), s.theStrand? key = some t → t.late = l :: r → l.gone = false →
    let u := { t with late := r }
    s.onBehalf u (do loadLanes (← get).whoLoad l.pieces) = .ok (xs, none) s1 →
    Completes (.loadDataReturn key) s (s1.modStrand key fun _ =>
      (u.result { dst := l.dst, left := l.left, val := (l.value xs).1, tag := (l.value xs).2 }).deliverDue)) ∧
  (∀ (s : State) (key : Key) (t : Strand) (a pair : Word), s.theStrand? key = some t → t.state = 1 → t.wait = none → t.errs = [(a, pair)] → t.late = [] →
    Completes (.deferredDataError key) s (asStrand s t fun u =>
      ({ u with me := { t with errs := [] } } : State).takeCond { code := 24, tinfo := pair, taddr := a })) ∧
  (∀ (s s1 s2 : State) (key : Key) (t u : Strand) (w0 w1 : BitVec 32) (p : Pair), s.theStrand? key = some t → t.state = 1 → t.wait = some .line →
    (s.load t).fetch = (.words w0 w1, s1) → decodePair w0 w1 = .ok p → s1.fetchLines s1.me (Pair.lines p) 32 = .ok (s2, u) →
    Completes (.registerLineFill key) s { s2 with me := { u with wait := none } }.unload) ∧
  (∀ (s s1 : State) (tile : BitVec 10) (key : Key) (line : Nat) (op : HomeOp) (x : Line),
    let missed (t : Strand) : Bool := t.tile = tile && t.state = 1 && t.wait = some .line
    ((s.strands.filter missed).findSome? s.missing) = some (key, line) → s.ask key tile.toNat 1024 (.read (line * 128) 128) = .got op (.data x 0) s1 →
    Completes (.icacheFill tile) s
      (({ s1 with strands := s1.strands.map fun t => if missed t && (s.missing t).any (fun e => e.2 = line) then { t with wait := none } else t } :
        State).modTile tile.toNat fun t => { t with icache := icachePut line x t.icache })) ∧
  (∀ (s s1 s2 : State) (tile : BitVec 10) (line : BitVec 14) (m : Stash) (x : Xl),
    let n := line.toNat * 128
    let who := agentWho m.asid tile.toNat (itemSupv m.asid tile.toNat) true 1
    ((s.tile tile.toNat).stashes.map (·.2)).find? (fun m => decide (m.off ≤ n) && decide (n < m.off + m.len)) = some m →
    agentXl s who (m.base + BitVec.ofNat 64 (n - m.off)) = .ok (x, s1) → (chgOn s = true → x.leaf.getLsbD 5 = true) →
    s.onBehalf { newStrand (agentKey m.asid 0) tile.toNat with supv := itemSupv m.asid tile.toNat } (stashLineOut who m line.toNat) = .ok () s2 →
    Completes (.stashWriteback tile line) s s2) ∧
  (∀ (s s1 : State) (key : Key) (t : Strand) (i v : Nat) (q : QReg), s.theStrand? key = some t → t.state = 1 →
    let u := s.load t
    u.myTile.toRestore key = some (i, q) → u.onBehalf t (areaRead (agentWho key.asid u.here t.supv false 5) (t.area q.val)) = .ok v s1 →
    let s2 := s1.modMyTile fun w => w.setAcc i { w.acc i with elems := elemsOf v, restoring := false }
    let goes := s2.me.wait = some .line ∧ s2.myTile.toRestore key = none
    (goes → Completes (.saveAreaRestore key) s ({ s2 with me := { s2.me with wait := none } } : State).unload) ∧
    (¬ goes → Completes (.saveAreaRestore key) s s2.unload)) ∧
  ∀ (s : State) (key : Key) (t : Strand), s.theStrand? key = some t → s.resident key.asid = false → t.pkst.getLsbD 63 = true → t.wait ≠ some .answer →
    t.state ≠ 4 → 16384 ≤ t.pktCycles →
    ∃ u, Completes (.packetDiscard key) s u ∧ ∀ v, u.theStrand? key = some v → v.pkst.getLsbD 63 = false ∧ v.pkst.getLsbD 62 = true

/-- R104, R137, R193–R195, R229, R230, R232, R283, R286: the head of a tile's matrix queue runs and its handle is done, a send writes its image with full
bits, or is refused; the oldest copy reads and writes its pieces and resolves its handle once it has stopped and nothing that it has read is left
to write, as a prefetch does when its lines are in the L2. Here no operation named is exported. -/
def Obligations.EnginesComplete : Prop :=
  (∀ (s : State) (tile : BitVec 10) (o : MatOp) (f : MmaForm) (rest : List MatOp) (i : Nat),
    let n := tile.toNat
    let u := s.tile n
    u.mat = o :: rest → o.form = some f → u.boundTo o.key o.q = some i → (u.acc i).bad = false →
    (∀ g ∈ mmaGranules (mmaRow f) o.a o.b, u.granuleBad o g = false) → (∀ e ∈ u.exports, e.1 ≠ o.seq) →
    ∀ s1, s.putHandle n o.key o.kreg (doneWord 2 false o.seq 0 0) = .ok s1 →
      Completes (.mmaComplete tile) s (s1.modTile n fun t => (t.mmaRun o f).1.matPop)) ∧
  (∀ (t : Tile) (o : MatOp) (f : MmaForm) (i : Nat), t.boundTo o.key o.q = some i → (t.acc i).bad = false →
    (∀ g ∈ mmaGranules (mmaRow f) o.a o.b, t.granuleBad o g = false) →
    t.mmaRun o f = (t.setAcc i { t.acc i with elems := mmaElems (t.asRead o) o f (t.acc i) }, 0, 0)) ∧
  (∀ (t : Tile) (o : MatOp), o.got = [] → t.asRead o = t ∧ ∀ g, t.granuleBad o g = t.scrBad g 64) ∧
  (∀ (s : State) (tile : BitVec 10) (o : MatOp) (rest : List MatOp) (i : Nat),
    let n := tile.toNat
    let u := s.tile n
    let dst := o.b.toNat % 2 ^ 10
    let image := (u.acc i).imageBytes
    let skip := o.got.map (·.1)
    u.mat = o :: rest → o.form = none → u.boundTo o.key o.q = some i → (u.acc i).bad = false →
    (dst = n → (skip = [] → u.refuses n o.key.asid o.a.toNat 8512 = none) → (∀ e ∈ u.exports, e.1 ≠ o.seq) →
      ∀ s1, s.putHandle n o.key o.kreg (doneWord 2 false o.seq 0 0) = .ok s1 →
        Completes (.qsendComplete tile) s ((s1.modTile n Tile.matPop).putGranules n o.a.toNat 8512 image false [] skip)) ∧
    (dst ≠ n → o.sent = none → ∀ (s' : State) (op : HomeOp) (a : HomeAns) (status : Byte) (info : BitVec 32),
      s.ask (engineKey o.key.asid o.seq) n dst (.put o.a.toNat 8512 image (if skip.isEmpty then some o.key.asid else none) [] skip) = .got op a s' →
      (status = 0 ∧ info = 0 ∧ a = .done ∨ ∃ g, a = .refused g ∧ status = 3 ∧ info = BitVec.ofNat 32 g) →
      (s'.tile n).mat = o :: rest → (∀ e ∈ (s'.tile n).exports, e.1 ≠ o.seq) →
      let s2 := s'.modTile n fun t => { t with mat := { o with sent := some (status, info) } :: rest }
      ∀ s1, s2.putHandle n o.key o.kreg (doneWord 2 true o.seq status info) = .ok s1 → Completes (.qsendComplete tile) s (s1.modTile n Tile.matPop))) ∧
  (∀ (s s1 : State) (src dst off n v : Nat) (a : BitVec 12), (s.tile dst).refuses dst a off n = none →
    s.served src dst (.put off n v (some a) [] []) = some (.done, s.putGranules dst off n v true [] [])) ∧
  (∀ (s s1 : State) (tile : BitVec 10) (c : Copy) (i r off len : Nat) (w : CopyWrite),
    let n := tile.toNat
    firstIdx (fun c => c.stop.isNone || !c.pend.isEmpty) (s.tile n).copies = some i → (s.tile n).copies[i]? = some c → c.stop = none → c.pend = [] →
    (c.next = 0 → s.copyRefused n c = false) → c.piece c.next = some (r, off, len) →
    s.agent n (engineKey c.asid c.seq) c.cgrp c.supv (copyRead c n r off len) = .ok w s1 → w.n = c.next →
    let s2 := (s1.after s).modTile n fun t =>
      t.setCopy i { c with next := c.next + 1, pend := [w], stop := if (c.piece (c.next + 1)).isNone then some (0, 0) else none }
    ((s2.tile n).copies[i]?).map (·.pend) = some [w] → Completes (.copyPieceWrite tile) s (s2.copyWrite n i c.next)) ∧
  (∀ (s : State) (tile : BitVec 10) (c : Copy) (i : Nat) (w : CopyWrite) (rest : List CopyWrite),
    let n := tile.toNat
    firstIdx (fun c => c.stop.isNone || !c.pend.isEmpty) (s.tile n).copies = some i → (s.tile n).copies[i]? = some c → c.pend = w :: rest →
    Completes (.copyPieceWrite tile) s (s.copyWrite n i w.n)) ∧
  (∀ (s s1 : State) (n i : Nat) (c : Copy) (w : CopyWrite) (rest : List CopyWrite),
    (s.tile n).copies[i]? = some c → c.pend = w :: rest → c.pend.any w.after = false →
    s.agent n (engineKey c.asid c.seq) c.cgrp c.supv (copyWritten c n w) = .ok () s1 →
    s.copyWrite n i w.n = (s1.after s).modTile n fun t => t.setCopy i { c with pend := c.pend.filter fun x => x.n ≠ w.n }) ∧
  (∀ (s : State) (n : Nat) (c : Copy) (w : CopyWrite), c.remote = false → isScratch w.dst.toNat = true →
    copyWritten c n w s = .ok () (s.engineWrite n (w.dst.toNat - Config.scratchBase) w.len w.val false fun k => w.hold.contains k)) ∧
  (∀ (s : State) (tile : BitVec 10) (c : Copy) (i : Nat) (status : Byte) (info : BitVec 32),
    let n := tile.toNat
    firstIdx (fun c => c.stop.isSome && c.pend.isEmpty) (s.tile n).copies = some i → (s.tile n).copies[i]? = some c → c.stop = some (status, info) →
    (∀ e ∈ (s.tile n).exports, e.1 ≠ c.seq) →
    ∀ s1, s.putHandle n c.key c.kreg (doneWord 1 c.remote c.seq status info) = .ok s1 →
      Completes (.acopyComplete tile) s (s1.modTile n fun t => { t with copies := dropAt i t.copies })) ∧
  (∀ (s s1 : State) (tile : BitVec 10) (p : Prefetch) (rest : List Prefetch),
    let n := tile.toNat
    (s.tile n).prefetches = p :: rest → p.stop = none →
    let lines := (p.va.toNat % 128 + p.len + 127) / 128
    let base := p.va - BitVec.ofNat 64 (p.va.toNat % 128)
    let filled := s.prefetch (engineKey p.asid p.seq) (agentWho p.asid n p.supv false 7) base (lines - p.done) p.done
    let upTo (k : Nat) (stop : Option (Byte × BitVec 32)) : State :=
      s1.modTile n fun t => { t with prefetches := { p with done := k, stop := stop } :: rest }
    (∀ k, filled = .held k s1 → Completes (.prefetchComplete tile) s (upTo k none)) ∧
    ((∀ e ∈ (s1.tile n).exports, e.1 ≠ p.seq) →
      (filled = .all s1 → ∀ s2, (upTo lines (some (0, 0))).putHandle n p.key p.kreg (doneWord 3 false p.seq 0 0) = .ok s2 →
        Completes (.prefetchComplete tile) s (s2.modTile n fun t => { t with prefetches := rest })) ∧
      ∀ b, filled = .bad b s1 → ∀ s2, (upTo b (some (5, BitVec.ofNat 32 b))).putHandle n p.key p.kreg (doneWord 3 false p.seq 5 (BitVec.ofNat 32 b)) = .ok s2 →
        Completes (.prefetchComplete tile) s (s2.modTile n fun t => { t with prefetches := rest }))) ∧
  (∀ (s s1 s2 : State) (key : Key) (w : Who) (va : Word) (left i : Nat) (x : Xl) (op : HomeOp) (d : Line),
    agentXl s w (va + BitVec.ofNat 64 (128 * i)) = .ok (x, s1) → x.leaf.getLsbD 5 = true → HoldsMemory s1 x.pa →
    s1.ask key w.tile 1024 (.read (x.pa / 128 * 128) 128) = .got op (.data d 0) s2 →
    s.prefetch key w va (left + 1) i = s2.prefetch key w va left (i + 1)) ∧
  (∀ (s : State) (n : Nat) (key : Key) (k : KReg) (w : Word) (t : Strand), s.theStrand? key = some t →
    (hPending t.k[k] = false ∨ seqOf t.k[k] ≠ seqOf w → s.putHandle n key k w = .ok s) ∧
    (hPending t.k[k] = true → seqOf t.k[k] = seqOf w → hKind t.k[k] ≠ 5 → s.isOut key.asid = false → s.resident key.asid = true →
      ∀ s1 t1, s.fetchLine t 4 = .ok (s1, t1) → s.putHandle n key k w = .ok (s1.modStrand key fun _ => t1.setK k w))) ∧
  ∀ (kind : Nat) (rmt : Bool) (seq : BitVec 16) (status : Byte) (info : BitVec 32), kind < 8 →
    let w := doneWord kind rmt seq status info
    hDone w = true ∧ hKind w = kind ∧ hRmt w = rmt ∧ seqOf w = seq ∧ w.toNat / 2 ^ 48 % 2 ^ 8 = status.toNat ∧ w.toNat % 2 ^ 32 = info.toNat

/-! ### Events: welt kernels -/

/-- R310, R312–R319, R296, R297, R397, R437: a launch joins its stack's queue, starts on the lowest idle core with its pointers, or is
refused with STATUS 6; a completion frees the tile's launch and resolves its handle, shown here with no line of its ranges in the L2; the
oldest grantable clamp request takes its banks; the time limit ends a clamping kernel, a clamped bank's refresh is postponed; a posted
access is performed at the stack; a suspended kernel goes on; a core that fails leaves service unless the spare takes its place. -/
def Obligations.WeltEvents : Prop :=
  (∀ (s : State) (i : Nat) (m : Msg) (k : Kernel), Arrives s i m → m.body = .launch k → k.cancel = false →
    Completes (.weltLaunchReceive i) s
      (performed s (s.setStack k.stack { s.stack k.stack with queue := (s.stack k.stack).queue ++ [k] }) i .accepted)) ∧
  (∀ (s : State) (st : Fin 12) (c i : Nat) (k : Kernel),
    let y := s.stack st.val
    y.service ≠ 0 → (∀ v ∈ y.restores, s.restorable v = false) → s.idleCore st.val = some c →
    firstIdx (fun k => s.resident k.asid) y.queue = some i → y.queue[i]? = some k →
    let u := s.setStack st.val { y with queue := dropAt i y.queue }
    (∀ why, u.imageWaits k.image 64 = false → u.imageBad k.image 64 = false → u.image k = .error why →
      ∃ m, EndsKernel m k 6 (BitVec.ofNat 32 why) ∧ Completes (.weltPlace st) s { u with msgs := u.msgs ++ [m] }) ∧
    ∀ g, u.imageWaits k.image 64 = false → u.imageBad k.image 64 = false → u.image k = .ok g →
      u.imageWaits k.image (64 + g.code + g.data) = false → u.imageBad k.image (64 + g.code + g.data) = false →
      ∃ n, Completes (.weltPlace st) s (u.setCore c n) ∧ n.kern = some k ∧ n.pc.toNat = g.entry % 2 ^ 18 ∧ n.a = 0 ∧ n.c = 0 ∧ n.f = 0 ∧ n.posted = [] ∧
        n.clamps = [] ∧ ∀ j : Fin 8, n.p[j] = k.pointer j.val) ∧
  (∀ (s : State) (st : Fin 12) (k : Kernel) (r : List Kernel), (s.stack st.val).service = 0 → (s.stack st.val).queue = k :: r →
    ∃ m, EndsKernel m k 6 3 ∧ Completes (.weltPlace st) s { s.setStack st.val { s.stack st.val with queue := r } with msgs := s.msgs ++ [m] }) ∧
  (∀ (s : State) (st : Fin 12) (c i : Nat) (v : Saved),
    let y := s.stack st.val
    s.idleCore st.val = some c → firstIdx s.restorable y.restores = some i → y.restores[i]? = some v →
    Completes (.weltRestore st) s ((s.setStack st.val { y with restores := dropAt i y.restores }).setCore c v.core)) ∧
  (∀ (s s1 : State) (i : Nat) (m : Msg) (k : Kernel) (status : Byte) (info : BitVec 32), s.msgs[i]? = some m → m.st = .sent →
    m.body = .weltEnd k status info → s.lostOn m.trip = none →
    ((s.dropMsg i).complete k status info = .ok s1 → Completes (.weltCompletion i) s s1) ∧
    ((s.dropMsg i).complete k status info = .wait s1 → Completes (.weltCompletion i) s { s1 with msgs := s1.msgs ++ [m] })) ∧
  (∀ (s s1 : State) (k : Kernel) (status : Byte) (info : BitVec 32), (∀ e ∈ s.l2, k.declares e.addr = false) →
    (∀ e ∈ (s.tile k.tile.toNat).exports, e.1 ≠ k.seq) →
    (s.modTile k.tile.toNat fun t => { t with launches := t.launches - 1 }).putHandle k.tile.toNat k.key k.kreg (doneWord 4 false k.seq status info) = .ok s1 →
    s.complete k status info = .ok s1) ∧
  (∀ (s : State) (st : Fin 12) (i c : Nat) (banks : List (Nat × Nat)),
    let y := s.stack st.val
    i < y.clampq.length → canGrant s st.val y.clampq i = true → (∀ j < i, canGrant s st.val y.clampq j = false) → y.clampq[i]? = some (c, banks) →
    Completes (.clampGrant st) s ((s.setStack st.val { y with clampq := dropAt i y.clampq }).setCore c ((s.coreOf c).take banks))) ∧
  (∀ (s : State) (st : Fin 12) (n : Fin 16),
    let i := st.val * 16 + n.val
    let c := s.coreOf i
    (c.kern.isSome = true → c.clamps ≠ [] → c.ends = none →
      Completes (.clamplong st n) s ((s.loadCore i).endKernel 7 (kernInfo 9 c.pc)).unloadCore) ∧
    Completes (.weltDramAccessComplete st n) s (s.loadCore i).performOldest.unloadCore ∧
    ∃ t, Completes (.weltCoreFailure st n) s t ∧
      (t.stack st.val).spare = false ∧
      ((t.stack st.val).service = if (s.stack st.val).spare then (s.stack st.val).service
        else (s.stack st.val).service &&& ~~~ (BitVec.ofNat 16 (2 ^ n.val)))) ∧
  (∀ (s : State) (p : Posted) (r : List Posted), s.core.posted = p :: r → s.clampedByOther (s.coreAt / 16) p.loc = false → s.core.ends = none →
    s.performOldest = { s.performPosted (s.coreAt / 16) p with core := { s.core with posted := r } }) ∧
  ∀ (s : State) (st : Fin 12) (ch : Fin 32) (bank : Fin 36),
    let b := (ch.val, bank.val)
    let y := s.stack st.val
    let held := s.cores.any fun e => e.1 / 16 = st.val && e.2.clamps.contains b
    ∃ z, Completes (.refreshDue st ch bank) s (s.setStack st.val z) ∧
      z.postponedAt b = (if held && decide (y.postponedAt b < 8) then y.postponedAt b + 1 else 0) ∧
      ∀ x, x ≠ b → z.postponedAt x = y.postponedAt x

/-! ### Events: the host -/

/-- R63, R64, R100, R120, R333, R334: the command at the head of an idle queue is carried out: a launch without a counter leaves for its tile
with the command's reference, a deferred one takes an entry and asks the counter's home, waits while that page is being moved, and ends with 3
on a page that may not be written or that S bars (that bit 4 stands for S in a leaf of MT 2 or 3 too, and the SUPV that meets it, are the model's
choices, logs 32 and 90); an INVL starts, or is done when it is empty; a
pre-emption starts, and a space that is out is resumed; a migration sets MB and starts its first INVL. A code that names no command
is answered with 2; a migration whose VA has no leaf first completes an INVL (R409: the 64 KiB at that VA, the model's choice, log 70). -/
def Obligations.HostCommands : Prop :=
  (∀ (s : State) (q : Fin 4) (c : Cmd) (entry dst : Nat), AtHead s q c 1 → badRec c.record.body = none → c.record.dom &&& ~~~ domMask = 0 →
    s.launchDest c c.record = some (entry, dst) →
    (c.record.depc = 0 → (s.tile entry).credit dst < 2 → Completes (.launch q) s ((s.setBusy q).sendEnq entry dst c.record false (some c.ref))) ∧
    ∀ size leaf leafpa, c.record.depc ≠ 0 → s.soleWalk c.record.asid c.record.depcVA = some (size, leaf, leafpa) →
      let n := if c.record.mode = 1 ∨ c.record.mode = 2 then entry else dst
      let bars := leaf.getLsbD 2 = false ∨ leaf.getLsbD 4 = true ∧ itemSupv c.record.asid n = false
      (bars → Completes (.launch q) s (s.answerCmd c.ref 3)) ∧
      (¬ bars → leaf.getLsbD 58 = true → Completes (.launch q) s s) ∧
      ∀ i, ¬ bars → leaf.getLsbD 58 = false → HoldsMemory s (leafPa size leaf c.record.depcVA) →
      let area := (s.tile n).dfrBase + 128 * i
      (s.tile n).dfrBase ≠ 0 → (s.tile n).freeDefer = some i → s.areaFault area = none → s.barred n area = false →
      Completes (.launch q) s ((((s.setBusy q).homeWrite area 128 c.record.entryBytes).modTile n fun t => { t with deferrals := ins i t.deferrals }).send
        .req n 1024 (.waiter (.command c.asid c.ref) (leafPa size leaf c.record.depcVA) i))) ∧
  (∀ (s : State) (q : Fin 4) (c : Cmd), AtHead s q c 1 → (badRec c.record.body ≠ none ∨ c.record.dom &&& ~~~ domMask ≠ 0) →
    Completes (.launch q) s (s.answerCmd c.ref 2)) ∧
  (∀ (i : Instr) (s : State) (q : Fin 4) (c : Cmd) (form : Nat), invlCommandOf i = some (q, form) → AtHead s q c 2 → c.form = form →
    ((form = 0 ∧ c.len = 0) → Completes i s (s.answerCmd c.ref 1)) ∧
    (¬ (form = 0 ∧ c.len = 0) → Completes i s ((s.setBusy q).startInvl (BitVec.ofNat 2 form) c.asid c.va c.len (.command c.ref)))) ∧
  (∀ (s : State) (q : Fin 4) (c : Cmd), AtHead s q c 3 → s.preemptOf q = none →
    (c.asid = 0 → Completes (.preempt q) s (s.answerCmd c.ref 2)) ∧
    (c.asid ≠ 0 → s.absent.contains c.asid = true → Completes (.preempt q) s (s.answerCmd c.ref 1)) ∧
    (c.asid ≠ 0 → s.absent.contains c.asid = false → (∀ p ∈ s.preempts, p.asid ≠ c.asid) →
      let s1 := s.setBusy q
      Completes (.preempt q) s
        (({ s1 with preempts := s.preempts ++ [{ asid := c.asid, step := 1, who := [c.ref] }] } : State).advance c.asid 8))) ∧
  (∀ (s : State) (q : Fin 4) (p : Preempt), s.preemptOf q = some p → Completes (.preempt q) s (s.advance p.asid 8)) ∧
  (∀ (s : State) (p : Preempt), s.retainedAccs p.asid = 0 → s.retainedLines p.asid = 0 → (∀ r ∈ s.resumes, r.1 ≠ p.asid) → p.who = [] →
    (s.preempt6 p).absent = s.absent ++ [p.asid] ∧ ∀ q ∈ (s.preempt6 p).preempts, q.asid ≠ p.asid) ∧
  (∀ (s : State) (q : Fin 4) (c : Cmd), AtHead s q c 4 →
    (∀ s1, s.absent.contains c.asid = true → s.resumes = [] → ({ s.setBusy q with resumes := [(c.asid, c.ref)] } : State).resumeSpace c.asid = (s1, true) →
      Completes (.resume q) s (({ s1 with resumes := s1.resumes.filter fun r => r.1 ≠ c.asid } : State).answerCmd c.ref 1)) ∧
    (s.absent.contains c.asid = false → (∀ p ∈ s.preempts, p.asid ≠ c.asid) → Completes (.resume q) s (s.answerCmd c.ref 1))) ∧
  (∀ (s : State) (q : Fin 4) (c : Cmd) (size leafpa : Nat) (leaf : Word),
    let va := BitVec.ofNat 64 (c.at 64 71)
    let asid := BitVec.ofNat 12 (c.at 72 73)
    let n := 2 ^ sizeShift size
    AtHead s q c 5 → s.migrating = none → c.at 72 73 < 2 ^ 12 → c.at 74 79 = 0 → c.at 96 127 = 0 → s.soleWalk asid va = some (size, leaf, leafpa) →
    va57 va % n = 0 → c.at 80 87 % n = 0 → HoldsMemory s (c.at 80 87) → s.declared asid (va57 va) n = false →
    ∃ t g, Completes (.migrate q) s t ∧ t.migrating = some g ∧ g.va = va ∧ g.asid = asid ∧ g.newpa.toNat = c.at 80 87 % 2 ^ 64 ∧ g.status = 0 ∧
      g.oldpa = leaf.toNat / 2 ^ 16 % 2 ^ 36 * 2 ^ 16 ∧ g.who = c.ref ∧
      t.invls = s.invls ++ [{ form := 0, asid := asid, va := va, len := BitVec.ofNat 64 n, who := .migrateBusy, left := BitVec.allOnes 1026 }]) ∧
  (∀ (s : State) (q : Fin 4) (c : Cmd),
    let va := BitVec.ofNat 64 (c.at 64 71)
    let asid := BitVec.ofNat 12 (c.at 72 73)
    AtHead s q c 5 → s.migrating = none → c.at 72 73 < 2 ^ 12 → c.at 74 79 = 0 → c.at 96 127 = 0 → s.soleBusy asid va = false → s.soleWalk asid va = none →
    ∃ t g, Completes (.migrate q) s t ∧ t.migrating = some g ∧ g.status = 3 ∧ g.drain = 1026 ∧ g.who = c.ref ∧ g.done.toNat = c.at 88 95 % 2 ^ 64 ∧
      t.mem = s.mem ∧ t.l2 = s.l2 ∧
      t.invls = s.invls ++ [{ form := 0, asid := asid, va := va, len := 0x10000, who := .migrateUndo, left := BitVec.allOnes 1026 }]) ∧
  ∀ (i : Instr) (s : State) (q : Fin 4) (c : Cmd), (i = .launch q ∨ i = .resume q ∨ i = .migrate q ∨ ∃ form, invlCommandOf i = some (q, form)) →
    s.queues[q].busy = false → s.command q = some c → c.known = false → Completes i s (s.answerCmd c.ref 2)

/-- R91, R109, R145, R329, R332, R335, R362, R377: the host's writes of the register window act when the cube runs or stands in recovery, HREPLY1 sends
a reply, LOGPOST7 posts the eight words; the configuration block keeps its two bytes; a CXL.mem write reaches the home, a read leaves
the host the line, a bad word written whole is good again (R362; that a store rewrites a word is the model's choice, log 59), and a snoop of the
host's own memory takes the slice's dirty bytes. In which phases the host's writes act is the model's reading (log 42), and what keeps a change of
SCRASID waiting its choice (log 75). -/
def Obligations.HostWrites : Prop :=
  (∀ (s : State), (s.phase = .running ∨ s.phase = .recovery) →
    (∀ w1, badReply s.hreply w1 = false → Completes (.hreply w1) s (s.send .sync 1024 (w1.toNat / 2 ^ 16 % 2 ^ 10) (.reply s.hreply w1))) ∧
    (∀ w, ∃ u, u = ({ s with logpost := s.logpost.set 7 w } : State) ∧ Completes (.logpost w) s (u.logEntry 1 0x7FE (s.logpost.toList.take 7))) ∧
    (∀ (tile : BitVec 10) (r : Fin 32) (w : Word),
      let u := s.tile tile.toNat
      ((BitVec.ofNat 13 w.toNat = u.scrasid[r] ∨ u.regionUsed r.val = true) → Completes (.scrasidWrite tile r w) s s) ∧
      (BitVec.ofNat 13 w.toNat ≠ u.scrasid[r] → u.regionUsed r.val = false → s.regionBusy tile.toNat r.val = true →
        Completes (.scrasidWrite tile r w) s (s.setTile tile.toNat { u with scrasidNext := put r.val (BitVec.ofNat 13 w.toNat) u.scrasidNext })) ∧
      (BitVec.ofNat 13 w.toNat ≠ u.scrasid[r] → u.regionUsed r.val = false → s.regionBusy tile.toNat r.val = false →
        ∃ t, Completes (.scrasidWrite tile r w) s t ∧ (t.tile tile.toNat).scrasid = u.scrasid.set r (BitVec.ofNat 13 w.toNat) ∧
          ∀ a, Mem.read (t.tile tile.toNat).scratch a = if r.val * 65536 ≤ a ∧ a < (r.val + 1) * 65536 then 0 else Mem.read u.scratch a)) ∧
    (∀ (p : Fin 32) (w : Word), ∃ t, Completes (.optmapEnable p w) s t ∧ t.optmap = s.optmap.set p (BitVec.ofNat 4 w.toNat) ∧
      (w.getLsbD 3 = true → t.opticalDown.getLsbD p.val = false)) ∧
    (∀ (off : BitVec 30) (w : Word), off.toNat % 8 = 0 → Completes (.registerWrite off w) s (regWrite s off.toNat w true 1024)) ∧
    (∀ w, regRead (regWrite s 0x10 w true 1024) 0x10 = w &&& 0x000FFFFFFFFF0000 ∧
      regRead (regWrite s 0x18 w true 1024) 0x18 = w &&& 0x000FFFFFFF000001)) ∧
  (∀ (s : State) (n p : Byte), Completes (.configBlockWrite n p) s { s with config := BitVec.ofNat 128 (n.toNat + 256 * p.toNat), configOk := true }) ∧
  (∀ (s : State) (pa : BitVec 52) (wr : List Byte), s.phase = .running → (s.win pa.toNat = .inter ∨ ∃ st o, s.win pa.toNat = .near st o) →
    pa.toNat % 64 + wr.length ≤ 64 → s.heldAtHome pa.toNat = false →
    (wr = [] → Completes (.hostCxlMemAccess pa wr) s
      { s.homeFill (pa.toNat / 128) with cxl := ins (pa.toNat / 128) s.cxl }) ∧
    (wr ≠ [] → Completes (.hostCxlMemAccess pa wr) s (s.homeStore 0x7FE pa.toNat wr.length (bytesNat wr)))) ∧
  (∀ (s : State) (source pa n v : Nat), s.bad = [] → s.outAt (pa / 128 * 128) = false → n ≠ 0 → pa % 128 + n ≤ 128 →
    s.homeStore source pa n v = s.homeWrite pa n v) ∧
  (∀ (s : State) (source pa n v : Nat), s.outAt (pa / 128 * 128) = false → n ≠ 0 → pa % 128 + n ≤ 128 →
    (∀ w ∈ s.bad, w / 16 = pa / 128 → pa ≤ 8 * w ∧ 8 * w + 8 ≤ pa + n) →
    let t := s.homeStore source pa n v
    (∀ w, w ∈ t.bad ↔ w ∈ s.bad ∧ w / 16 ≠ pa / 128) ∧ t.homeRead pa n = v % 256 ^ n) ∧
  ∀ (s : State) (pa : BitVec 52) (wr : List Byte), s.phase = .running → s.win pa.toNat = .host → pa.toNat % 64 + wr.length ≤ 64 →
    let s1 := s.homeClean (pa.toNat / 128) (decide (wr = []))
    Completes (.hostCxlCacheSnoop pa wr) s { s1 with mem := Mem.writeN s1.mem pa.toNat wr.length (bytesNat wr) }

/-! ### Events: links and ports -/

/-- R322, R327, R328, R418–R426: a timer that runs out sends an ENQ or SYNC message again for ever, and another's until the fifth attempt, when a
request fails and a reduction is given up (that a message of class RSP is one of the first is the model's choice, log 44); a home that holds a
request restarts its timer once; a blocked message, or its answer, goes over to the escape channels; a bad
flit loses its message and is counted at the router that it reaches; a failed link stops at both ends, and with more than 64 failures; a detour
takes an entry at both ends; a failed port loses EN; a request of another package is performed and a read answered with its bytes, a
response reaches its request, a bad CRC drops the packet; a response carries its own CRC. -/
def Obligations.LinksAndPorts : Prop :=
  (∀ (s : State) (i : Nat) (m : Msg), s.msgs[i]? = some m → s.windowed i m = true → s.clampHolds i m = false → m.holds = 0 →
    (∀ key op, m.cls ≠ .enq → m.cls ≠ .sync → m.cls ≠ .rsp → 4 ≤ m.attempt → m.body = .access key op none → (s.theStrand? key).isSome = true →
      Completes (.messageTimeout i) s ((s.logTimeout m).modMsg i fun m => { m with body := .access key op (some none), st := .answered .failed })) ∧
    ((m.cls = .enq ∨ m.cls = .sync ∨ m.cls = .rsp) → (m.attempt + 1) % 5 ≠ 0 → Completes (.messageTimeout i) s (s.modMsg i Msg.reissue)) ∧
    ((m.cls = .enq ∨ m.cls = .sync ∨ m.cls = .rsp) → (m.attempt + 1) % 5 = 0 →
      Completes (.messageTimeout i) s ((s.modMsg i Msg.reissue).logTimeout m)) ∧
    (m.cls ≠ .enq → m.cls ≠ .sync → m.cls ≠ .rsp → m.attempt < 4 → Completes (.messageTimeout i) s (s.modMsg i Msg.reissue)) ∧
    (∀ key pa op wide v, m.cls ≠ .enq → m.cls ≠ .sync → m.cls ≠ .rsp → 4 ≤ m.attempt → m.body = .redn key pa op wide v →
      Completes (.messageTimeout i) s (((s.logTimeout m).dropMsg i).modStrand key fun t => { t with redn := t.redn - 1 }))) ∧
  (∀ m : Msg, m.reissue.attempt = m.attempt + 1 ∧ m.reissue.body = m.body ∧ m.reissue.seq = m.seq ∧ (m.st = .lost → m.reissue.st = .sent)) ∧
  (∀ (s : State) (i pa : Nat) (m : Msg), Arrives s i m → m.cls = .req → m.body.pa? = some pa → (s.win pa = .inter ∨ ∃ st o, s.win pa = .near st o) →
    Completes (.holdNotice i) s (s.modMsg i fun m => { m with holds := 1 })) ∧
  (∀ (s : State) (h : Hops) (m : Msg), s.msgs[h.msg]? = some m →
    (m.st = .sent → m.esc = false →
      Completes (.escapeSwitch h) s (s.modMsg h.msg fun m => { m with esc := true, escAt := min h.made m.trip.hops.length })) ∧
    ∀ a, m.st = .answered a → m.backEsc = false →
      Completes (.escapeSwitch h) s (s.modMsg h.msg fun m => { m with backEsc := true, backAt := min h.made m.tripBack.hops.length })) ∧
  (∀ t : Trip, t.tree = none →
    let l := plan t.order t.src t.dst t.down
    (t.switch = none → t.hops = l) ∧ ∀ n, t.switch = some n → t.hops = l.take n ++ plan 0 (routerAfter t.src (l.take n)) t.dst t.down) ∧
  (∀ (s : State) (h : Hops) (m : Msg) (hop : Hop) (lost : MsgSt), s.msgs[h.msg]? = some m →
    (m.st = .sent ∧ (s.course m.trip)[h.made]? = some hop ∧ lost = .lost ∨
      ∃ a, m.st = .answered a ∧ (s.course m.tripBack)[h.made]? = some hop ∧ lost = .ansLost a) →
    let far := farEnd hop.router hop.port
    ∃ u, Completes (.flitCrcFailure h) s u ∧ SameStrands s u ∧ u.mem = s.mem ∧ (u.msgs[h.msg]?).map (·.st) = some lost ∧
      (u.tile far.1).crcCount far.2 = (s.tile far.1).crcCount far.2 + 1) ∧
  (∀ (s : State) (tile : BitVec 10) (p : Port),
    (∃ u, Completes (.linkLossOfLock tile p) s u ∧ SameStrands s u ∧ u.mem = s.mem ∧ p ∈ (u.tile tile.toNat).failed ∧ (farEnd tile.toNat p).2 ∈ (u.tile (farEnd tile.toNat p).1).failed) ∧
    (64 < (s.tile tile.toNat).crcCount p →
      Completes (.linkCrcLimit tile p) s ((s.modTile tile.toNat fun t => t.setCrc p []).failLink tile.toNat p)) ∧
    ∀ side farSide : Fin 4,
      let far := farEnd tile.toNat p
      let entry (p : Port) (side : Nat) : BitVec 16 := BitVec.ofNat 16 (2 ^ 15 + portNum p * 2 ^ 12 + side * 2 ^ 9)
      p ≠ .sole → p ∈ (s.tile tile.toNat).failed → (s.tile tile.toNat).patched p = false →
      (s.tile tile.toNat).patch.length < 4 → (s.tile far.1).patch.length < 4 → s.sideOk tile.toNat p side.val = true →
      s.sideOk far.1 far.2 farSide.val = true →
      ∃ u, Completes (.patchInstall tile { port := p, side := side, farSide := farSide }) s u ∧ SameStrands s u ∧
        entry p side.val ∈ (u.tile tile.toNat).patch ∧ entry far.2 farSide.val ∈ (u.tile far.1).patch) ∧
  (∀ (s : State) (p : Fin 32), ∃ u, Completes (.opticalPortFailure p) s u ∧ SameStrands s u ∧ u.optmap = s.optmap.set p (s.optmap[p] &&& 7) ∧
    u.opticalDown = s.opticalDown ||| BitVec.ofNat 32 (2 ^ p.val)) ∧
  ∀ (s : State) (h : BitVec 128) (d : List Byte),
    let good := portCrc h d
    (∀ crc, crc ≠ good → Completes (.portPacket h d crc) s s) ∧
    (s.phase = .running → hdrType h ≤ 3 → hdrDpkg h = s.pkgid.toNat → Completes (.portPacket h d good) s (s.portRequest h d)) ∧
    (s.phase = .running → 8 ≤ hdrType h → hdrType h ≤ 11 → hdrSpkg h = s.pkgid.toNat → Completes (.portPacket h d good) s (s.portResponse h d)) ∧
    ∀ st o, s.phase = .running → hdrType h = 0 → hdrDpkg h = s.pkgid.toNat →
      let pa := s.pkgid.toNat * 2 ^ Config.pkgShift + hdrOff h
      s.win pa = .near st o → s.heldAtHome pa = false → s.badIn pa (hdrBytes h) = false →
      ∃ u, Completes (.portPacket h d good) s u ∧ u.mem = (s.homeFill (pa / 128)).mem ∧
        ∀ p, (s.homeFill (pa / 128)).portFor (hdrSpkg h) (hdrOff h) = some p →
          let x := natBytes (hdrBytes h) (s.homeRead pa (hdrBytes h))
          ∃ h', u.portOut = s.portOut ++ [(p, h', x ++ natBytes 4 (portCrc h' x).toNat)] ∧ hdrType h' = 8 ∧ hdrSeq h' = hdrSeq h ∧ hdrTag h' = hdrTag h

/-! ### Events: start, heat, failures -/

/-- R335–R338, R433, R434: power applied to a cube whose banks and links are good, with no step failing, runs it when a firmware slot is accepted:
the configuration block's values (zeros when its integrity check fails) are in force and the fields locked; with neither slot accepted it stands in
recovery; a step without an alternate that does not end fails with reason 10; the host's new slot A starts a cube in recovery again, and a
slot is accepted only when both signatures verify, both keys match their digests and the version is at least the minimum. (That a PKGID above 7 and
a NEARSZ above 64 are the values out of range, and that a start is one step, are the model's choices, log 48.) A loss of power empties tiles, strands, caches, messages and cores and
keeps the record, the configuration block, the start number and the fuse word. -/
def Obligations.StartAndPower : Prop :=
  (∀ s : State, s.phase = .off → (∀ n < 12, (s.unpowered.stack n).banksOk = true) → s.brokenLinks = [] → (∀ i : Fin 11, recFailed s.record[i] = false) →
    ∃ t, Completes (.powerOn []) s t ∧ t.startNo = s.startNo + 1 ∧
      if s.judge s.fwA = 0 ∨ s.judge s.fwB = 0 then
        t.phase = .running ∧ t.locked = true ∧
        (let c := if s.configOk then s.config.toNat else 0
        t.pkgid.toNat = (if c / 2 ^ 8 % 2 ^ 8 ≤ 7 then c / 2 ^ 8 % 2 ^ 8 else 0) ∧ t.nearsz.toNat = (if c % 2 ^ 8 ≤ 64 then c % 2 ^ 8 else 0) ∧
          t.spare = s.fuseSpare) ∧
        ∀ i : Fin 11, (s.judge s.fwA = 0 ∨ i.val ≠ 1) → t.record[i] = BitVec.ofNat 128 (t.startNo.toNat * 2 ^ 96 + 2)
      else t.phase = .recovery ∧ t.locked = false) ∧
  (∀ (s : State) (step : Fin 11), s.phase = .starting step → recMode s.record[step] = 0 → hasAlternate (step.val + 1) = false →
    ∃ t, Completes (.startStepTimeout step) s t ∧ t.phase = .recovery ∧ recStatus t.record[step] = 3 ∧ t.record[step].toNat / 2 ^ 80 % 2 ^ 16 = 10 * 2 ^ 12) ∧
  (∀ (s : State) (fw : Firmware), s.phase = .recovery →
    Completes (.recoverySlotWrite fw) s (({ s with fwA := fw } : State).start [])) ∧
  (∀ (s : State) (fw : Firmware), s.judge fw = 0 ↔
    fw.edSig.length = 64 ∧ Config.ed25519Verifies fw.edKey fw.image fw.version fw.edSig = true ∧
    fw.mlSig.length = 3309 ∧ Config.mldsa65Verifies fw.mlKey fw.image fw.version fw.mlSig = true ∧
    Config.sha384 fw.edKey = s.edDigest ∧ Config.sha384 fw.mlKey = s.mlDigest ∧ s.minVersion ≤ fw.version) ∧
  ∀ s : State, ∃ t, Completes .powerLoss s t ∧ t.phase = .off ∧ t.tiles = [] ∧ t.strands = [] ∧ t.l2 = [] ∧ t.msgs = [] ∧ t.cores = [] ∧
    t.record = s.record ∧ t.config = s.config ∧ t.startNo = s.startNo ∧ t.fuseSpare = s.fuseSpare ∧ t.sptbase = 0 ∧ t.absent = []

/-- R20, R208, R427, R428, R430, R431, R436: a refresh of TALLOW writes ALLOW, at most 1,680, and TEMP, the fourth in a row with no power left lowers the clock by
100 MHz while that leaves 800 MHz (a floor that is the model's choice, log 49), the sixteenth with 42 W to spare raises it; from 95 °C and 105 °C the clock is limited, at 115 °C, of a layer or of the sole die, power is removed and the controller's own memory keeps the sensor and its temperature, and an inlet above 40 °C is logged; a requested
point within 800–2,200 MHz is taken; refresh is fast above 85 °C and slow below 80 °C; a bank with
4,096 corrected errors, or with two uncorrectable granules, leaves LIVE when it is retired; a tile taken out of service is marked so. -/
def Obligations.HeatAndFailures : Prop :=
  (∀ (s : State) (z : Fin 16) (allow : BitVec 16) (temp : Byte),
    let y := s.layer z.val
    ∃ t, Completes (.tallowRefresh z allow temp) s t ∧ SameStrands s t ∧ (t.layer z.val).allow.toNat = min allow.toNat 1680 ∧ (t.layer z.val).temp = temp ∧
      (allow = 0 → y.zeros = 3 → y.lowered + 900 ≤ y.req.toNat → (t.layer z.val).lowered = y.lowered + 100) ∧
      (168 ≤ allow.toNat → y.highs = 15 → (t.layer z.val).lowered = y.lowered - 100) ∧
      (allow ≠ 0 → allow.toNat < 168 → (t.layer z.val).lowered = y.lowered)) ∧
  (∀ (s : State) (temp : Byte),
    (115 ≤ temp.toNat → Completes (.thermalThreshold (.sole temp)) s ({ s with therm := s.therm ++ [(16, temp.toNat)] } : State).unpowered) ∧
    (temp.toNat < 115 → Completes (.thermalThreshold (.sole temp)) s s)) ∧
  (∀ (s : State) (temp : Byte),
    (40 < temp.toNat → ∃ l, Completes (.thermalThreshold (.inlet temp)) s (s.logEntry 9 0x7FF l)) ∧
    (temp.toNat ≤ 40 → Completes (.thermalThreshold (.inlet temp)) s s)) ∧
  (∀ (s : State) (z : Fin 16),
    let y := s.layer z.val
    (115 ≤ y.temp.toNat → Completes (.thermalThreshold (.layer z)) s ({ s with therm := s.therm ++ [(z.val, y.temp.toNat)] } : State).unpowered) ∧
    (y.temp.toNat < 115 → ∃ t, Completes (.thermalThreshold (.layer z)) s t ∧ SameStrands s t ∧ (105 ≤ y.temp.toNat → (t.layer z.val).clk = 800) ∧
      (95 ≤ y.temp.toNat → (t.layer z.val).clk.toNat ≤ 1600) ∧ 800 ≤ (t.layer z.val).clk.toNat)) ∧
  (∀ (s : State) (z : Fin 16) (mhz : BitVec 16), 800 ≤ mhz.toNat → mhz.toNat ≤ 2200 →
    Completes (.requestedPointChange z mhz) s (s.setLayer z.val { s.layer z.val with req := mhz }.setClock) ∧
    ∀ y : Layer, y.lowered = 0 → y.lim95 = false → y.lim105 = false → ({ y with req := mhz } : Layer).setClock.clk = mhz) ∧
  (∀ (s : State) (st : Fin 12) (temp : Byte), ∃ t, Completes (.refreshRateChange st temp) s t ∧ SameStrands s t ∧ (85 < temp.toNat → (t.stack st.val).fast = true) ∧
    (temp.toNat < 80 → (t.stack st.val).fast = false) ∧
    (80 ≤ temp.toNat → temp.toNat ≤ 85 → (t.stack st.val).fast = (s.stack st.val).fast)) ∧
  (∀ (s : State) (st : Fin 12) (ch : Fin 32) (bank : Fin 36),
    let live := (s.stack st.val).live ch.val
    s.wornBank st.val ch.val bank.val = true → live.getLsbD bank.val = true → 32 < liveCount live → (∀ e ∈ s.cores, e.1 / 16 = st.val → e.2.clamps = []) →
    ∃ t, Completes (.bankRetirement st ch bank) s t ∧ SameStrands s t ∧ (t.stack st.val).live ch.val = live &&& ~~~ (BitVec.ofNat 36 (2 ^ bank.val)) ∧
      ∀ c, c ≠ ch.val → (t.stack st.val).live c = (s.stack st.val).live c) ∧
  ∀ (s : State) (tile : BitVec 10), (s.tile tile.toNat).out = false →
    ∃ t, Completes (.tileOutOfService tile) s t ∧ (t.tile tile.toNat).out = true

/-! ### Reset and the machine's invariant -/

/-- R335, R204, R208, R321: right after reset the cube is off: no strand, message, INVL or translation stands, the L2, the tiles' L1s, TLBs,
deques and stash maps are empty, and WDOGT, DORD, the overflow and deferral bases, TALLOW, the stacks' WSAVE, the space table base
and the port map are at their stated reset values. (The clock request, the stated fuse values and every register without a stated
value are the model's choice, logs 3 and 4, and no part of this.) -/
def Obligations.ResetValues : Prop :=
  State.reset.phase = .off ∧ State.reset.strands = [] ∧ State.reset.msgs = [] ∧ State.reset.invls = [] ∧ State.reset.l2 = [] ∧ State.reset.walker = [] ∧
  State.reset.sptbase = 0 ∧ State.reset.locked = false ∧
  (∀ n, (State.reset.tile n).wdogt = 0x1000000 ∧ (State.reset.tile n).dord = 0 ∧ (State.reset.tile n).ovf = 0 ∧ (State.reset.tile n).dfr = 0 ∧
    (State.reset.tile n).tlb1 = [] ∧ (State.reset.tile n).l1 = [] ∧ (State.reset.tile n).deque = [] ∧ (State.reset.tile n).stashes = []) ∧
  (∀ z, (State.reset.layer z).allow = 1680 ∧ (State.reset.layer z).temp = 0) ∧
  (∀ n, (State.reset.stack n).wsave = 0) ∧
  ∀ p : Fin 32, State.reset.optmap[p] = 0

/-- The invariant of `StepKeepsInvariant` holds at reset. -/
def Obligations.ResetMeetsInvariant : Prop := State.Inv State.reset

/-- R293, R296: every step keeps the machine's invariant: memory, the scratchpads and the SRAMs are in their canonical form, and every welt
core, running or saved, has a PC that is a multiple of 4 and an F with reserved bits zero. -/
def Obligations.StepKeepsInvariant : Prop := ∀ s t : State, State.Inv s → step s = .next t → State.Inv t

/-! ### The matrix unit's arithmetic -/

/-- R82: an MMA leaves in each element (i, j) of qd the element's ACC plus the sum over k of Floor(AVal(i, k) × BVal(k, j) / 2^ANCHOR), every product
exact before it is truncated once and the sum exact, with the flags of NaN and infinite products and the range check on the final sum; qadd applies
the same final steps to the sum of two elements and the union of their flags. -/
def Obligations.MatrixSumsAreExact : Prop :=
  (∀ (s s1 : State) (tile : BitVec 10) (o : MatOp) (f : MmaForm) (rest : List MatOp) (a : Nat),
    let n := tile.toNat
    (s.tile n).mat = o :: rest → o.form = some f → (∀ e ∈ (s.tile n).exports, e.1 ≠ o.seq) →
    s.putHandle n o.key o.kreg (doneWord 2 false o.seq 0 0) = .ok s1 →
    (∀ u ∈ [s.tile n, s1.tile n], u.boundTo o.key o.q = some a ∧ (u.acc a).bad = false ∧ ∀ g ∈ mmaGranules (mmaRow f) o.a o.b, u.granuleBad o g = false) →
    let u := (s1.tile n).asRead o
    let q := (s1.tile n).acc a
    ∃ t, Completes (.mmaComplete tile) s t ∧ ((t.tile n).acc a).anchor = q.anchor ∧ ∀ i j, i < 32 → j < 32 →
      let x (k : Nat) : Val := operandVal u o.ctab f true o.a i k
      let y (k : Nat) : Val := operandVal u o.ctab f false o.b j k
      let old := q.elem (32 * i + j)
      let raised (b : BitVec 2) : Prop := old.fl = b ∨ ∃ k < mmaLength f, productFlag (x k) (y k) = some b
      Closes (raised 3) (raised 1) (raised 2)
        (old.acc.toInt + ((List.range (mmaLength f)).map fun k => floorProduct q.anchor.toInt (x k) (y k)).foldr (· + ·) 0)
        (((t.tile n).acc a).elem (32 * i + j))) ∧
  ∀ (s : State) (d a b : QReg) (i j n : Nat), HoldsAcc s a i → HoldsAcc s b j → HoldsAcc s d n →
    (s.myTile.acc i).bad = false → (s.myTile.acc j).bad = false → (s.myTile.acc n).bad = false → (s.myTile.acc i).anchor = (s.myTile.acc j).anchor →
    ∃ t, Completes (.qadd d a b) s t ∧ (t.myTile.acc n).anchor = (s.myTile.acc i).anchor ∧ ∀ e < 1024,
      let x := (s.myTile.acc i).elem e
      let y := (s.myTile.acc j).elem e
      Closes (x.fl = 3 ∨ y.fl = 3) (x.fl = 1 ∨ y.fl = 1) (x.fl = 2 ∨ y.fl = 2) (x.acc.toInt + y.acc.toInt) ((t.myTile.acc n).elem e)

end
end

