-- ==== Sys2Proof/Laws/Memory.lean ====
section
/-!
SUPPORT. Memory in its canonical form: every memory operation keeps it, a byte just written reads back, and a write leaves
every other byte alone.
-/

namespace Sys2Proof.Machine

/-! ### Sparse tables -/

@[simp] theorem look_nil {α : Type} (k : Nat) : look k ([] : List (Nat × α)) = none := rfl

theorem look_put_same {α : Type} (k : Nat) (v : α) (l : List (Nat × α)) : look k (put k v l) = some v := by
  induction l with
  | nil => simp [put, look]
  | cons e r ih =>
    obtain ⟨j, x⟩ := e
    simp only [put]
    split
    · simp [look]
    · split
      · simp [look]
      · rename_i _ h
        have hj : ¬ j = k := fun e => h e.symm
        simp [look, hj, ih]

theorem look_put_other {α : Type} {k j : Nat} (h : j ≠ k) (v : α) (l : List (Nat × α)) : look j (put k v l) = look j l := by
  induction l with
  | nil => simp [put, look, Ne.symm h]
  | cons e r ih =>
    obtain ⟨i, x⟩ := e
    simp only [put]
    split
    · simp [look, Ne.symm h]
    · split
      · rename_i _ hk
        subst hk
        simp [look, Ne.symm h]
      · simp [look, ih]

theorem look_del_same {α : Type} (k : Nat) (l : List (Nat × α)) : look k (del k l) = none := by
  induction l with
  | nil => rfl
  | cons e r ih =>
    obtain ⟨j, x⟩ := e
    by_cases h : j = k <;> simp_all [del, look]

theorem look_del_other {α : Type} {k j : Nat} (h : j ≠ k) (l : List (Nat × α)) : look j (del k l) = look j l := by
  induction l with
  | nil => rfl
  | cons e r ih =>
    obtain ⟨i, x⟩ := e
    by_cases hk : i = k
    · subst hk
      simpa [del, look, Ne.symm h] using ih
    · simp only [del, ne_eq, hk, not_false_eq_true, decide_true, List.filter_cons_of_pos, look]
      split
      · rfl
      · simpa [del] using ih

/-! ### The canonical form -/

theorem Mem.wf_cons (a : Nat) (b : Byte) (r : List Host.Cell) :
    Mem.wf ((a, b) :: r) = true ↔ b ≠ Config.unwritten ∧ (∀ e ∈ r, a < e.1) ∧ Mem.wf r = true := by
  induction r generalizing a b with
  | nil => simp [Mem.wf]
  | cons e r ih =>
    obtain ⟨a', b'⟩ := e
    have h := ih a' b'
    simp only [Mem.wf, Bool.and_eq_true, bne_iff_ne, ne_eq, decide_eq_true_eq, h, List.mem_cons, forall_eq_or_imp]
    constructor
    · rintro ⟨⟨hb, hlt⟩, hb', hr, hw⟩
      exact ⟨hb, ⟨hlt, fun e he => Nat.lt_trans hlt (hr e he)⟩, hb', hr, hw⟩
    · rintro ⟨hb, ⟨hlt, -⟩, hb', hr, hw⟩
      exact ⟨⟨hb, hlt⟩, hb', hr, hw⟩

theorem mem_put {α : Type} {k : Nat} {v : α} {l : List (Nat × α)} {e : Nat × α} (h : e ∈ put k v l) : e = (k, v) ∨ e ∈ l := by
  induction l with
  | nil => simpa [put] using h
  | cons c r ih =>
    obtain ⟨j, x⟩ := c
    simp only [put] at h
    split at h
    · simpa using h
    · split at h
      · simp only [List.mem_cons] at h ⊢
        exact h.imp_right .inr
      · simp only [List.mem_cons] at h ⊢
        rcases h with h | h
        · exact .inr (.inl h)
        · exact (ih h).imp_right .inr

theorem Mem.put_wf {m : List Host.Cell} {b : Byte} (a : Nat) (hb : b ≠ Config.unwritten) (h : Mem.wf m = true) : Mem.wf (put a b m) = true := by
  induction m with
  | nil => simpa [put, Mem.wf] using hb
  | cons c r ih =>
    obtain ⟨j, x⟩ := c
    obtain ⟨hx, hr, hw⟩ := (Mem.wf_cons j x r).1 h
    simp only [put]
    split
    · rename_i hlt
      refine (Mem.wf_cons _ _ _).2 ⟨hb, ?_, h⟩
      intro e he
      rcases List.mem_cons.1 he with rfl | he
      · exact hlt
      · exact Nat.lt_trans hlt (hr e he)
    · split
      · rename_i heq
        subst heq
        exact (Mem.wf_cons _ _ _).2 ⟨hb, hr, hw⟩
      · refine (Mem.wf_cons _ _ _).2 ⟨hx, ?_, ih hw⟩
        intro e he
        rcases mem_put he with rfl | he
        · show j < a
          omega
        · exact hr e he

theorem Mem.del_wf {m : List Host.Cell} (a : Nat) (h : Mem.wf m = true) : Mem.wf (del a m) = true := by
  induction m with
  | nil => rfl
  | cons c r ih =>
    obtain ⟨j, x⟩ := c
    obtain ⟨hx, hr, hw⟩ := (Mem.wf_cons j x r).1 h
    by_cases hj : j = a
    · simpa [del, hj] using ih hw
    · simp only [del, ne_eq, hj, not_false_eq_true, decide_true, List.filter_cons_of_pos]
      exact (Mem.wf_cons _ _ _).2 ⟨hx, fun e he => hr e ((List.mem_filter.1 he).1), ih hw⟩

/-- A write of one byte keeps the canonical form. -/
theorem Mem.write_wf {m : List Host.Cell} (a : Nat) (b : Byte) (h : Mem.wf m = true) : Mem.wf (Mem.write m a b) = true := by
  unfold Mem.write
  split
  · exact Mem.del_wf a h
  · rename_i hb
    exact Mem.put_wf a hb h

/-- A write of n bytes keeps the canonical form. -/
theorem Mem.writeN_wf {m : List Host.Cell} (a n x : Nat) (h : Mem.wf m = true) : Mem.wf (Mem.writeN m a n x) = true := by
  induction n generalizing m a x with
  | zero => exact h
  | succ n ih => exact ih _ _ (Mem.write_wf _ _ h)

/-- A masked write keeps the canonical form. -/
theorem Mem.writeMasked_wf {m : List Host.Cell} (a mask n x : Nat) (h : Mem.wf m = true) : Mem.wf (Mem.writeMasked m a mask n x) = true := by
  induction n generalizing m a mask x with
  | zero => exact h
  | succ n ih =>
    refine ih _ _ _ ?_
    split
    · exact Mem.write_wf _ _ h
    · exact h

/-! ### Read after write -/

theorem Mem.read_write_same (m : List Host.Cell) (a : Nat) (b : Byte) : Mem.read (Mem.write m a b) a = b := by
  unfold Mem.read Mem.write
  split
  · rename_i h
    rw [look_del_same, h]
    rfl
  · rw [look_put_same]
    rfl

theorem Mem.read_write_other {m : List Host.Cell} {a c : Nat} (h : c ≠ a) (b : Byte) : Mem.read (Mem.write m a b) c = Mem.read m c := by
  unfold Mem.read Mem.write
  split
  · rw [look_del_other h]
  · rw [look_put_other h]

/-- A write of n bytes leaves every byte outside it alone. -/
theorem Mem.read_writeN_other {m : List Host.Cell} {a c n : Nat} (h : c < a ∨ a + n ≤ c) (x : Nat) :
    Mem.read (Mem.writeN m a n x) c = Mem.read m c := by
  induction n generalizing m a x with
  | zero => rfl
  | succ n ih =>
    show Mem.read (Mem.writeN (Mem.write m a _) (a + 1) n _) c = _
    rw [ih (by omega), Mem.read_write_other (by omega)]

/-! ### Levels above memory -/

theorem State.homeClean_mem_wf {s : State} (line : Nat) (keep : Bool) (h : Mem.wf s.mem = true) : Mem.wf (s.homeClean line keep).mem = true := by
  unfold State.homeClean
  split
  · exact h
  · exact Mem.writeMasked_wf _ _ _ _ h

theorem Tile.scrWrite_wf {t : Tile} (off n v : Nat) (h : Mem.wf t.scratch = true) : Mem.wf (t.scrWrite off n v).scratch = true :=
  Mem.writeN_wf off n v h

end Sys2Proof.Machine
end

