-- ==== Sys2Proof/Laws/State.lean ====
section
/-!
SUPPORT. One lemma per field per update: what the register writes and the writes of a tile or a core leave as it was.
-/

namespace Sys2Proof.Machine

/-! ### A strand's register writes -/

@[simp] theorem Strand.setG_key (t : Strand) (r : GReg) (x : Word) : (t.setG r x).key = t.key := by unfold Strand.setG; split <;> rfl
@[simp] theorem Strand.setG_tile (t : Strand) (r : GReg) (x : Word) : (t.setG r x).tile = t.tile := by unfold Strand.setG; split <;> rfl
@[simp] theorem Strand.setG_pc (t : Strand) (r : GReg) (x : Word) : (t.setG r x).pc = t.pc := by unfold Strand.setG; split <;> rfl
@[simp] theorem Strand.setG_qheld (t : Strand) (r : GReg) (x : Word) : (t.setG r x).qheld = t.qheld := by unfold Strand.setG; split <;> rfl
@[simp] theorem Strand.setG_supv (t : Strand) (r : GReg) (x : Word) : (t.setG r x).supv = t.supv := by unfold Strand.setG; split <;> rfl
@[simp] theorem Strand.setG_intrap (t : Strand) (r : GReg) (x : Word) : (t.setG r x).intrap = t.intrap := by unfold Strand.setG; split <;> rfl
@[simp] theorem Strand.setG_state (t : Strand) (r : GReg) (x : Word) : (t.setG r x).state = t.state := by unfold Strand.setG; split <;> rfl
@[simp] theorem Strand.setG_vtag (t : Strand) (r : GReg) (x : Word) : (t.setG r x).vtag = t.vtag := by unfold Strand.setG; split <;> rfl
@[simp] theorem Strand.setG_ctab (t : Strand) (r : GReg) (x : Word) : (t.setG r x).ctab = t.ctab := by unfold Strand.setG; split <;> rfl
@[simp] theorem Strand.setG_cgrp (t : Strand) (r : GReg) (x : Word) : (t.setG r x).cgrp = t.cgrp := by unfold Strand.setG; split <;> rfl
@[simp] theorem Strand.setG_prio (t : Strand) (r : GReg) (x : Word) : (t.setG r x).prio = t.prio := by unfold Strand.setG; split <;> rfl
@[simp] theorem Strand.setG_lfsr (t : Strand) (r : GReg) (x : Word) : (t.setG r x).lfsr = t.lfsr := by unfold Strand.setG; split <;> rfl
@[simp] theorem Strand.setG_reason (t : Strand) (r : GReg) (x : Word) : (t.setG r x).reason = t.reason := by unfold Strand.setG; split <;> rfl
@[simp] theorem Strand.setG_pend (t : Strand) (r : GReg) (x : Word) : (t.setG r x).pend = t.pend := by unfold Strand.setG; split <;> rfl
@[simp] theorem Strand.setG_frptr (t : Strand) (r : GReg) (x : Word) : (t.setG r x).frptr = t.frptr := by unfold Strand.setG; split <;> rfl
@[simp] theorem Strand.setG_dom (t : Strand) (r : GReg) (x : Word) : (t.setG r x).dom = t.dom := by unfold Strand.setG; split <;> rfl
@[simp] theorem Strand.setG_trappc (t : Strand) (r : GReg) (x : Word) : (t.setG r x).trappc = t.trappc := by unfold Strand.setG; split <;> rfl
@[simp] theorem Strand.setG_taddr (t : Strand) (r : GReg) (x : Word) : (t.setG r x).taddr = t.taddr := by unfold Strand.setG; split <;> rfl
@[simp] theorem Strand.setG_tinfo (t : Strand) (r : GReg) (x : Word) : (t.setG r x).tinfo = t.tinfo := by unfold Strand.setG; split <;> rfl
@[simp] theorem Strand.setG_tcause (t : Strand) (r : GReg) (x : Word) : (t.setG r x).tcause = t.tcause := by unfold Strand.setG; split <;> rfl
@[simp] theorem Strand.setG_tvec (t : Strand) (r : GReg) (x : Word) : (t.setG r x).tvec = t.tvec := by unfold Strand.setG; split <;> rfl
@[simp] theorem Strand.setG_home (t : Strand) (r : GReg) (x : Word) : (t.setG r x).home = t.home := by unfold Strand.setG; split <;> rfl
@[simp] theorem Strand.setG_m (t : Strand) (r : GReg) (x : Word) : (t.setG r x).m = t.m := by unfold Strand.setG; split <;> rfl
@[simp] theorem Strand.setG_k (t : Strand) (r : GReg) (x : Word) : (t.setG r x).k = t.k := by unfold Strand.setG; split <;> rfl
@[simp] theorem Strand.setG_xw (t : Strand) (r : GReg) (x : Word) : (t.setG r x).xw = t.xw := by unfold Strand.setG; split <;> rfl
@[simp] theorem Strand.setG_v (t : Strand) (r : GReg) (x : Word) : (t.setG r x).v = t.v := by unfold Strand.setG; split <;> rfl
@[simp] theorem Strand.setG_save (t : Strand) (r : GReg) (x : Word) : (t.setG r x).save = t.save := by unfold Strand.setG; split <;> rfl
@[simp] theorem Strand.setG_pword (t : Strand) (r : GReg) (x : Word) : (t.setG r x).pword = t.pword := by unfold Strand.setG; split <;> rfl
@[simp] theorem Strand.setG_pkst (t : Strand) (r : GReg) (x : Word) : (t.setG r x).pkst = t.pkst := by unfold Strand.setG; split <;> rfl
@[simp] theorem Strand.setG_seq0 (t : Strand) (r : GReg) (x : Word) : (t.setG r x).seq0 = t.seq0 := by unfold Strand.setG; split <;> rfl
@[simp] theorem Strand.setG_seq1 (t : Strand) (r : GReg) (x : Word) : (t.setG r x).seq1 = t.seq1 := by unfold Strand.setG; split <;> rfl
@[simp] theorem Strand.setG_present (t : Strand) (r : GReg) (x : Word) : (t.setG r x).present = t.present := by unfold Strand.setG; split <;> rfl
@[simp] theorem Strand.setG_retained (t : Strand) (r : GReg) (x : Word) : (t.setG r x).retained = t.retained := by unfold Strand.setG; split <;> rfl
@[simp] theorem Strand.setG_fresh (t : Strand) (r : GReg) (x : Word) : (t.setG r x).fresh = t.fresh := by unfold Strand.setG; split <;> rfl
@[simp] theorem Strand.setG_made (t : Strand) (r : GReg) (x : Word) : (t.setG r x).made = t.made := by unfold Strand.setG; split <;> rfl
@[simp] theorem Strand.setG_pool (t : Strand) (r : GReg) (x : Word) : (t.setG r x).pool = t.pool := by unfold Strand.setG; split <;> rfl
@[simp] theorem Strand.setG_npc (t : Strand) (r : GReg) (x : Word) : (t.setG r x).npc = t.npc := by unfold Strand.setG; split <;> rfl
@[simp] theorem Strand.setG_slot (t : Strand) (r : GReg) (x : Word) : (t.setG r x).slot = t.slot := by unfold Strand.setG; split <;> rfl
@[simp] theorem Strand.setG_errs (t : Strand) (r : GReg) (x : Word) : (t.setG r x).errs = t.errs := by unfold Strand.setG; split <;> rfl
@[simp] theorem Strand.setG_wait (t : Strand) (r : GReg) (x : Word) : (t.setG r x).wait = t.wait := by unfold Strand.setG; split <;> rfl
@[simp] theorem Strand.setG_blocked (t : Strand) (r : GReg) (x : Word) : (t.setG r x).blocked = t.blocked := by unfold Strand.setG; split <;> rfl
@[simp] theorem Strand.setG_noticed (t : Strand) (r : GReg) (x : Word) : (t.setG r x).noticed = t.noticed := by unfold Strand.setG; split <;> rfl
@[simp] theorem Strand.setG_slotCycles (t : Strand) (r : GReg) (x : Word) : (t.setG r x).slotCycles = t.slotCycles := by unfold Strand.setG; split <;> rfl
@[simp] theorem Strand.setG_pktCycles (t : Strand) (r : GReg) (x : Word) : (t.setG r x).pktCycles = t.pktCycles := by unfold Strand.setG; split <;> rfl
@[simp] theorem Strand.setG_arrival (t : Strand) (r : GReg) (x : Word) : (t.setG r x).arrival = t.arrival := by unfold Strand.setG; split <;> rfl
@[simp] theorem Strand.setG_ans (t : Strand) (r : GReg) (x : Word) : (t.setG r x).ans = t.ans := by unfold Strand.setG; split <;> rfl
@[simp] theorem Strand.setG_parts (t : Strand) (r : GReg) (x : Word) : (t.setG r x).parts = t.parts := by unfold Strand.setG; split <;> rfl
@[simp] theorem Strand.setG_did (t : Strand) (r : GReg) (x : Word) : (t.setG r x).did = t.did := by unfold Strand.setG; split <;> rfl
@[simp] theorem Strand.setG_begun (t : Strand) (r : GReg) (x : Word) : (t.setG r x).begun = t.begun := by unfold Strand.setG; split <;> rfl
@[simp] theorem Strand.setG_pieces (t : Strand) (r : GReg) (x : Word) : (t.setG r x).pieces = t.pieces := by unfold Strand.setG; split <;> rfl
@[simp] theorem Strand.setG_inSecond (t : Strand) (r : GReg) (x : Word) : (t.setG r x).inSecond = t.inSecond := by unfold Strand.setG; split <;> rfl
@[simp] theorem Strand.setG_spawning (t : Strand) (r : GReg) (x : Word) : (t.setG r x).spawning = t.spawning := by unfold Strand.setG; split <;> rfl
@[simp] theorem Strand.setG_redn (t : Strand) (r : GReg) (x : Word) : (t.setG r x).redn = t.redn := by unfold Strand.setG; split <;> rfl
@[simp] theorem Strand.setG_lost0 (t : Strand) (r : GReg) (x : Word) : (t.setG r x).lost0 = t.lost0 := by unfold Strand.setG; split <;> rfl
@[simp] theorem Strand.setG_deliver (t : Strand) (r : GReg) (x : Word) : (t.setG r x).deliver = t.deliver := by unfold Strand.setG; split <;> rfl
@[simp] theorem Strand.setG_killed (t : Strand) (r : GReg) (x : Word) : (t.setG r x).killed = t.killed := by unfold Strand.setG; split <;> rfl
@[simp] theorem Strand.setG_leaving (t : Strand) (r : GReg) (x : Word) : (t.setG r x).leaving = t.leaving := by unfold Strand.setG; split <;> rfl
@[simp] theorem Strand.setG_tokens (t : Strand) (r : GReg) (x : Word) : (t.setG r x).tokens = t.tokens := by unfold Strand.setG; split <;> rfl
@[simp] theorem Strand.setM_key (t : Strand) (r : MReg) (x : MaskV) : (t.setM r x).key = t.key := by unfold Strand.setM; split <;> rfl
@[simp] theorem Strand.setM_tile (t : Strand) (r : MReg) (x : MaskV) : (t.setM r x).tile = t.tile := by unfold Strand.setM; split <;> rfl
@[simp] theorem Strand.setM_pc (t : Strand) (r : MReg) (x : MaskV) : (t.setM r x).pc = t.pc := by unfold Strand.setM; split <;> rfl
@[simp] theorem Strand.setM_qheld (t : Strand) (r : MReg) (x : MaskV) : (t.setM r x).qheld = t.qheld := by unfold Strand.setM; split <;> rfl
@[simp] theorem Strand.setM_supv (t : Strand) (r : MReg) (x : MaskV) : (t.setM r x).supv = t.supv := by unfold Strand.setM; split <;> rfl
@[simp] theorem Strand.setM_intrap (t : Strand) (r : MReg) (x : MaskV) : (t.setM r x).intrap = t.intrap := by unfold Strand.setM; split <;> rfl
@[simp] theorem Strand.setM_state (t : Strand) (r : MReg) (x : MaskV) : (t.setM r x).state = t.state := by unfold Strand.setM; split <;> rfl
@[simp] theorem Strand.setM_vtag (t : Strand) (r : MReg) (x : MaskV) : (t.setM r x).vtag = t.vtag := by unfold Strand.setM; split <;> rfl
@[simp] theorem Strand.setM_ctab (t : Strand) (r : MReg) (x : MaskV) : (t.setM r x).ctab = t.ctab := by unfold Strand.setM; split <;> rfl
@[simp] theorem Strand.setM_cgrp (t : Strand) (r : MReg) (x : MaskV) : (t.setM r x).cgrp = t.cgrp := by unfold Strand.setM; split <;> rfl
@[simp] theorem Strand.setM_prio (t : Strand) (r : MReg) (x : MaskV) : (t.setM r x).prio = t.prio := by unfold Strand.setM; split <;> rfl
@[simp] theorem Strand.setM_lfsr (t : Strand) (r : MReg) (x : MaskV) : (t.setM r x).lfsr = t.lfsr := by unfold Strand.setM; split <;> rfl
@[simp] theorem Strand.setM_reason (t : Strand) (r : MReg) (x : MaskV) : (t.setM r x).reason = t.reason := by unfold Strand.setM; split <;> rfl
@[simp] theorem Strand.setM_pend (t : Strand) (r : MReg) (x : MaskV) : (t.setM r x).pend = t.pend := by unfold Strand.setM; split <;> rfl
@[simp] theorem Strand.setM_frptr (t : Strand) (r : MReg) (x : MaskV) : (t.setM r x).frptr = t.frptr := by unfold Strand.setM; split <;> rfl
@[simp] theorem Strand.setM_dom (t : Strand) (r : MReg) (x : MaskV) : (t.setM r x).dom = t.dom := by unfold Strand.setM; split <;> rfl
@[simp] theorem Strand.setM_trappc (t : Strand) (r : MReg) (x : MaskV) : (t.setM r x).trappc = t.trappc := by unfold Strand.setM; split <;> rfl
@[simp] theorem Strand.setM_taddr (t : Strand) (r : MReg) (x : MaskV) : (t.setM r x).taddr = t.taddr := by unfold Strand.setM; split <;> rfl
@[simp] theorem Strand.setM_tinfo (t : Strand) (r : MReg) (x : MaskV) : (t.setM r x).tinfo = t.tinfo := by unfold Strand.setM; split <;> rfl
@[simp] theorem Strand.setM_tcause (t : Strand) (r : MReg) (x : MaskV) : (t.setM r x).tcause = t.tcause := by unfold Strand.setM; split <;> rfl
@[simp] theorem Strand.setM_tvec (t : Strand) (r : MReg) (x : MaskV) : (t.setM r x).tvec = t.tvec := by unfold Strand.setM; split <;> rfl
@[simp] theorem Strand.setM_home (t : Strand) (r : MReg) (x : MaskV) : (t.setM r x).home = t.home := by unfold Strand.setM; split <;> rfl
@[simp] theorem Strand.setM_g (t : Strand) (r : MReg) (x : MaskV) : (t.setM r x).g = t.g := by unfold Strand.setM; split <;> rfl
@[simp] theorem Strand.setM_k (t : Strand) (r : MReg) (x : MaskV) : (t.setM r x).k = t.k := by unfold Strand.setM; split <;> rfl
@[simp] theorem Strand.setM_xw (t : Strand) (r : MReg) (x : MaskV) : (t.setM r x).xw = t.xw := by unfold Strand.setM; split <;> rfl
@[simp] theorem Strand.setM_v (t : Strand) (r : MReg) (x : MaskV) : (t.setM r x).v = t.v := by unfold Strand.setM; split <;> rfl
@[simp] theorem Strand.setM_save (t : Strand) (r : MReg) (x : MaskV) : (t.setM r x).save = t.save := by unfold Strand.setM; split <;> rfl
@[simp] theorem Strand.setM_pword (t : Strand) (r : MReg) (x : MaskV) : (t.setM r x).pword = t.pword := by unfold Strand.setM; split <;> rfl
@[simp] theorem Strand.setM_pkst (t : Strand) (r : MReg) (x : MaskV) : (t.setM r x).pkst = t.pkst := by unfold Strand.setM; split <;> rfl
@[simp] theorem Strand.setM_seq0 (t : Strand) (r : MReg) (x : MaskV) : (t.setM r x).seq0 = t.seq0 := by unfold Strand.setM; split <;> rfl
@[simp] theorem Strand.setM_seq1 (t : Strand) (r : MReg) (x : MaskV) : (t.setM r x).seq1 = t.seq1 := by unfold Strand.setM; split <;> rfl
@[simp] theorem Strand.setM_present (t : Strand) (r : MReg) (x : MaskV) : (t.setM r x).present = t.present := by unfold Strand.setM; split <;> rfl
@[simp] theorem Strand.setM_retained (t : Strand) (r : MReg) (x : MaskV) : (t.setM r x).retained = t.retained := by unfold Strand.setM; split <;> rfl
@[simp] theorem Strand.setM_fresh (t : Strand) (r : MReg) (x : MaskV) : (t.setM r x).fresh = t.fresh := by unfold Strand.setM; split <;> rfl
@[simp] theorem Strand.setM_made (t : Strand) (r : MReg) (x : MaskV) : (t.setM r x).made = t.made := by unfold Strand.setM; split <;> rfl
@[simp] theorem Strand.setM_pool (t : Strand) (r : MReg) (x : MaskV) : (t.setM r x).pool = t.pool := by unfold Strand.setM; split <;> rfl
@[simp] theorem Strand.setM_npc (t : Strand) (r : MReg) (x : MaskV) : (t.setM r x).npc = t.npc := by unfold Strand.setM; split <;> rfl
@[simp] theorem Strand.setM_slot (t : Strand) (r : MReg) (x : MaskV) : (t.setM r x).slot = t.slot := by unfold Strand.setM; split <;> rfl
@[simp] theorem Strand.setM_held (t : Strand) (r : MReg) (x : MaskV) : (t.setM r x).held = t.held := by unfold Strand.setM; split <;> rfl
@[simp] theorem Strand.setM_late (t : Strand) (r : MReg) (x : MaskV) : (t.setM r x).late = t.late := by unfold Strand.setM; split <;> rfl
@[simp] theorem Strand.setM_errs (t : Strand) (r : MReg) (x : MaskV) : (t.setM r x).errs = t.errs := by unfold Strand.setM; split <;> rfl
@[simp] theorem Strand.setM_wait (t : Strand) (r : MReg) (x : MaskV) : (t.setM r x).wait = t.wait := by unfold Strand.setM; split <;> rfl
@[simp] theorem Strand.setM_blocked (t : Strand) (r : MReg) (x : MaskV) : (t.setM r x).blocked = t.blocked := by unfold Strand.setM; split <;> rfl
@[simp] theorem Strand.setM_noticed (t : Strand) (r : MReg) (x : MaskV) : (t.setM r x).noticed = t.noticed := by unfold Strand.setM; split <;> rfl
@[simp] theorem Strand.setM_slotCycles (t : Strand) (r : MReg) (x : MaskV) : (t.setM r x).slotCycles = t.slotCycles := by unfold Strand.setM; split <;> rfl
@[simp] theorem Strand.setM_pktCycles (t : Strand) (r : MReg) (x : MaskV) : (t.setM r x).pktCycles = t.pktCycles := by unfold Strand.setM; split <;> rfl
@[simp] theorem Strand.setM_arrival (t : Strand) (r : MReg) (x : MaskV) : (t.setM r x).arrival = t.arrival := by unfold Strand.setM; split <;> rfl
@[simp] theorem Strand.setM_ans (t : Strand) (r : MReg) (x : MaskV) : (t.setM r x).ans = t.ans := by unfold Strand.setM; split <;> rfl
@[simp] theorem Strand.setM_parts (t : Strand) (r : MReg) (x : MaskV) : (t.setM r x).parts = t.parts := by unfold Strand.setM; split <;> rfl
@[simp] theorem Strand.setM_did (t : Strand) (r : MReg) (x : MaskV) : (t.setM r x).did = t.did := by unfold Strand.setM; split <;> rfl
@[simp] theorem Strand.setM_begun (t : Strand) (r : MReg) (x : MaskV) : (t.setM r x).begun = t.begun := by unfold Strand.setM; split <;> rfl
@[simp] theorem Strand.setM_pieces (t : Strand) (r : MReg) (x : MaskV) : (t.setM r x).pieces = t.pieces := by unfold Strand.setM; split <;> rfl
@[simp] theorem Strand.setM_inSecond (t : Strand) (r : MReg) (x : MaskV) : (t.setM r x).inSecond = t.inSecond := by unfold Strand.setM; split <;> rfl
@[simp] theorem Strand.setM_spawning (t : Strand) (r : MReg) (x : MaskV) : (t.setM r x).spawning = t.spawning := by unfold Strand.setM; split <;> rfl
@[simp] theorem Strand.setM_redn (t : Strand) (r : MReg) (x : MaskV) : (t.setM r x).redn = t.redn := by unfold Strand.setM; split <;> rfl
@[simp] theorem Strand.setM_lost0 (t : Strand) (r : MReg) (x : MaskV) : (t.setM r x).lost0 = t.lost0 := by unfold Strand.setM; split <;> rfl
@[simp] theorem Strand.setM_deliver (t : Strand) (r : MReg) (x : MaskV) : (t.setM r x).deliver = t.deliver := by unfold Strand.setM; split <;> rfl
@[simp] theorem Strand.setM_killed (t : Strand) (r : MReg) (x : MaskV) : (t.setM r x).killed = t.killed := by unfold Strand.setM; split <;> rfl
@[simp] theorem Strand.setM_leaving (t : Strand) (r : MReg) (x : MaskV) : (t.setM r x).leaving = t.leaving := by unfold Strand.setM; split <;> rfl
@[simp] theorem Strand.setM_tokens (t : Strand) (r : MReg) (x : MaskV) : (t.setM r x).tokens = t.tokens := by unfold Strand.setM; split <;> rfl
@[simp] theorem Strand.setV_key (t : Strand) (r : VReg) (x : Line) (tag : Tag) : (t.setV r x tag).key = t.key := rfl
@[simp] theorem Strand.setV_tile (t : Strand) (r : VReg) (x : Line) (tag : Tag) : (t.setV r x tag).tile = t.tile := rfl
@[simp] theorem Strand.setV_pc (t : Strand) (r : VReg) (x : Line) (tag : Tag) : (t.setV r x tag).pc = t.pc := rfl
@[simp] theorem Strand.setV_qheld (t : Strand) (r : VReg) (x : Line) (tag : Tag) : (t.setV r x tag).qheld = t.qheld := rfl
@[simp] theorem Strand.setV_supv (t : Strand) (r : VReg) (x : Line) (tag : Tag) : (t.setV r x tag).supv = t.supv := rfl
@[simp] theorem Strand.setV_intrap (t : Strand) (r : VReg) (x : Line) (tag : Tag) : (t.setV r x tag).intrap = t.intrap := rfl
@[simp] theorem Strand.setV_state (t : Strand) (r : VReg) (x : Line) (tag : Tag) : (t.setV r x tag).state = t.state := rfl
@[simp] theorem Strand.setV_ctab (t : Strand) (r : VReg) (x : Line) (tag : Tag) : (t.setV r x tag).ctab = t.ctab := rfl
@[simp] theorem Strand.setV_cgrp (t : Strand) (r : VReg) (x : Line) (tag : Tag) : (t.setV r x tag).cgrp = t.cgrp := rfl
@[simp] theorem Strand.setV_prio (t : Strand) (r : VReg) (x : Line) (tag : Tag) : (t.setV r x tag).prio = t.prio := rfl
@[simp] theorem Strand.setV_lfsr (t : Strand) (r : VReg) (x : Line) (tag : Tag) : (t.setV r x tag).lfsr = t.lfsr := rfl
@[simp] theorem Strand.setV_reason (t : Strand) (r : VReg) (x : Line) (tag : Tag) : (t.setV r x tag).reason = t.reason := rfl
@[simp] theorem Strand.setV_pend (t : Strand) (r : VReg) (x : Line) (tag : Tag) : (t.setV r x tag).pend = t.pend := rfl
@[simp] theorem Strand.setV_frptr (t : Strand) (r : VReg) (x : Line) (tag : Tag) : (t.setV r x tag).frptr = t.frptr := rfl
@[simp] theorem Strand.setV_dom (t : Strand) (r : VReg) (x : Line) (tag : Tag) : (t.setV r x tag).dom = t.dom := rfl
@[simp] theorem Strand.setV_trappc (t : Strand) (r : VReg) (x : Line) (tag : Tag) : (t.setV r x tag).trappc = t.trappc := rfl
@[simp] theorem Strand.setV_taddr (t : Strand) (r : VReg) (x : Line) (tag : Tag) : (t.setV r x tag).taddr = t.taddr := rfl
@[simp] theorem Strand.setV_tinfo (t : Strand) (r : VReg) (x : Line) (tag : Tag) : (t.setV r x tag).tinfo = t.tinfo := rfl
@[simp] theorem Strand.setV_tcause (t : Strand) (r : VReg) (x : Line) (tag : Tag) : (t.setV r x tag).tcause = t.tcause := rfl
@[simp] theorem Strand.setV_tvec (t : Strand) (r : VReg) (x : Line) (tag : Tag) : (t.setV r x tag).tvec = t.tvec := rfl
@[simp] theorem Strand.setV_home (t : Strand) (r : VReg) (x : Line) (tag : Tag) : (t.setV r x tag).home = t.home := rfl
@[simp] theorem Strand.setV_g (t : Strand) (r : VReg) (x : Line) (tag : Tag) : (t.setV r x tag).g = t.g := rfl
@[simp] theorem Strand.setV_m (t : Strand) (r : VReg) (x : Line) (tag : Tag) : (t.setV r x tag).m = t.m := rfl
@[simp] theorem Strand.setV_k (t : Strand) (r : VReg) (x : Line) (tag : Tag) : (t.setV r x tag).k = t.k := rfl
@[simp] theorem Strand.setV_xw (t : Strand) (r : VReg) (x : Line) (tag : Tag) : (t.setV r x tag).xw = t.xw := rfl
@[simp] theorem Strand.setV_save (t : Strand) (r : VReg) (x : Line) (tag : Tag) : (t.setV r x tag).save = t.save := rfl
@[simp] theorem Strand.setV_pword (t : Strand) (r : VReg) (x : Line) (tag : Tag) : (t.setV r x tag).pword = t.pword := rfl
@[simp] theorem Strand.setV_pkst (t : Strand) (r : VReg) (x : Line) (tag : Tag) : (t.setV r x tag).pkst = t.pkst := rfl
@[simp] theorem Strand.setV_seq0 (t : Strand) (r : VReg) (x : Line) (tag : Tag) : (t.setV r x tag).seq0 = t.seq0 := rfl
@[simp] theorem Strand.setV_seq1 (t : Strand) (r : VReg) (x : Line) (tag : Tag) : (t.setV r x tag).seq1 = t.seq1 := rfl
@[simp] theorem Strand.setV_present (t : Strand) (r : VReg) (x : Line) (tag : Tag) : (t.setV r x tag).present = t.present := rfl
@[simp] theorem Strand.setV_retained (t : Strand) (r : VReg) (x : Line) (tag : Tag) : (t.setV r x tag).retained = t.retained := rfl
@[simp] theorem Strand.setV_fresh (t : Strand) (r : VReg) (x : Line) (tag : Tag) : (t.setV r x tag).fresh = t.fresh := rfl
@[simp] theorem Strand.setV_made (t : Strand) (r : VReg) (x : Line) (tag : Tag) : (t.setV r x tag).made = t.made := rfl
@[simp] theorem Strand.setV_pool (t : Strand) (r : VReg) (x : Line) (tag : Tag) : (t.setV r x tag).pool = t.pool := rfl
@[simp] theorem Strand.setV_npc (t : Strand) (r : VReg) (x : Line) (tag : Tag) : (t.setV r x tag).npc = t.npc := rfl
@[simp] theorem Strand.setV_slot (t : Strand) (r : VReg) (x : Line) (tag : Tag) : (t.setV r x tag).slot = t.slot := rfl
@[simp] theorem Strand.setV_errs (t : Strand) (r : VReg) (x : Line) (tag : Tag) : (t.setV r x tag).errs = t.errs := rfl
@[simp] theorem Strand.setV_wait (t : Strand) (r : VReg) (x : Line) (tag : Tag) : (t.setV r x tag).wait = t.wait := rfl
@[simp] theorem Strand.setV_blocked (t : Strand) (r : VReg) (x : Line) (tag : Tag) : (t.setV r x tag).blocked = t.blocked := rfl
@[simp] theorem Strand.setV_noticed (t : Strand) (r : VReg) (x : Line) (tag : Tag) : (t.setV r x tag).noticed = t.noticed := rfl
@[simp] theorem Strand.setV_slotCycles (t : Strand) (r : VReg) (x : Line) (tag : Tag) : (t.setV r x tag).slotCycles = t.slotCycles := rfl
@[simp] theorem Strand.setV_pktCycles (t : Strand) (r : VReg) (x : Line) (tag : Tag) : (t.setV r x tag).pktCycles = t.pktCycles := rfl
@[simp] theorem Strand.setV_arrival (t : Strand) (r : VReg) (x : Line) (tag : Tag) : (t.setV r x tag).arrival = t.arrival := rfl
@[simp] theorem Strand.setV_ans (t : Strand) (r : VReg) (x : Line) (tag : Tag) : (t.setV r x tag).ans = t.ans := rfl
@[simp] theorem Strand.setV_parts (t : Strand) (r : VReg) (x : Line) (tag : Tag) : (t.setV r x tag).parts = t.parts := rfl
@[simp] theorem Strand.setV_did (t : Strand) (r : VReg) (x : Line) (tag : Tag) : (t.setV r x tag).did = t.did := rfl
@[simp] theorem Strand.setV_begun (t : Strand) (r : VReg) (x : Line) (tag : Tag) : (t.setV r x tag).begun = t.begun := rfl
@[simp] theorem Strand.setV_pieces (t : Strand) (r : VReg) (x : Line) (tag : Tag) : (t.setV r x tag).pieces = t.pieces := rfl
@[simp] theorem Strand.setV_inSecond (t : Strand) (r : VReg) (x : Line) (tag : Tag) : (t.setV r x tag).inSecond = t.inSecond := rfl
@[simp] theorem Strand.setV_spawning (t : Strand) (r : VReg) (x : Line) (tag : Tag) : (t.setV r x tag).spawning = t.spawning := rfl
@[simp] theorem Strand.setV_redn (t : Strand) (r : VReg) (x : Line) (tag : Tag) : (t.setV r x tag).redn = t.redn := rfl
@[simp] theorem Strand.setV_lost0 (t : Strand) (r : VReg) (x : Line) (tag : Tag) : (t.setV r x tag).lost0 = t.lost0 := rfl
@[simp] theorem Strand.setV_deliver (t : Strand) (r : VReg) (x : Line) (tag : Tag) : (t.setV r x tag).deliver = t.deliver := rfl
@[simp] theorem Strand.setV_killed (t : Strand) (r : VReg) (x : Line) (tag : Tag) : (t.setV r x tag).killed = t.killed := rfl
@[simp] theorem Strand.setV_leaving (t : Strand) (r : VReg) (x : Line) (tag : Tag) : (t.setV r x tag).leaving = t.leaving := rfl
@[simp] theorem Strand.setV_tokens (t : Strand) (r : VReg) (x : Line) (tag : Tag) : (t.setV r x tag).tokens = t.tokens := rfl
@[simp] theorem Strand.setK_key (t : Strand) (r : KReg) (x : Word) : (t.setK r x).key = t.key := rfl
@[simp] theorem Strand.setK_tile (t : Strand) (r : KReg) (x : Word) : (t.setK r x).tile = t.tile := rfl
@[simp] theorem Strand.setK_pc (t : Strand) (r : KReg) (x : Word) : (t.setK r x).pc = t.pc := rfl
@[simp] theorem Strand.setK_qheld (t : Strand) (r : KReg) (x : Word) : (t.setK r x).qheld = t.qheld := rfl
@[simp] theorem Strand.setK_supv (t : Strand) (r : KReg) (x : Word) : (t.setK r x).supv = t.supv := rfl
@[simp] theorem Strand.setK_intrap (t : Strand) (r : KReg) (x : Word) : (t.setK r x).intrap = t.intrap := rfl
@[simp] theorem Strand.setK_state (t : Strand) (r : KReg) (x : Word) : (t.setK r x).state = t.state := rfl
@[simp] theorem Strand.setK_vtag (t : Strand) (r : KReg) (x : Word) : (t.setK r x).vtag = t.vtag := rfl
@[simp] theorem Strand.setK_ctab (t : Strand) (r : KReg) (x : Word) : (t.setK r x).ctab = t.ctab := rfl
@[simp] theorem Strand.setK_cgrp (t : Strand) (r : KReg) (x : Word) : (t.setK r x).cgrp = t.cgrp := rfl
@[simp] theorem Strand.setK_prio (t : Strand) (r : KReg) (x : Word) : (t.setK r x).prio = t.prio := rfl
@[simp] theorem Strand.setK_lfsr (t : Strand) (r : KReg) (x : Word) : (t.setK r x).lfsr = t.lfsr := rfl
@[simp] theorem Strand.setK_reason (t : Strand) (r : KReg) (x : Word) : (t.setK r x).reason = t.reason := rfl
@[simp] theorem Strand.setK_pend (t : Strand) (r : KReg) (x : Word) : (t.setK r x).pend = t.pend := rfl
@[simp] theorem Strand.setK_frptr (t : Strand) (r : KReg) (x : Word) : (t.setK r x).frptr = t.frptr := rfl
@[simp] theorem Strand.setK_dom (t : Strand) (r : KReg) (x : Word) : (t.setK r x).dom = t.dom := rfl
@[simp] theorem Strand.setK_trappc (t : Strand) (r : KReg) (x : Word) : (t.setK r x).trappc = t.trappc := rfl
@[simp] theorem Strand.setK_taddr (t : Strand) (r : KReg) (x : Word) : (t.setK r x).taddr = t.taddr := rfl
@[simp] theorem Strand.setK_tinfo (t : Strand) (r : KReg) (x : Word) : (t.setK r x).tinfo = t.tinfo := rfl
@[simp] theorem Strand.setK_tcause (t : Strand) (r : KReg) (x : Word) : (t.setK r x).tcause = t.tcause := rfl
@[simp] theorem Strand.setK_tvec (t : Strand) (r : KReg) (x : Word) : (t.setK r x).tvec = t.tvec := rfl
@[simp] theorem Strand.setK_home (t : Strand) (r : KReg) (x : Word) : (t.setK r x).home = t.home := rfl
@[simp] theorem Strand.setK_g (t : Strand) (r : KReg) (x : Word) : (t.setK r x).g = t.g := rfl
@[simp] theorem Strand.setK_m (t : Strand) (r : KReg) (x : Word) : (t.setK r x).m = t.m := rfl
@[simp] theorem Strand.setK_xw (t : Strand) (r : KReg) (x : Word) : (t.setK r x).xw = t.xw := rfl
@[simp] theorem Strand.setK_v (t : Strand) (r : KReg) (x : Word) : (t.setK r x).v = t.v := rfl
@[simp] theorem Strand.setK_save (t : Strand) (r : KReg) (x : Word) : (t.setK r x).save = t.save := rfl
@[simp] theorem Strand.setK_pword (t : Strand) (r : KReg) (x : Word) : (t.setK r x).pword = t.pword := rfl
@[simp] theorem Strand.setK_pkst (t : Strand) (r : KReg) (x : Word) : (t.setK r x).pkst = t.pkst := rfl
@[simp] theorem Strand.setK_seq0 (t : Strand) (r : KReg) (x : Word) : (t.setK r x).seq0 = t.seq0 := rfl
@[simp] theorem Strand.setK_seq1 (t : Strand) (r : KReg) (x : Word) : (t.setK r x).seq1 = t.seq1 := rfl
@[simp] theorem Strand.setK_present (t : Strand) (r : KReg) (x : Word) : (t.setK r x).present = t.present := rfl
@[simp] theorem Strand.setK_retained (t : Strand) (r : KReg) (x : Word) : (t.setK r x).retained = t.retained := rfl
@[simp] theorem Strand.setK_fresh (t : Strand) (r : KReg) (x : Word) : (t.setK r x).fresh = t.fresh := rfl
@[simp] theorem Strand.setK_made (t : Strand) (r : KReg) (x : Word) : (t.setK r x).made = t.made := rfl
@[simp] theorem Strand.setK_pool (t : Strand) (r : KReg) (x : Word) : (t.setK r x).pool = t.pool := rfl
@[simp] theorem Strand.setK_npc (t : Strand) (r : KReg) (x : Word) : (t.setK r x).npc = t.npc := rfl
@[simp] theorem Strand.setK_slot (t : Strand) (r : KReg) (x : Word) : (t.setK r x).slot = t.slot := rfl
@[simp] theorem Strand.setK_held (t : Strand) (r : KReg) (x : Word) : (t.setK r x).held = t.held := rfl
@[simp] theorem Strand.setK_late (t : Strand) (r : KReg) (x : Word) : (t.setK r x).late = t.late := rfl
@[simp] theorem Strand.setK_errs (t : Strand) (r : KReg) (x : Word) : (t.setK r x).errs = t.errs := rfl
@[simp] theorem Strand.setK_wait (t : Strand) (r : KReg) (x : Word) : (t.setK r x).wait = t.wait := rfl
@[simp] theorem Strand.setK_blocked (t : Strand) (r : KReg) (x : Word) : (t.setK r x).blocked = t.blocked := rfl
@[simp] theorem Strand.setK_noticed (t : Strand) (r : KReg) (x : Word) : (t.setK r x).noticed = t.noticed := rfl
@[simp] theorem Strand.setK_slotCycles (t : Strand) (r : KReg) (x : Word) : (t.setK r x).slotCycles = t.slotCycles := rfl
@[simp] theorem Strand.setK_pktCycles (t : Strand) (r : KReg) (x : Word) : (t.setK r x).pktCycles = t.pktCycles := rfl
@[simp] theorem Strand.setK_arrival (t : Strand) (r : KReg) (x : Word) : (t.setK r x).arrival = t.arrival := rfl
@[simp] theorem Strand.setK_ans (t : Strand) (r : KReg) (x : Word) : (t.setK r x).ans = t.ans := rfl
@[simp] theorem Strand.setK_parts (t : Strand) (r : KReg) (x : Word) : (t.setK r x).parts = t.parts := rfl
@[simp] theorem Strand.setK_did (t : Strand) (r : KReg) (x : Word) : (t.setK r x).did = t.did := rfl
@[simp] theorem Strand.setK_begun (t : Strand) (r : KReg) (x : Word) : (t.setK r x).begun = t.begun := rfl
@[simp] theorem Strand.setK_pieces (t : Strand) (r : KReg) (x : Word) : (t.setK r x).pieces = t.pieces := rfl
@[simp] theorem Strand.setK_inSecond (t : Strand) (r : KReg) (x : Word) : (t.setK r x).inSecond = t.inSecond := rfl
@[simp] theorem Strand.setK_spawning (t : Strand) (r : KReg) (x : Word) : (t.setK r x).spawning = t.spawning := rfl
@[simp] theorem Strand.setK_redn (t : Strand) (r : KReg) (x : Word) : (t.setK r x).redn = t.redn := rfl
@[simp] theorem Strand.setK_lost0 (t : Strand) (r : KReg) (x : Word) : (t.setK r x).lost0 = t.lost0 := rfl
@[simp] theorem Strand.setK_deliver (t : Strand) (r : KReg) (x : Word) : (t.setK r x).deliver = t.deliver := rfl
@[simp] theorem Strand.setK_killed (t : Strand) (r : KReg) (x : Word) : (t.setK r x).killed = t.killed := rfl
@[simp] theorem Strand.setK_leaving (t : Strand) (r : KReg) (x : Word) : (t.setK r x).leaving = t.leaving := rfl
@[simp] theorem Strand.setK_tokens (t : Strand) (r : KReg) (x : Word) : (t.setK r x).tokens = t.tokens := rfl

/-! ### The cube under a register write of the strand being stepped -/

@[simp] theorem State.setG_mem (s : State) (r : GReg) (x : Word) : (s.setG r x).mem = s.mem := rfl
@[simp] theorem State.setG_bad (s : State) (r : GReg) (x : Word) : (s.setG r x).bad = s.bad := rfl
@[simp] theorem State.setG_counts (s : State) (r : GReg) (x : Word) : (s.setG r x).counts = s.counts := rfl
@[simp] theorem State.setG_l2 (s : State) (r : GReg) (x : Word) : (s.setG r x).l2 = s.l2 := rfl
@[simp] theorem State.setG_corrL2 (s : State) (r : GReg) (x : Word) : (s.setG r x).corrL2 = s.corrL2 := rfl
@[simp] theorem State.setG_sptbase (s : State) (r : GReg) (x : Word) : (s.setG r x).sptbase = s.sptbase := rfl
@[simp] theorem State.setG_chgbase (s : State) (r : GReg) (x : Word) : (s.setG r x).chgbase = s.chgbase := rfl
@[simp] theorem State.setG_nearsz (s : State) (r : GReg) (x : Word) : (s.setG r x).nearsz = s.nearsz := rfl
@[simp] theorem State.setG_pkgid (s : State) (r : GReg) (x : Word) : (s.setG r x).pkgid = s.pkgid := rfl
@[simp] theorem State.setG_spare (s : State) (r : GReg) (x : Word) : (s.setG r x).spare = s.spare := rfl
@[simp] theorem State.setG_locked (s : State) (r : GReg) (x : Word) : (s.setG r x).locked = s.locked := rfl
@[simp] theorem State.setG_walker (s : State) (r : GReg) (x : Word) : (s.setG r x).walker = s.walker := rfl
@[simp] theorem State.setG_tiles (s : State) (r : GReg) (x : Word) : (s.setG r x).tiles = s.tiles := rfl
@[simp] theorem State.setG_strands (s : State) (r : GReg) (x : Word) : (s.setG r x).strands = s.strands := rfl
@[simp] theorem State.setG_layers (s : State) (r : GReg) (x : Word) : (s.setG r x).layers = s.layers := rfl
@[simp] theorem State.setG_stks (s : State) (r : GReg) (x : Word) : (s.setG r x).stks = s.stks := rfl
@[simp] theorem State.setG_cores (s : State) (r : GReg) (x : Word) : (s.setG r x).cores = s.cores := rfl
@[simp] theorem State.setG_msgs (s : State) (r : GReg) (x : Word) : (s.setG r x).msgs = s.msgs := rfl
@[simp] theorem State.setG_seqs (s : State) (r : GReg) (x : Word) : (s.setG r x).seqs = s.seqs := rfl
@[simp] theorem State.setG_invls (s : State) (r : GReg) (x : Word) : (s.setG r x).invls = s.invls := rfl
@[simp] theorem State.setG_optmap (s : State) (r : GReg) (x : Word) : (s.setG r x).optmap = s.optmap := rfl
@[simp] theorem State.setG_packets (s : State) (r : GReg) (x : Word) : (s.setG r x).packets = s.packets := rfl
@[simp] theorem State.setG_portOut (s : State) (r : GReg) (x : Word) : (s.setG r x).portOut = s.portOut := rfl
@[simp] theorem State.setG_portSeq (s : State) (r : GReg) (x : Word) : (s.setG r x).portSeq = s.portSeq := rfl
@[simp] theorem State.setG_portSeen (s : State) (r : GReg) (x : Word) : (s.setG r x).portSeen = s.portSeen := rfl
@[simp] theorem State.setG_queues (s : State) (r : GReg) (x : Word) : (s.setG r x).queues = s.queues := rfl
@[simp] theorem State.setG_logbase (s : State) (r : GReg) (x : Word) : (s.setG r x).logbase = s.logbase := rfl
@[simp] theorem State.setG_logsize (s : State) (r : GReg) (x : Word) : (s.setG r x).logsize = s.logsize := rfl
@[simp] theorem State.setG_loghead (s : State) (r : GReg) (x : Word) : (s.setG r x).loghead = s.loghead := rfl
@[simp] theorem State.setG_logtail (s : State) (r : GReg) (x : Word) : (s.setG r x).logtail = s.logtail := rfl
@[simp] theorem State.setG_loglost (s : State) (r : GReg) (x : Word) : (s.setG r x).loglost = s.loglost := rfl
@[simp] theorem State.setG_logpost (s : State) (r : GReg) (x : Word) : (s.setG r x).logpost = s.logpost := rfl
@[simp] theorem State.setG_hreply (s : State) (r : GReg) (x : Word) : (s.setG r x).hreply = s.hreply := rfl
@[simp] theorem State.setG_msix (s : State) (r : GReg) (x : Word) : (s.setG r x).msix = s.msix := rfl
@[simp] theorem State.setG_cxl (s : State) (r : GReg) (x : Word) : (s.setG r x).cxl = s.cxl := rfl
@[simp] theorem State.setG_absent (s : State) (r : GReg) (x : Word) : (s.setG r x).absent = s.absent := rfl
@[simp] theorem State.setG_preempts (s : State) (r : GReg) (x : Word) : (s.setG r x).preempts = s.preempts := rfl
@[simp] theorem State.setG_resumes (s : State) (r : GReg) (x : Word) : (s.setG r x).resumes = s.resumes := rfl
@[simp] theorem State.setG_migrating (s : State) (r : GReg) (x : Word) : (s.setG r x).migrating = s.migrating := rfl
@[simp] theorem State.setG_phase (s : State) (r : GReg) (x : Word) : (s.setG r x).phase = s.phase := rfl
@[simp] theorem State.setG_startNo (s : State) (r : GReg) (x : Word) : (s.setG r x).startNo = s.startNo := rfl
@[simp] theorem State.setG_record (s : State) (r : GReg) (x : Word) : (s.setG r x).record = s.record := rfl
@[simp] theorem State.setG_config (s : State) (r : GReg) (x : Word) : (s.setG r x).config = s.config := rfl
@[simp] theorem State.setG_configOk (s : State) (r : GReg) (x : Word) : (s.setG r x).configOk = s.configOk := rfl
@[simp] theorem State.setG_fuseSpare (s : State) (r : GReg) (x : Word) : (s.setG r x).fuseSpare = s.fuseSpare := rfl
@[simp] theorem State.setG_spareRead (s : State) (r : GReg) (x : Word) : (s.setG r x).spareRead = s.spareRead := rfl
@[simp] theorem State.setG_configRead (s : State) (r : GReg) (x : Word) : (s.setG r x).configRead = s.configRead := rfl
@[simp] theorem State.setG_fwA (s : State) (r : GReg) (x : Word) : (s.setG r x).fwA = s.fwA := rfl
@[simp] theorem State.setG_fwB (s : State) (r : GReg) (x : Word) : (s.setG r x).fwB = s.fwB := rfl
@[simp] theorem State.setG_edDigest (s : State) (r : GReg) (x : Word) : (s.setG r x).edDigest = s.edDigest := rfl
@[simp] theorem State.setG_mlDigest (s : State) (r : GReg) (x : Word) : (s.setG r x).mlDigest = s.mlDigest := rfl
@[simp] theorem State.setG_minVersion (s : State) (r : GReg) (x : Word) : (s.setG r x).minVersion = s.minVersion := rfl
@[simp] theorem State.setG_therm (s : State) (r : GReg) (x : Word) : (s.setG r x).therm = s.therm := rfl
@[simp] theorem State.setG_sigs (s : State) (r : GReg) (x : Word) : (s.setG r x).sigs = s.sigs := rfl
@[simp] theorem State.setG_opticalDown (s : State) (r : GReg) (x : Word) : (s.setG r x).opticalDown = s.opticalDown := rfl
@[simp] theorem State.setG_schedule (s : State) (r : GReg) (x : Word) : (s.setG r x).schedule = s.schedule := rfl
@[simp] theorem State.setG_turn (s : State) (r : GReg) (x : Word) : (s.setG r x).turn = s.turn := rfl
@[simp] theorem State.setG_view (s : State) (r : GReg) (x : Word) : (s.setG r x).view = s.view := rfl
@[simp] theorem State.setG_core (s : State) (r : GReg) (x : Word) : (s.setG r x).core = s.core := rfl
@[simp] theorem State.setG_coreAt (s : State) (r : GReg) (x : Word) : (s.setG r x).coreAt = s.coreAt := rfl
@[simp] theorem State.setG_ended (s : State) (r : GReg) (x : Word) : (s.setG r x).ended = s.ended := rfl
@[simp] theorem State.setG_walkLog (s : State) (r : GReg) (x : Word) : (s.setG r x).walkLog = s.walkLog := rfl
@[simp] theorem State.setG_part (s : State) (r : GReg) (x : Word) : (s.setG r x).part = s.part := rfl
@[simp] theorem State.setG_pieceNo (s : State) (r : GReg) (x : Word) : (s.setG r x).pieceNo = s.pieceNo := rfl
@[simp] theorem State.setG_onLinks (s : State) (r : GReg) (x : Word) : (s.setG r x).onLinks = s.onLinks := rfl
@[simp] theorem State.setG_passed (s : State) (r : GReg) (x : Word) : (s.setG r x).passed = s.passed := rfl
@[simp] theorem State.setG_half (s : State) (r : GReg) (x : Word) : (s.setG r x).half = s.half := rfl
@[simp] theorem State.setG_me (s : State) (r : GReg) (x : Word) : (s.setG r x).me = s.me.setG r x := rfl

@[simp] theorem State.setM_mem (s : State) (r : MReg) (x : MaskV) : (s.setM r x).mem = s.mem := rfl
@[simp] theorem State.setM_bad (s : State) (r : MReg) (x : MaskV) : (s.setM r x).bad = s.bad := rfl
@[simp] theorem State.setM_counts (s : State) (r : MReg) (x : MaskV) : (s.setM r x).counts = s.counts := rfl
@[simp] theorem State.setM_l2 (s : State) (r : MReg) (x : MaskV) : (s.setM r x).l2 = s.l2 := rfl
@[simp] theorem State.setM_corrL2 (s : State) (r : MReg) (x : MaskV) : (s.setM r x).corrL2 = s.corrL2 := rfl
@[simp] theorem State.setM_sptbase (s : State) (r : MReg) (x : MaskV) : (s.setM r x).sptbase = s.sptbase := rfl
@[simp] theorem State.setM_chgbase (s : State) (r : MReg) (x : MaskV) : (s.setM r x).chgbase = s.chgbase := rfl
@[simp] theorem State.setM_nearsz (s : State) (r : MReg) (x : MaskV) : (s.setM r x).nearsz = s.nearsz := rfl
@[simp] theorem State.setM_pkgid (s : State) (r : MReg) (x : MaskV) : (s.setM r x).pkgid = s.pkgid := rfl
@[simp] theorem State.setM_spare (s : State) (r : MReg) (x : MaskV) : (s.setM r x).spare = s.spare := rfl
@[simp] theorem State.setM_locked (s : State) (r : MReg) (x : MaskV) : (s.setM r x).locked = s.locked := rfl
@[simp] theorem State.setM_walker (s : State) (r : MReg) (x : MaskV) : (s.setM r x).walker = s.walker := rfl
@[simp] theorem State.setM_tiles (s : State) (r : MReg) (x : MaskV) : (s.setM r x).tiles = s.tiles := rfl
@[simp] theorem State.setM_strands (s : State) (r : MReg) (x : MaskV) : (s.setM r x).strands = s.strands := rfl
@[simp] theorem State.setM_layers (s : State) (r : MReg) (x : MaskV) : (s.setM r x).layers = s.layers := rfl
@[simp] theorem State.setM_stks (s : State) (r : MReg) (x : MaskV) : (s.setM r x).stks = s.stks := rfl
@[simp] theorem State.setM_cores (s : State) (r : MReg) (x : MaskV) : (s.setM r x).cores = s.cores := rfl
@[simp] theorem State.setM_msgs (s : State) (r : MReg) (x : MaskV) : (s.setM r x).msgs = s.msgs := rfl
@[simp] theorem State.setM_seqs (s : State) (r : MReg) (x : MaskV) : (s.setM r x).seqs = s.seqs := rfl
@[simp] theorem State.setM_invls (s : State) (r : MReg) (x : MaskV) : (s.setM r x).invls = s.invls := rfl
@[simp] theorem State.setM_optmap (s : State) (r : MReg) (x : MaskV) : (s.setM r x).optmap = s.optmap := rfl
@[simp] theorem State.setM_packets (s : State) (r : MReg) (x : MaskV) : (s.setM r x).packets = s.packets := rfl
@[simp] theorem State.setM_portOut (s : State) (r : MReg) (x : MaskV) : (s.setM r x).portOut = s.portOut := rfl
@[simp] theorem State.setM_portSeq (s : State) (r : MReg) (x : MaskV) : (s.setM r x).portSeq = s.portSeq := rfl
@[simp] theorem State.setM_portSeen (s : State) (r : MReg) (x : MaskV) : (s.setM r x).portSeen = s.portSeen := rfl
@[simp] theorem State.setM_queues (s : State) (r : MReg) (x : MaskV) : (s.setM r x).queues = s.queues := rfl
@[simp] theorem State.setM_logbase (s : State) (r : MReg) (x : MaskV) : (s.setM r x).logbase = s.logbase := rfl
@[simp] theorem State.setM_logsize (s : State) (r : MReg) (x : MaskV) : (s.setM r x).logsize = s.logsize := rfl
@[simp] theorem State.setM_loghead (s : State) (r : MReg) (x : MaskV) : (s.setM r x).loghead = s.loghead := rfl
@[simp] theorem State.setM_logtail (s : State) (r : MReg) (x : MaskV) : (s.setM r x).logtail = s.logtail := rfl
@[simp] theorem State.setM_loglost (s : State) (r : MReg) (x : MaskV) : (s.setM r x).loglost = s.loglost := rfl
@[simp] theorem State.setM_logpost (s : State) (r : MReg) (x : MaskV) : (s.setM r x).logpost = s.logpost := rfl
@[simp] theorem State.setM_hreply (s : State) (r : MReg) (x : MaskV) : (s.setM r x).hreply = s.hreply := rfl
@[simp] theorem State.setM_msix (s : State) (r : MReg) (x : MaskV) : (s.setM r x).msix = s.msix := rfl
@[simp] theorem State.setM_cxl (s : State) (r : MReg) (x : MaskV) : (s.setM r x).cxl = s.cxl := rfl
@[simp] theorem State.setM_absent (s : State) (r : MReg) (x : MaskV) : (s.setM r x).absent = s.absent := rfl
@[simp] theorem State.setM_preempts (s : State) (r : MReg) (x : MaskV) : (s.setM r x).preempts = s.preempts := rfl
@[simp] theorem State.setM_resumes (s : State) (r : MReg) (x : MaskV) : (s.setM r x).resumes = s.resumes := rfl
@[simp] theorem State.setM_migrating (s : State) (r : MReg) (x : MaskV) : (s.setM r x).migrating = s.migrating := rfl
@[simp] theorem State.setM_phase (s : State) (r : MReg) (x : MaskV) : (s.setM r x).phase = s.phase := rfl
@[simp] theorem State.setM_startNo (s : State) (r : MReg) (x : MaskV) : (s.setM r x).startNo = s.startNo := rfl
@[simp] theorem State.setM_record (s : State) (r : MReg) (x : MaskV) : (s.setM r x).record = s.record := rfl
@[simp] theorem State.setM_config (s : State) (r : MReg) (x : MaskV) : (s.setM r x).config = s.config := rfl
@[simp] theorem State.setM_configOk (s : State) (r : MReg) (x : MaskV) : (s.setM r x).configOk = s.configOk := rfl
@[simp] theorem State.setM_fuseSpare (s : State) (r : MReg) (x : MaskV) : (s.setM r x).fuseSpare = s.fuseSpare := rfl
@[simp] theorem State.setM_spareRead (s : State) (r : MReg) (x : MaskV) : (s.setM r x).spareRead = s.spareRead := rfl
@[simp] theorem State.setM_configRead (s : State) (r : MReg) (x : MaskV) : (s.setM r x).configRead = s.configRead := rfl
@[simp] theorem State.setM_fwA (s : State) (r : MReg) (x : MaskV) : (s.setM r x).fwA = s.fwA := rfl
@[simp] theorem State.setM_fwB (s : State) (r : MReg) (x : MaskV) : (s.setM r x).fwB = s.fwB := rfl
@[simp] theorem State.setM_edDigest (s : State) (r : MReg) (x : MaskV) : (s.setM r x).edDigest = s.edDigest := rfl
@[simp] theorem State.setM_mlDigest (s : State) (r : MReg) (x : MaskV) : (s.setM r x).mlDigest = s.mlDigest := rfl
@[simp] theorem State.setM_minVersion (s : State) (r : MReg) (x : MaskV) : (s.setM r x).minVersion = s.minVersion := rfl
@[simp] theorem State.setM_therm (s : State) (r : MReg) (x : MaskV) : (s.setM r x).therm = s.therm := rfl
@[simp] theorem State.setM_sigs (s : State) (r : MReg) (x : MaskV) : (s.setM r x).sigs = s.sigs := rfl
@[simp] theorem State.setM_opticalDown (s : State) (r : MReg) (x : MaskV) : (s.setM r x).opticalDown = s.opticalDown := rfl
@[simp] theorem State.setM_schedule (s : State) (r : MReg) (x : MaskV) : (s.setM r x).schedule = s.schedule := rfl
@[simp] theorem State.setM_turn (s : State) (r : MReg) (x : MaskV) : (s.setM r x).turn = s.turn := rfl
@[simp] theorem State.setM_view (s : State) (r : MReg) (x : MaskV) : (s.setM r x).view = s.view := rfl
@[simp] theorem State.setM_core (s : State) (r : MReg) (x : MaskV) : (s.setM r x).core = s.core := rfl
@[simp] theorem State.setM_coreAt (s : State) (r : MReg) (x : MaskV) : (s.setM r x).coreAt = s.coreAt := rfl
@[simp] theorem State.setM_ended (s : State) (r : MReg) (x : MaskV) : (s.setM r x).ended = s.ended := rfl
@[simp] theorem State.setM_walkLog (s : State) (r : MReg) (x : MaskV) : (s.setM r x).walkLog = s.walkLog := rfl
@[simp] theorem State.setM_part (s : State) (r : MReg) (x : MaskV) : (s.setM r x).part = s.part := rfl
@[simp] theorem State.setM_pieceNo (s : State) (r : MReg) (x : MaskV) : (s.setM r x).pieceNo = s.pieceNo := rfl
@[simp] theorem State.setM_onLinks (s : State) (r : MReg) (x : MaskV) : (s.setM r x).onLinks = s.onLinks := rfl
@[simp] theorem State.setM_passed (s : State) (r : MReg) (x : MaskV) : (s.setM r x).passed = s.passed := rfl
@[simp] theorem State.setM_half (s : State) (r : MReg) (x : MaskV) : (s.setM r x).half = s.half := rfl
@[simp] theorem State.setM_me (s : State) (r : MReg) (x : MaskV) : (s.setM r x).me = s.me.setM r x := rfl

@[simp] theorem State.setV_mem (s : State) (r : VReg) (x : Line) (tag : Tag) : (s.setV r x tag).mem = s.mem := rfl
@[simp] theorem State.setV_bad (s : State) (r : VReg) (x : Line) (tag : Tag) : (s.setV r x tag).bad = s.bad := rfl
@[simp] theorem State.setV_counts (s : State) (r : VReg) (x : Line) (tag : Tag) : (s.setV r x tag).counts = s.counts := rfl
@[simp] theorem State.setV_l2 (s : State) (r : VReg) (x : Line) (tag : Tag) : (s.setV r x tag).l2 = s.l2 := rfl
@[simp] theorem State.setV_corrL2 (s : State) (r : VReg) (x : Line) (tag : Tag) : (s.setV r x tag).corrL2 = s.corrL2 := rfl
@[simp] theorem State.setV_sptbase (s : State) (r : VReg) (x : Line) (tag : Tag) : (s.setV r x tag).sptbase = s.sptbase := rfl
@[simp] theorem State.setV_chgbase (s : State) (r : VReg) (x : Line) (tag : Tag) : (s.setV r x tag).chgbase = s.chgbase := rfl
@[simp] theorem State.setV_nearsz (s : State) (r : VReg) (x : Line) (tag : Tag) : (s.setV r x tag).nearsz = s.nearsz := rfl
@[simp] theorem State.setV_pkgid (s : State) (r : VReg) (x : Line) (tag : Tag) : (s.setV r x tag).pkgid = s.pkgid := rfl
@[simp] theorem State.setV_spare (s : State) (r : VReg) (x : Line) (tag : Tag) : (s.setV r x tag).spare = s.spare := rfl
@[simp] theorem State.setV_locked (s : State) (r : VReg) (x : Line) (tag : Tag) : (s.setV r x tag).locked = s.locked := rfl
@[simp] theorem State.setV_walker (s : State) (r : VReg) (x : Line) (tag : Tag) : (s.setV r x tag).walker = s.walker := rfl
@[simp] theorem State.setV_tiles (s : State) (r : VReg) (x : Line) (tag : Tag) : (s.setV r x tag).tiles = s.tiles := rfl
@[simp] theorem State.setV_strands (s : State) (r : VReg) (x : Line) (tag : Tag) : (s.setV r x tag).strands = s.strands := rfl
@[simp] theorem State.setV_layers (s : State) (r : VReg) (x : Line) (tag : Tag) : (s.setV r x tag).layers = s.layers := rfl
@[simp] theorem State.setV_stks (s : State) (r : VReg) (x : Line) (tag : Tag) : (s.setV r x tag).stks = s.stks := rfl
@[simp] theorem State.setV_cores (s : State) (r : VReg) (x : Line) (tag : Tag) : (s.setV r x tag).cores = s.cores := rfl
@[simp] theorem State.setV_msgs (s : State) (r : VReg) (x : Line) (tag : Tag) : (s.setV r x tag).msgs = s.msgs := rfl
@[simp] theorem State.setV_seqs (s : State) (r : VReg) (x : Line) (tag : Tag) : (s.setV r x tag).seqs = s.seqs := rfl
@[simp] theorem State.setV_invls (s : State) (r : VReg) (x : Line) (tag : Tag) : (s.setV r x tag).invls = s.invls := rfl
@[simp] theorem State.setV_optmap (s : State) (r : VReg) (x : Line) (tag : Tag) : (s.setV r x tag).optmap = s.optmap := rfl
@[simp] theorem State.setV_packets (s : State) (r : VReg) (x : Line) (tag : Tag) : (s.setV r x tag).packets = s.packets := rfl
@[simp] theorem State.setV_portOut (s : State) (r : VReg) (x : Line) (tag : Tag) : (s.setV r x tag).portOut = s.portOut := rfl
@[simp] theorem State.setV_portSeq (s : State) (r : VReg) (x : Line) (tag : Tag) : (s.setV r x tag).portSeq = s.portSeq := rfl
@[simp] theorem State.setV_portSeen (s : State) (r : VReg) (x : Line) (tag : Tag) : (s.setV r x tag).portSeen = s.portSeen := rfl
@[simp] theorem State.setV_queues (s : State) (r : VReg) (x : Line) (tag : Tag) : (s.setV r x tag).queues = s.queues := rfl
@[simp] theorem State.setV_logbase (s : State) (r : VReg) (x : Line) (tag : Tag) : (s.setV r x tag).logbase = s.logbase := rfl
@[simp] theorem State.setV_logsize (s : State) (r : VReg) (x : Line) (tag : Tag) : (s.setV r x tag).logsize = s.logsize := rfl
@[simp] theorem State.setV_loghead (s : State) (r : VReg) (x : Line) (tag : Tag) : (s.setV r x tag).loghead = s.loghead := rfl
@[simp] theorem State.setV_logtail (s : State) (r : VReg) (x : Line) (tag : Tag) : (s.setV r x tag).logtail = s.logtail := rfl
@[simp] theorem State.setV_loglost (s : State) (r : VReg) (x : Line) (tag : Tag) : (s.setV r x tag).loglost = s.loglost := rfl
@[simp] theorem State.setV_logpost (s : State) (r : VReg) (x : Line) (tag : Tag) : (s.setV r x tag).logpost = s.logpost := rfl
@[simp] theorem State.setV_hreply (s : State) (r : VReg) (x : Line) (tag : Tag) : (s.setV r x tag).hreply = s.hreply := rfl
@[simp] theorem State.setV_msix (s : State) (r : VReg) (x : Line) (tag : Tag) : (s.setV r x tag).msix = s.msix := rfl
@[simp] theorem State.setV_cxl (s : State) (r : VReg) (x : Line) (tag : Tag) : (s.setV r x tag).cxl = s.cxl := rfl
@[simp] theorem State.setV_absent (s : State) (r : VReg) (x : Line) (tag : Tag) : (s.setV r x tag).absent = s.absent := rfl
@[simp] theorem State.setV_preempts (s : State) (r : VReg) (x : Line) (tag : Tag) : (s.setV r x tag).preempts = s.preempts := rfl
@[simp] theorem State.setV_resumes (s : State) (r : VReg) (x : Line) (tag : Tag) : (s.setV r x tag).resumes = s.resumes := rfl
@[simp] theorem State.setV_migrating (s : State) (r : VReg) (x : Line) (tag : Tag) : (s.setV r x tag).migrating = s.migrating := rfl
@[simp] theorem State.setV_phase (s : State) (r : VReg) (x : Line) (tag : Tag) : (s.setV r x tag).phase = s.phase := rfl
@[simp] theorem State.setV_startNo (s : State) (r : VReg) (x : Line) (tag : Tag) : (s.setV r x tag).startNo = s.startNo := rfl
@[simp] theorem State.setV_record (s : State) (r : VReg) (x : Line) (tag : Tag) : (s.setV r x tag).record = s.record := rfl
@[simp] theorem State.setV_config (s : State) (r : VReg) (x : Line) (tag : Tag) : (s.setV r x tag).config = s.config := rfl
@[simp] theorem State.setV_configOk (s : State) (r : VReg) (x : Line) (tag : Tag) : (s.setV r x tag).configOk = s.configOk := rfl
@[simp] theorem State.setV_fuseSpare (s : State) (r : VReg) (x : Line) (tag : Tag) : (s.setV r x tag).fuseSpare = s.fuseSpare := rfl
@[simp] theorem State.setV_spareRead (s : State) (r : VReg) (x : Line) (tag : Tag) : (s.setV r x tag).spareRead = s.spareRead := rfl
@[simp] theorem State.setV_configRead (s : State) (r : VReg) (x : Line) (tag : Tag) : (s.setV r x tag).configRead = s.configRead := rfl
@[simp] theorem State.setV_fwA (s : State) (r : VReg) (x : Line) (tag : Tag) : (s.setV r x tag).fwA = s.fwA := rfl
@[simp] theorem State.setV_fwB (s : State) (r : VReg) (x : Line) (tag : Tag) : (s.setV r x tag).fwB = s.fwB := rfl
@[simp] theorem State.setV_edDigest (s : State) (r : VReg) (x : Line) (tag : Tag) : (s.setV r x tag).edDigest = s.edDigest := rfl
@[simp] theorem State.setV_mlDigest (s : State) (r : VReg) (x : Line) (tag : Tag) : (s.setV r x tag).mlDigest = s.mlDigest := rfl
@[simp] theorem State.setV_minVersion (s : State) (r : VReg) (x : Line) (tag : Tag) : (s.setV r x tag).minVersion = s.minVersion := rfl
@[simp] theorem State.setV_therm (s : State) (r : VReg) (x : Line) (tag : Tag) : (s.setV r x tag).therm = s.therm := rfl
@[simp] theorem State.setV_sigs (s : State) (r : VReg) (x : Line) (tag : Tag) : (s.setV r x tag).sigs = s.sigs := rfl
@[simp] theorem State.setV_opticalDown (s : State) (r : VReg) (x : Line) (tag : Tag) : (s.setV r x tag).opticalDown = s.opticalDown := rfl
@[simp] theorem State.setV_schedule (s : State) (r : VReg) (x : Line) (tag : Tag) : (s.setV r x tag).schedule = s.schedule := rfl
@[simp] theorem State.setV_turn (s : State) (r : VReg) (x : Line) (tag : Tag) : (s.setV r x tag).turn = s.turn := rfl
@[simp] theorem State.setV_view (s : State) (r : VReg) (x : Line) (tag : Tag) : (s.setV r x tag).view = s.view := rfl
@[simp] theorem State.setV_core (s : State) (r : VReg) (x : Line) (tag : Tag) : (s.setV r x tag).core = s.core := rfl
@[simp] theorem State.setV_coreAt (s : State) (r : VReg) (x : Line) (tag : Tag) : (s.setV r x tag).coreAt = s.coreAt := rfl
@[simp] theorem State.setV_ended (s : State) (r : VReg) (x : Line) (tag : Tag) : (s.setV r x tag).ended = s.ended := rfl
@[simp] theorem State.setV_walkLog (s : State) (r : VReg) (x : Line) (tag : Tag) : (s.setV r x tag).walkLog = s.walkLog := rfl
@[simp] theorem State.setV_part (s : State) (r : VReg) (x : Line) (tag : Tag) : (s.setV r x tag).part = s.part := rfl
@[simp] theorem State.setV_pieceNo (s : State) (r : VReg) (x : Line) (tag : Tag) : (s.setV r x tag).pieceNo = s.pieceNo := rfl
@[simp] theorem State.setV_onLinks (s : State) (r : VReg) (x : Line) (tag : Tag) : (s.setV r x tag).onLinks = s.onLinks := rfl
@[simp] theorem State.setV_passed (s : State) (r : VReg) (x : Line) (tag : Tag) : (s.setV r x tag).passed = s.passed := rfl
@[simp] theorem State.setV_half (s : State) (r : VReg) (x : Line) (tag : Tag) : (s.setV r x tag).half = s.half := rfl
@[simp] theorem State.setV_me (s : State) (r : VReg) (x : Line) (tag : Tag) : (s.setV r x tag).me = s.me.setV r x tag := rfl

@[simp] theorem State.setK_mem (s : State) (r : KReg) (x : Word) : (s.setK r x).mem = s.mem := rfl
@[simp] theorem State.setK_bad (s : State) (r : KReg) (x : Word) : (s.setK r x).bad = s.bad := rfl
@[simp] theorem State.setK_counts (s : State) (r : KReg) (x : Word) : (s.setK r x).counts = s.counts := rfl
@[simp] theorem State.setK_l2 (s : State) (r : KReg) (x : Word) : (s.setK r x).l2 = s.l2 := rfl
@[simp] theorem State.setK_corrL2 (s : State) (r : KReg) (x : Word) : (s.setK r x).corrL2 = s.corrL2 := rfl
@[simp] theorem State.setK_sptbase (s : State) (r : KReg) (x : Word) : (s.setK r x).sptbase = s.sptbase := rfl
@[simp] theorem State.setK_chgbase (s : State) (r : KReg) (x : Word) : (s.setK r x).chgbase = s.chgbase := rfl
@[simp] theorem State.setK_nearsz (s : State) (r : KReg) (x : Word) : (s.setK r x).nearsz = s.nearsz := rfl
@[simp] theorem State.setK_pkgid (s : State) (r : KReg) (x : Word) : (s.setK r x).pkgid = s.pkgid := rfl
@[simp] theorem State.setK_spare (s : State) (r : KReg) (x : Word) : (s.setK r x).spare = s.spare := rfl
@[simp] theorem State.setK_locked (s : State) (r : KReg) (x : Word) : (s.setK r x).locked = s.locked := rfl
@[simp] theorem State.setK_walker (s : State) (r : KReg) (x : Word) : (s.setK r x).walker = s.walker := rfl
@[simp] theorem State.setK_tiles (s : State) (r : KReg) (x : Word) : (s.setK r x).tiles = s.tiles := rfl
@[simp] theorem State.setK_strands (s : State) (r : KReg) (x : Word) : (s.setK r x).strands = s.strands := rfl
@[simp] theorem State.setK_layers (s : State) (r : KReg) (x : Word) : (s.setK r x).layers = s.layers := rfl
@[simp] theorem State.setK_stks (s : State) (r : KReg) (x : Word) : (s.setK r x).stks = s.stks := rfl
@[simp] theorem State.setK_cores (s : State) (r : KReg) (x : Word) : (s.setK r x).cores = s.cores := rfl
@[simp] theorem State.setK_msgs (s : State) (r : KReg) (x : Word) : (s.setK r x).msgs = s.msgs := rfl
@[simp] theorem State.setK_seqs (s : State) (r : KReg) (x : Word) : (s.setK r x).seqs = s.seqs := rfl
@[simp] theorem State.setK_invls (s : State) (r : KReg) (x : Word) : (s.setK r x).invls = s.invls := rfl
@[simp] theorem State.setK_optmap (s : State) (r : KReg) (x : Word) : (s.setK r x).optmap = s.optmap := rfl
@[simp] theorem State.setK_packets (s : State) (r : KReg) (x : Word) : (s.setK r x).packets = s.packets := rfl
@[simp] theorem State.setK_portOut (s : State) (r : KReg) (x : Word) : (s.setK r x).portOut = s.portOut := rfl
@[simp] theorem State.setK_portSeq (s : State) (r : KReg) (x : Word) : (s.setK r x).portSeq = s.portSeq := rfl
@[simp] theorem State.setK_portSeen (s : State) (r : KReg) (x : Word) : (s.setK r x).portSeen = s.portSeen := rfl
@[simp] theorem State.setK_queues (s : State) (r : KReg) (x : Word) : (s.setK r x).queues = s.queues := rfl
@[simp] theorem State.setK_logbase (s : State) (r : KReg) (x : Word) : (s.setK r x).logbase = s.logbase := rfl
@[simp] theorem State.setK_logsize (s : State) (r : KReg) (x : Word) : (s.setK r x).logsize = s.logsize := rfl
@[simp] theorem State.setK_loghead (s : State) (r : KReg) (x : Word) : (s.setK r x).loghead = s.loghead := rfl
@[simp] theorem State.setK_logtail (s : State) (r : KReg) (x : Word) : (s.setK r x).logtail = s.logtail := rfl
@[simp] theorem State.setK_loglost (s : State) (r : KReg) (x : Word) : (s.setK r x).loglost = s.loglost := rfl
@[simp] theorem State.setK_logpost (s : State) (r : KReg) (x : Word) : (s.setK r x).logpost = s.logpost := rfl
@[simp] theorem State.setK_hreply (s : State) (r : KReg) (x : Word) : (s.setK r x).hreply = s.hreply := rfl
@[simp] theorem State.setK_msix (s : State) (r : KReg) (x : Word) : (s.setK r x).msix = s.msix := rfl
@[simp] theorem State.setK_cxl (s : State) (r : KReg) (x : Word) : (s.setK r x).cxl = s.cxl := rfl
@[simp] theorem State.setK_absent (s : State) (r : KReg) (x : Word) : (s.setK r x).absent = s.absent := rfl
@[simp] theorem State.setK_preempts (s : State) (r : KReg) (x : Word) : (s.setK r x).preempts = s.preempts := rfl
@[simp] theorem State.setK_resumes (s : State) (r : KReg) (x : Word) : (s.setK r x).resumes = s.resumes := rfl
@[simp] theorem State.setK_migrating (s : State) (r : KReg) (x : Word) : (s.setK r x).migrating = s.migrating := rfl
@[simp] theorem State.setK_phase (s : State) (r : KReg) (x : Word) : (s.setK r x).phase = s.phase := rfl
@[simp] theorem State.setK_startNo (s : State) (r : KReg) (x : Word) : (s.setK r x).startNo = s.startNo := rfl
@[simp] theorem State.setK_record (s : State) (r : KReg) (x : Word) : (s.setK r x).record = s.record := rfl
@[simp] theorem State.setK_config (s : State) (r : KReg) (x : Word) : (s.setK r x).config = s.config := rfl
@[simp] theorem State.setK_configOk (s : State) (r : KReg) (x : Word) : (s.setK r x).configOk = s.configOk := rfl
@[simp] theorem State.setK_fuseSpare (s : State) (r : KReg) (x : Word) : (s.setK r x).fuseSpare = s.fuseSpare := rfl
@[simp] theorem State.setK_spareRead (s : State) (r : KReg) (x : Word) : (s.setK r x).spareRead = s.spareRead := rfl
@[simp] theorem State.setK_configRead (s : State) (r : KReg) (x : Word) : (s.setK r x).configRead = s.configRead := rfl
@[simp] theorem State.setK_fwA (s : State) (r : KReg) (x : Word) : (s.setK r x).fwA = s.fwA := rfl
@[simp] theorem State.setK_fwB (s : State) (r : KReg) (x : Word) : (s.setK r x).fwB = s.fwB := rfl
@[simp] theorem State.setK_edDigest (s : State) (r : KReg) (x : Word) : (s.setK r x).edDigest = s.edDigest := rfl
@[simp] theorem State.setK_mlDigest (s : State) (r : KReg) (x : Word) : (s.setK r x).mlDigest = s.mlDigest := rfl
@[simp] theorem State.setK_minVersion (s : State) (r : KReg) (x : Word) : (s.setK r x).minVersion = s.minVersion := rfl
@[simp] theorem State.setK_therm (s : State) (r : KReg) (x : Word) : (s.setK r x).therm = s.therm := rfl
@[simp] theorem State.setK_sigs (s : State) (r : KReg) (x : Word) : (s.setK r x).sigs = s.sigs := rfl
@[simp] theorem State.setK_opticalDown (s : State) (r : KReg) (x : Word) : (s.setK r x).opticalDown = s.opticalDown := rfl
@[simp] theorem State.setK_schedule (s : State) (r : KReg) (x : Word) : (s.setK r x).schedule = s.schedule := rfl
@[simp] theorem State.setK_turn (s : State) (r : KReg) (x : Word) : (s.setK r x).turn = s.turn := rfl
@[simp] theorem State.setK_view (s : State) (r : KReg) (x : Word) : (s.setK r x).view = s.view := rfl
@[simp] theorem State.setK_core (s : State) (r : KReg) (x : Word) : (s.setK r x).core = s.core := rfl
@[simp] theorem State.setK_coreAt (s : State) (r : KReg) (x : Word) : (s.setK r x).coreAt = s.coreAt := rfl
@[simp] theorem State.setK_ended (s : State) (r : KReg) (x : Word) : (s.setK r x).ended = s.ended := rfl
@[simp] theorem State.setK_walkLog (s : State) (r : KReg) (x : Word) : (s.setK r x).walkLog = s.walkLog := rfl
@[simp] theorem State.setK_part (s : State) (r : KReg) (x : Word) : (s.setK r x).part = s.part := rfl
@[simp] theorem State.setK_pieceNo (s : State) (r : KReg) (x : Word) : (s.setK r x).pieceNo = s.pieceNo := rfl
@[simp] theorem State.setK_onLinks (s : State) (r : KReg) (x : Word) : (s.setK r x).onLinks = s.onLinks := rfl
@[simp] theorem State.setK_passed (s : State) (r : KReg) (x : Word) : (s.setK r x).passed = s.passed := rfl
@[simp] theorem State.setK_half (s : State) (r : KReg) (x : Word) : (s.setK r x).half = s.half := rfl
@[simp] theorem State.setK_me (s : State) (r : KReg) (x : Word) : (s.setK r x).me = s.me.setK r x := rfl

@[simp] theorem State.setGLa_mem (s : State) (r : GReg) (la : La) (x : Word) : (s.setGLa r la x).mem = s.mem := rfl
@[simp] theorem State.setGLa_bad (s : State) (r : GReg) (la : La) (x : Word) : (s.setGLa r la x).bad = s.bad := rfl
@[simp] theorem State.setGLa_counts (s : State) (r : GReg) (la : La) (x : Word) : (s.setGLa r la x).counts = s.counts := rfl
@[simp] theorem State.setGLa_l2 (s : State) (r : GReg) (la : La) (x : Word) : (s.setGLa r la x).l2 = s.l2 := rfl
@[simp] theorem State.setGLa_corrL2 (s : State) (r : GReg) (la : La) (x : Word) : (s.setGLa r la x).corrL2 = s.corrL2 := rfl
@[simp] theorem State.setGLa_sptbase (s : State) (r : GReg) (la : La) (x : Word) : (s.setGLa r la x).sptbase = s.sptbase := rfl
@[simp] theorem State.setGLa_chgbase (s : State) (r : GReg) (la : La) (x : Word) : (s.setGLa r la x).chgbase = s.chgbase := rfl
@[simp] theorem State.setGLa_nearsz (s : State) (r : GReg) (la : La) (x : Word) : (s.setGLa r la x).nearsz = s.nearsz := rfl
@[simp] theorem State.setGLa_pkgid (s : State) (r : GReg) (la : La) (x : Word) : (s.setGLa r la x).pkgid = s.pkgid := rfl
@[simp] theorem State.setGLa_spare (s : State) (r : GReg) (la : La) (x : Word) : (s.setGLa r la x).spare = s.spare := rfl
@[simp] theorem State.setGLa_locked (s : State) (r : GReg) (la : La) (x : Word) : (s.setGLa r la x).locked = s.locked := rfl
@[simp] theorem State.setGLa_walker (s : State) (r : GReg) (la : La) (x : Word) : (s.setGLa r la x).walker = s.walker := rfl
@[simp] theorem State.setGLa_tiles (s : State) (r : GReg) (la : La) (x : Word) : (s.setGLa r la x).tiles = s.tiles := rfl
@[simp] theorem State.setGLa_strands (s : State) (r : GReg) (la : La) (x : Word) : (s.setGLa r la x).strands = s.strands := rfl
@[simp] theorem State.setGLa_layers (s : State) (r : GReg) (la : La) (x : Word) : (s.setGLa r la x).layers = s.layers := rfl
@[simp] theorem State.setGLa_stks (s : State) (r : GReg) (la : La) (x : Word) : (s.setGLa r la x).stks = s.stks := rfl
@[simp] theorem State.setGLa_cores (s : State) (r : GReg) (la : La) (x : Word) : (s.setGLa r la x).cores = s.cores := rfl
@[simp] theorem State.setGLa_msgs (s : State) (r : GReg) (la : La) (x : Word) : (s.setGLa r la x).msgs = s.msgs := rfl
@[simp] theorem State.setGLa_seqs (s : State) (r : GReg) (la : La) (x : Word) : (s.setGLa r la x).seqs = s.seqs := rfl
@[simp] theorem State.setGLa_invls (s : State) (r : GReg) (la : La) (x : Word) : (s.setGLa r la x).invls = s.invls := rfl
@[simp] theorem State.setGLa_optmap (s : State) (r : GReg) (la : La) (x : Word) : (s.setGLa r la x).optmap = s.optmap := rfl
@[simp] theorem State.setGLa_packets (s : State) (r : GReg) (la : La) (x : Word) : (s.setGLa r la x).packets = s.packets := rfl
@[simp] theorem State.setGLa_portOut (s : State) (r : GReg) (la : La) (x : Word) : (s.setGLa r la x).portOut = s.portOut := rfl
@[simp] theorem State.setGLa_portSeq (s : State) (r : GReg) (la : La) (x : Word) : (s.setGLa r la x).portSeq = s.portSeq := rfl
@[simp] theorem State.setGLa_portSeen (s : State) (r : GReg) (la : La) (x : Word) : (s.setGLa r la x).portSeen = s.portSeen := rfl
@[simp] theorem State.setGLa_queues (s : State) (r : GReg) (la : La) (x : Word) : (s.setGLa r la x).queues = s.queues := rfl
@[simp] theorem State.setGLa_logbase (s : State) (r : GReg) (la : La) (x : Word) : (s.setGLa r la x).logbase = s.logbase := rfl
@[simp] theorem State.setGLa_logsize (s : State) (r : GReg) (la : La) (x : Word) : (s.setGLa r la x).logsize = s.logsize := rfl
@[simp] theorem State.setGLa_loghead (s : State) (r : GReg) (la : La) (x : Word) : (s.setGLa r la x).loghead = s.loghead := rfl
@[simp] theorem State.setGLa_logtail (s : State) (r : GReg) (la : La) (x : Word) : (s.setGLa r la x).logtail = s.logtail := rfl
@[simp] theorem State.setGLa_loglost (s : State) (r : GReg) (la : La) (x : Word) : (s.setGLa r la x).loglost = s.loglost := rfl
@[simp] theorem State.setGLa_logpost (s : State) (r : GReg) (la : La) (x : Word) : (s.setGLa r la x).logpost = s.logpost := rfl
@[simp] theorem State.setGLa_hreply (s : State) (r : GReg) (la : La) (x : Word) : (s.setGLa r la x).hreply = s.hreply := rfl
@[simp] theorem State.setGLa_msix (s : State) (r : GReg) (la : La) (x : Word) : (s.setGLa r la x).msix = s.msix := rfl
@[simp] theorem State.setGLa_cxl (s : State) (r : GReg) (la : La) (x : Word) : (s.setGLa r la x).cxl = s.cxl := rfl
@[simp] theorem State.setGLa_absent (s : State) (r : GReg) (la : La) (x : Word) : (s.setGLa r la x).absent = s.absent := rfl
@[simp] theorem State.setGLa_preempts (s : State) (r : GReg) (la : La) (x : Word) : (s.setGLa r la x).preempts = s.preempts := rfl
@[simp] theorem State.setGLa_resumes (s : State) (r : GReg) (la : La) (x : Word) : (s.setGLa r la x).resumes = s.resumes := rfl
@[simp] theorem State.setGLa_migrating (s : State) (r : GReg) (la : La) (x : Word) : (s.setGLa r la x).migrating = s.migrating := rfl
@[simp] theorem State.setGLa_phase (s : State) (r : GReg) (la : La) (x : Word) : (s.setGLa r la x).phase = s.phase := rfl
@[simp] theorem State.setGLa_startNo (s : State) (r : GReg) (la : La) (x : Word) : (s.setGLa r la x).startNo = s.startNo := rfl
@[simp] theorem State.setGLa_record (s : State) (r : GReg) (la : La) (x : Word) : (s.setGLa r la x).record = s.record := rfl
@[simp] theorem State.setGLa_config (s : State) (r : GReg) (la : La) (x : Word) : (s.setGLa r la x).config = s.config := rfl
@[simp] theorem State.setGLa_configOk (s : State) (r : GReg) (la : La) (x : Word) : (s.setGLa r la x).configOk = s.configOk := rfl
@[simp] theorem State.setGLa_fuseSpare (s : State) (r : GReg) (la : La) (x : Word) : (s.setGLa r la x).fuseSpare = s.fuseSpare := rfl
@[simp] theorem State.setGLa_spareRead (s : State) (r : GReg) (la : La) (x : Word) : (s.setGLa r la x).spareRead = s.spareRead := rfl
@[simp] theorem State.setGLa_configRead (s : State) (r : GReg) (la : La) (x : Word) : (s.setGLa r la x).configRead = s.configRead := rfl
@[simp] theorem State.setGLa_fwA (s : State) (r : GReg) (la : La) (x : Word) : (s.setGLa r la x).fwA = s.fwA := rfl
@[simp] theorem State.setGLa_fwB (s : State) (r : GReg) (la : La) (x : Word) : (s.setGLa r la x).fwB = s.fwB := rfl
@[simp] theorem State.setGLa_edDigest (s : State) (r : GReg) (la : La) (x : Word) : (s.setGLa r la x).edDigest = s.edDigest := rfl
@[simp] theorem State.setGLa_mlDigest (s : State) (r : GReg) (la : La) (x : Word) : (s.setGLa r la x).mlDigest = s.mlDigest := rfl
@[simp] theorem State.setGLa_minVersion (s : State) (r : GReg) (la : La) (x : Word) : (s.setGLa r la x).minVersion = s.minVersion := rfl
@[simp] theorem State.setGLa_therm (s : State) (r : GReg) (la : La) (x : Word) : (s.setGLa r la x).therm = s.therm := rfl
@[simp] theorem State.setGLa_sigs (s : State) (r : GReg) (la : La) (x : Word) : (s.setGLa r la x).sigs = s.sigs := rfl
@[simp] theorem State.setGLa_opticalDown (s : State) (r : GReg) (la : La) (x : Word) : (s.setGLa r la x).opticalDown = s.opticalDown := rfl
@[simp] theorem State.setGLa_schedule (s : State) (r : GReg) (la : La) (x : Word) : (s.setGLa r la x).schedule = s.schedule := rfl
@[simp] theorem State.setGLa_turn (s : State) (r : GReg) (la : La) (x : Word) : (s.setGLa r la x).turn = s.turn := rfl
@[simp] theorem State.setGLa_view (s : State) (r : GReg) (la : La) (x : Word) : (s.setGLa r la x).view = s.view := rfl
@[simp] theorem State.setGLa_core (s : State) (r : GReg) (la : La) (x : Word) : (s.setGLa r la x).core = s.core := rfl
@[simp] theorem State.setGLa_coreAt (s : State) (r : GReg) (la : La) (x : Word) : (s.setGLa r la x).coreAt = s.coreAt := rfl
@[simp] theorem State.setGLa_ended (s : State) (r : GReg) (la : La) (x : Word) : (s.setGLa r la x).ended = s.ended := rfl
@[simp] theorem State.setGLa_walkLog (s : State) (r : GReg) (la : La) (x : Word) : (s.setGLa r la x).walkLog = s.walkLog := rfl
@[simp] theorem State.setGLa_part (s : State) (r : GReg) (la : La) (x : Word) : (s.setGLa r la x).part = s.part := rfl
@[simp] theorem State.setGLa_pieceNo (s : State) (r : GReg) (la : La) (x : Word) : (s.setGLa r la x).pieceNo = s.pieceNo := rfl
@[simp] theorem State.setGLa_onLinks (s : State) (r : GReg) (la : La) (x : Word) : (s.setGLa r la x).onLinks = s.onLinks := rfl
@[simp] theorem State.setGLa_passed (s : State) (r : GReg) (la : La) (x : Word) : (s.setGLa r la x).passed = s.passed := rfl
@[simp] theorem State.setGLa_half (s : State) (r : GReg) (la : La) (x : Word) : (s.setGLa r la x).half = s.half := rfl

@[simp] theorem State.setVLa_mem (s : State) (r : VReg) (la : La) (x : Line) (tag : Tag) : (s.setVLa r la x tag).mem = s.mem := rfl
@[simp] theorem State.setVLa_bad (s : State) (r : VReg) (la : La) (x : Line) (tag : Tag) : (s.setVLa r la x tag).bad = s.bad := rfl
@[simp] theorem State.setVLa_counts (s : State) (r : VReg) (la : La) (x : Line) (tag : Tag) : (s.setVLa r la x tag).counts = s.counts := rfl
@[simp] theorem State.setVLa_l2 (s : State) (r : VReg) (la : La) (x : Line) (tag : Tag) : (s.setVLa r la x tag).l2 = s.l2 := rfl
@[simp] theorem State.setVLa_corrL2 (s : State) (r : VReg) (la : La) (x : Line) (tag : Tag) : (s.setVLa r la x tag).corrL2 = s.corrL2 := rfl
@[simp] theorem State.setVLa_sptbase (s : State) (r : VReg) (la : La) (x : Line) (tag : Tag) : (s.setVLa r la x tag).sptbase = s.sptbase := rfl
@[simp] theorem State.setVLa_chgbase (s : State) (r : VReg) (la : La) (x : Line) (tag : Tag) : (s.setVLa r la x tag).chgbase = s.chgbase := rfl
@[simp] theorem State.setVLa_nearsz (s : State) (r : VReg) (la : La) (x : Line) (tag : Tag) : (s.setVLa r la x tag).nearsz = s.nearsz := rfl
@[simp] theorem State.setVLa_pkgid (s : State) (r : VReg) (la : La) (x : Line) (tag : Tag) : (s.setVLa r la x tag).pkgid = s.pkgid := rfl
@[simp] theorem State.setVLa_spare (s : State) (r : VReg) (la : La) (x : Line) (tag : Tag) : (s.setVLa r la x tag).spare = s.spare := rfl
@[simp] theorem State.setVLa_locked (s : State) (r : VReg) (la : La) (x : Line) (tag : Tag) : (s.setVLa r la x tag).locked = s.locked := rfl
@[simp] theorem State.setVLa_walker (s : State) (r : VReg) (la : La) (x : Line) (tag : Tag) : (s.setVLa r la x tag).walker = s.walker := rfl
@[simp] theorem State.setVLa_tiles (s : State) (r : VReg) (la : La) (x : Line) (tag : Tag) : (s.setVLa r la x tag).tiles = s.tiles := rfl
@[simp] theorem State.setVLa_strands (s : State) (r : VReg) (la : La) (x : Line) (tag : Tag) : (s.setVLa r la x tag).strands = s.strands := rfl
@[simp] theorem State.setVLa_layers (s : State) (r : VReg) (la : La) (x : Line) (tag : Tag) : (s.setVLa r la x tag).layers = s.layers := rfl
@[simp] theorem State.setVLa_stks (s : State) (r : VReg) (la : La) (x : Line) (tag : Tag) : (s.setVLa r la x tag).stks = s.stks := rfl
@[simp] theorem State.setVLa_cores (s : State) (r : VReg) (la : La) (x : Line) (tag : Tag) : (s.setVLa r la x tag).cores = s.cores := rfl
@[simp] theorem State.setVLa_msgs (s : State) (r : VReg) (la : La) (x : Line) (tag : Tag) : (s.setVLa r la x tag).msgs = s.msgs := rfl
@[simp] theorem State.setVLa_seqs (s : State) (r : VReg) (la : La) (x : Line) (tag : Tag) : (s.setVLa r la x tag).seqs = s.seqs := rfl
@[simp] theorem State.setVLa_invls (s : State) (r : VReg) (la : La) (x : Line) (tag : Tag) : (s.setVLa r la x tag).invls = s.invls := rfl
@[simp] theorem State.setVLa_optmap (s : State) (r : VReg) (la : La) (x : Line) (tag : Tag) : (s.setVLa r la x tag).optmap = s.optmap := rfl
@[simp] theorem State.setVLa_packets (s : State) (r : VReg) (la : La) (x : Line) (tag : Tag) : (s.setVLa r la x tag).packets = s.packets := rfl
@[simp] theorem State.setVLa_portOut (s : State) (r : VReg) (la : La) (x : Line) (tag : Tag) : (s.setVLa r la x tag).portOut = s.portOut := rfl
@[simp] theorem State.setVLa_portSeq (s : State) (r : VReg) (la : La) (x : Line) (tag : Tag) : (s.setVLa r la x tag).portSeq = s.portSeq := rfl
@[simp] theorem State.setVLa_portSeen (s : State) (r : VReg) (la : La) (x : Line) (tag : Tag) : (s.setVLa r la x tag).portSeen = s.portSeen := rfl
@[simp] theorem State.setVLa_queues (s : State) (r : VReg) (la : La) (x : Line) (tag : Tag) : (s.setVLa r la x tag).queues = s.queues := rfl
@[simp] theorem State.setVLa_logbase (s : State) (r : VReg) (la : La) (x : Line) (tag : Tag) : (s.setVLa r la x tag).logbase = s.logbase := rfl
@[simp] theorem State.setVLa_logsize (s : State) (r : VReg) (la : La) (x : Line) (tag : Tag) : (s.setVLa r la x tag).logsize = s.logsize := rfl
@[simp] theorem State.setVLa_loghead (s : State) (r : VReg) (la : La) (x : Line) (tag : Tag) : (s.setVLa r la x tag).loghead = s.loghead := rfl
@[simp] theorem State.setVLa_logtail (s : State) (r : VReg) (la : La) (x : Line) (tag : Tag) : (s.setVLa r la x tag).logtail = s.logtail := rfl
@[simp] theorem State.setVLa_loglost (s : State) (r : VReg) (la : La) (x : Line) (tag : Tag) : (s.setVLa r la x tag).loglost = s.loglost := rfl
@[simp] theorem State.setVLa_logpost (s : State) (r : VReg) (la : La) (x : Line) (tag : Tag) : (s.setVLa r la x tag).logpost = s.logpost := rfl
@[simp] theorem State.setVLa_hreply (s : State) (r : VReg) (la : La) (x : Line) (tag : Tag) : (s.setVLa r la x tag).hreply = s.hreply := rfl
@[simp] theorem State.setVLa_msix (s : State) (r : VReg) (la : La) (x : Line) (tag : Tag) : (s.setVLa r la x tag).msix = s.msix := rfl
@[simp] theorem State.setVLa_cxl (s : State) (r : VReg) (la : La) (x : Line) (tag : Tag) : (s.setVLa r la x tag).cxl = s.cxl := rfl
@[simp] theorem State.setVLa_absent (s : State) (r : VReg) (la : La) (x : Line) (tag : Tag) : (s.setVLa r la x tag).absent = s.absent := rfl
@[simp] theorem State.setVLa_preempts (s : State) (r : VReg) (la : La) (x : Line) (tag : Tag) : (s.setVLa r la x tag).preempts = s.preempts := rfl
@[simp] theorem State.setVLa_resumes (s : State) (r : VReg) (la : La) (x : Line) (tag : Tag) : (s.setVLa r la x tag).resumes = s.resumes := rfl
@[simp] theorem State.setVLa_migrating (s : State) (r : VReg) (la : La) (x : Line) (tag : Tag) : (s.setVLa r la x tag).migrating = s.migrating := rfl
@[simp] theorem State.setVLa_phase (s : State) (r : VReg) (la : La) (x : Line) (tag : Tag) : (s.setVLa r la x tag).phase = s.phase := rfl
@[simp] theorem State.setVLa_startNo (s : State) (r : VReg) (la : La) (x : Line) (tag : Tag) : (s.setVLa r la x tag).startNo = s.startNo := rfl
@[simp] theorem State.setVLa_record (s : State) (r : VReg) (la : La) (x : Line) (tag : Tag) : (s.setVLa r la x tag).record = s.record := rfl
@[simp] theorem State.setVLa_config (s : State) (r : VReg) (la : La) (x : Line) (tag : Tag) : (s.setVLa r la x tag).config = s.config := rfl
@[simp] theorem State.setVLa_configOk (s : State) (r : VReg) (la : La) (x : Line) (tag : Tag) : (s.setVLa r la x tag).configOk = s.configOk := rfl
@[simp] theorem State.setVLa_fuseSpare (s : State) (r : VReg) (la : La) (x : Line) (tag : Tag) : (s.setVLa r la x tag).fuseSpare = s.fuseSpare := rfl
@[simp] theorem State.setVLa_spareRead (s : State) (r : VReg) (la : La) (x : Line) (tag : Tag) : (s.setVLa r la x tag).spareRead = s.spareRead := rfl
@[simp] theorem State.setVLa_configRead (s : State) (r : VReg) (la : La) (x : Line) (tag : Tag) : (s.setVLa r la x tag).configRead = s.configRead := rfl
@[simp] theorem State.setVLa_fwA (s : State) (r : VReg) (la : La) (x : Line) (tag : Tag) : (s.setVLa r la x tag).fwA = s.fwA := rfl
@[simp] theorem State.setVLa_fwB (s : State) (r : VReg) (la : La) (x : Line) (tag : Tag) : (s.setVLa r la x tag).fwB = s.fwB := rfl
@[simp] theorem State.setVLa_edDigest (s : State) (r : VReg) (la : La) (x : Line) (tag : Tag) : (s.setVLa r la x tag).edDigest = s.edDigest := rfl
@[simp] theorem State.setVLa_mlDigest (s : State) (r : VReg) (la : La) (x : Line) (tag : Tag) : (s.setVLa r la x tag).mlDigest = s.mlDigest := rfl
@[simp] theorem State.setVLa_minVersion (s : State) (r : VReg) (la : La) (x : Line) (tag : Tag) : (s.setVLa r la x tag).minVersion = s.minVersion := rfl
@[simp] theorem State.setVLa_therm (s : State) (r : VReg) (la : La) (x : Line) (tag : Tag) : (s.setVLa r la x tag).therm = s.therm := rfl
@[simp] theorem State.setVLa_sigs (s : State) (r : VReg) (la : La) (x : Line) (tag : Tag) : (s.setVLa r la x tag).sigs = s.sigs := rfl
@[simp] theorem State.setVLa_opticalDown (s : State) (r : VReg) (la : La) (x : Line) (tag : Tag) : (s.setVLa r la x tag).opticalDown = s.opticalDown := rfl
@[simp] theorem State.setVLa_schedule (s : State) (r : VReg) (la : La) (x : Line) (tag : Tag) : (s.setVLa r la x tag).schedule = s.schedule := rfl
@[simp] theorem State.setVLa_turn (s : State) (r : VReg) (la : La) (x : Line) (tag : Tag) : (s.setVLa r la x tag).turn = s.turn := rfl
@[simp] theorem State.setVLa_view (s : State) (r : VReg) (la : La) (x : Line) (tag : Tag) : (s.setVLa r la x tag).view = s.view := rfl
@[simp] theorem State.setVLa_core (s : State) (r : VReg) (la : La) (x : Line) (tag : Tag) : (s.setVLa r la x tag).core = s.core := rfl
@[simp] theorem State.setVLa_coreAt (s : State) (r : VReg) (la : La) (x : Line) (tag : Tag) : (s.setVLa r la x tag).coreAt = s.coreAt := rfl
@[simp] theorem State.setVLa_ended (s : State) (r : VReg) (la : La) (x : Line) (tag : Tag) : (s.setVLa r la x tag).ended = s.ended := rfl
@[simp] theorem State.setVLa_walkLog (s : State) (r : VReg) (la : La) (x : Line) (tag : Tag) : (s.setVLa r la x tag).walkLog = s.walkLog := rfl
@[simp] theorem State.setVLa_part (s : State) (r : VReg) (la : La) (x : Line) (tag : Tag) : (s.setVLa r la x tag).part = s.part := rfl
@[simp] theorem State.setVLa_pieceNo (s : State) (r : VReg) (la : La) (x : Line) (tag : Tag) : (s.setVLa r la x tag).pieceNo = s.pieceNo := rfl
@[simp] theorem State.setVLa_onLinks (s : State) (r : VReg) (la : La) (x : Line) (tag : Tag) : (s.setVLa r la x tag).onLinks = s.onLinks := rfl
@[simp] theorem State.setVLa_passed (s : State) (r : VReg) (la : La) (x : Line) (tag : Tag) : (s.setVLa r la x tag).passed = s.passed := rfl
@[simp] theorem State.setVLa_half (s : State) (r : VReg) (la : La) (x : Line) (tag : Tag) : (s.setVLa r la x tag).half = s.half := rfl

@[simp] theorem State.setTile_mem (s : State) (n : Nat) (x : Tile) : (s.setTile n x).mem = s.mem := rfl
@[simp] theorem State.setTile_bad (s : State) (n : Nat) (x : Tile) : (s.setTile n x).bad = s.bad := rfl
@[simp] theorem State.setTile_counts (s : State) (n : Nat) (x : Tile) : (s.setTile n x).counts = s.counts := rfl
@[simp] theorem State.setTile_l2 (s : State) (n : Nat) (x : Tile) : (s.setTile n x).l2 = s.l2 := rfl
@[simp] theorem State.setTile_corrL2 (s : State) (n : Nat) (x : Tile) : (s.setTile n x).corrL2 = s.corrL2 := rfl
@[simp] theorem State.setTile_sptbase (s : State) (n : Nat) (x : Tile) : (s.setTile n x).sptbase = s.sptbase := rfl
@[simp] theorem State.setTile_chgbase (s : State) (n : Nat) (x : Tile) : (s.setTile n x).chgbase = s.chgbase := rfl
@[simp] theorem State.setTile_nearsz (s : State) (n : Nat) (x : Tile) : (s.setTile n x).nearsz = s.nearsz := rfl
@[simp] theorem State.setTile_pkgid (s : State) (n : Nat) (x : Tile) : (s.setTile n x).pkgid = s.pkgid := rfl
@[simp] theorem State.setTile_spare (s : State) (n : Nat) (x : Tile) : (s.setTile n x).spare = s.spare := rfl
@[simp] theorem State.setTile_locked (s : State) (n : Nat) (x : Tile) : (s.setTile n x).locked = s.locked := rfl
@[simp] theorem State.setTile_walker (s : State) (n : Nat) (x : Tile) : (s.setTile n x).walker = s.walker := rfl
@[simp] theorem State.setTile_strands (s : State) (n : Nat) (x : Tile) : (s.setTile n x).strands = s.strands := rfl
@[simp] theorem State.setTile_layers (s : State) (n : Nat) (x : Tile) : (s.setTile n x).layers = s.layers := rfl
@[simp] theorem State.setTile_stks (s : State) (n : Nat) (x : Tile) : (s.setTile n x).stks = s.stks := rfl
@[simp] theorem State.setTile_cores (s : State) (n : Nat) (x : Tile) : (s.setTile n x).cores = s.cores := rfl
@[simp] theorem State.setTile_msgs (s : State) (n : Nat) (x : Tile) : (s.setTile n x).msgs = s.msgs := rfl
@[simp] theorem State.setTile_seqs (s : State) (n : Nat) (x : Tile) : (s.setTile n x).seqs = s.seqs := rfl
@[simp] theorem State.setTile_invls (s : State) (n : Nat) (x : Tile) : (s.setTile n x).invls = s.invls := rfl
@[simp] theorem State.setTile_optmap (s : State) (n : Nat) (x : Tile) : (s.setTile n x).optmap = s.optmap := rfl
@[simp] theorem State.setTile_packets (s : State) (n : Nat) (x : Tile) : (s.setTile n x).packets = s.packets := rfl
@[simp] theorem State.setTile_portOut (s : State) (n : Nat) (x : Tile) : (s.setTile n x).portOut = s.portOut := rfl
@[simp] theorem State.setTile_portSeq (s : State) (n : Nat) (x : Tile) : (s.setTile n x).portSeq = s.portSeq := rfl
@[simp] theorem State.setTile_portSeen (s : State) (n : Nat) (x : Tile) : (s.setTile n x).portSeen = s.portSeen := rfl
@[simp] theorem State.setTile_queues (s : State) (n : Nat) (x : Tile) : (s.setTile n x).queues = s.queues := rfl
@[simp] theorem State.setTile_logbase (s : State) (n : Nat) (x : Tile) : (s.setTile n x).logbase = s.logbase := rfl
@[simp] theorem State.setTile_logsize (s : State) (n : Nat) (x : Tile) : (s.setTile n x).logsize = s.logsize := rfl
@[simp] theorem State.setTile_loghead (s : State) (n : Nat) (x : Tile) : (s.setTile n x).loghead = s.loghead := rfl
@[simp] theorem State.setTile_logtail (s : State) (n : Nat) (x : Tile) : (s.setTile n x).logtail = s.logtail := rfl
@[simp] theorem State.setTile_loglost (s : State) (n : Nat) (x : Tile) : (s.setTile n x).loglost = s.loglost := rfl
@[simp] theorem State.setTile_logpost (s : State) (n : Nat) (x : Tile) : (s.setTile n x).logpost = s.logpost := rfl
@[simp] theorem State.setTile_hreply (s : State) (n : Nat) (x : Tile) : (s.setTile n x).hreply = s.hreply := rfl
@[simp] theorem State.setTile_msix (s : State) (n : Nat) (x : Tile) : (s.setTile n x).msix = s.msix := rfl
@[simp] theorem State.setTile_cxl (s : State) (n : Nat) (x : Tile) : (s.setTile n x).cxl = s.cxl := rfl
@[simp] theorem State.setTile_absent (s : State) (n : Nat) (x : Tile) : (s.setTile n x).absent = s.absent := rfl
@[simp] theorem State.setTile_preempts (s : State) (n : Nat) (x : Tile) : (s.setTile n x).preempts = s.preempts := rfl
@[simp] theorem State.setTile_resumes (s : State) (n : Nat) (x : Tile) : (s.setTile n x).resumes = s.resumes := rfl
@[simp] theorem State.setTile_migrating (s : State) (n : Nat) (x : Tile) : (s.setTile n x).migrating = s.migrating := rfl
@[simp] theorem State.setTile_phase (s : State) (n : Nat) (x : Tile) : (s.setTile n x).phase = s.phase := rfl
@[simp] theorem State.setTile_startNo (s : State) (n : Nat) (x : Tile) : (s.setTile n x).startNo = s.startNo := rfl
@[simp] theorem State.setTile_record (s : State) (n : Nat) (x : Tile) : (s.setTile n x).record = s.record := rfl
@[simp] theorem State.setTile_config (s : State) (n : Nat) (x : Tile) : (s.setTile n x).config = s.config := rfl
@[simp] theorem State.setTile_configOk (s : State) (n : Nat) (x : Tile) : (s.setTile n x).configOk = s.configOk := rfl
@[simp] theorem State.setTile_fuseSpare (s : State) (n : Nat) (x : Tile) : (s.setTile n x).fuseSpare = s.fuseSpare := rfl
@[simp] theorem State.setTile_spareRead (s : State) (n : Nat) (x : Tile) : (s.setTile n x).spareRead = s.spareRead := rfl
@[simp] theorem State.setTile_configRead (s : State) (n : Nat) (x : Tile) : (s.setTile n x).configRead = s.configRead := rfl
@[simp] theorem State.setTile_fwA (s : State) (n : Nat) (x : Tile) : (s.setTile n x).fwA = s.fwA := rfl
@[simp] theorem State.setTile_fwB (s : State) (n : Nat) (x : Tile) : (s.setTile n x).fwB = s.fwB := rfl
@[simp] theorem State.setTile_edDigest (s : State) (n : Nat) (x : Tile) : (s.setTile n x).edDigest = s.edDigest := rfl
@[simp] theorem State.setTile_mlDigest (s : State) (n : Nat) (x : Tile) : (s.setTile n x).mlDigest = s.mlDigest := rfl
@[simp] theorem State.setTile_minVersion (s : State) (n : Nat) (x : Tile) : (s.setTile n x).minVersion = s.minVersion := rfl
@[simp] theorem State.setTile_therm (s : State) (n : Nat) (x : Tile) : (s.setTile n x).therm = s.therm := rfl
@[simp] theorem State.setTile_sigs (s : State) (n : Nat) (x : Tile) : (s.setTile n x).sigs = s.sigs := rfl
@[simp] theorem State.setTile_opticalDown (s : State) (n : Nat) (x : Tile) : (s.setTile n x).opticalDown = s.opticalDown := rfl
@[simp] theorem State.setTile_schedule (s : State) (n : Nat) (x : Tile) : (s.setTile n x).schedule = s.schedule := rfl
@[simp] theorem State.setTile_turn (s : State) (n : Nat) (x : Tile) : (s.setTile n x).turn = s.turn := rfl
@[simp] theorem State.setTile_me (s : State) (n : Nat) (x : Tile) : (s.setTile n x).me = s.me := rfl
@[simp] theorem State.setTile_view (s : State) (n : Nat) (x : Tile) : (s.setTile n x).view = s.view := rfl
@[simp] theorem State.setTile_core (s : State) (n : Nat) (x : Tile) : (s.setTile n x).core = s.core := rfl
@[simp] theorem State.setTile_coreAt (s : State) (n : Nat) (x : Tile) : (s.setTile n x).coreAt = s.coreAt := rfl
@[simp] theorem State.setTile_ended (s : State) (n : Nat) (x : Tile) : (s.setTile n x).ended = s.ended := rfl
@[simp] theorem State.setTile_walkLog (s : State) (n : Nat) (x : Tile) : (s.setTile n x).walkLog = s.walkLog := rfl
@[simp] theorem State.setTile_part (s : State) (n : Nat) (x : Tile) : (s.setTile n x).part = s.part := rfl
@[simp] theorem State.setTile_pieceNo (s : State) (n : Nat) (x : Tile) : (s.setTile n x).pieceNo = s.pieceNo := rfl
@[simp] theorem State.setTile_onLinks (s : State) (n : Nat) (x : Tile) : (s.setTile n x).onLinks = s.onLinks := rfl
@[simp] theorem State.setTile_passed (s : State) (n : Nat) (x : Tile) : (s.setTile n x).passed = s.passed := rfl
@[simp] theorem State.setTile_half (s : State) (n : Nat) (x : Tile) : (s.setTile n x).half = s.half := rfl

@[simp] theorem State.setCore_mem (s : State) (n : Nat) (x : Core) : (s.setCore n x).mem = s.mem := rfl
@[simp] theorem State.setCore_bad (s : State) (n : Nat) (x : Core) : (s.setCore n x).bad = s.bad := rfl
@[simp] theorem State.setCore_counts (s : State) (n : Nat) (x : Core) : (s.setCore n x).counts = s.counts := rfl
@[simp] theorem State.setCore_l2 (s : State) (n : Nat) (x : Core) : (s.setCore n x).l2 = s.l2 := rfl
@[simp] theorem State.setCore_corrL2 (s : State) (n : Nat) (x : Core) : (s.setCore n x).corrL2 = s.corrL2 := rfl
@[simp] theorem State.setCore_sptbase (s : State) (n : Nat) (x : Core) : (s.setCore n x).sptbase = s.sptbase := rfl
@[simp] theorem State.setCore_chgbase (s : State) (n : Nat) (x : Core) : (s.setCore n x).chgbase = s.chgbase := rfl
@[simp] theorem State.setCore_nearsz (s : State) (n : Nat) (x : Core) : (s.setCore n x).nearsz = s.nearsz := rfl
@[simp] theorem State.setCore_pkgid (s : State) (n : Nat) (x : Core) : (s.setCore n x).pkgid = s.pkgid := rfl
@[simp] theorem State.setCore_spare (s : State) (n : Nat) (x : Core) : (s.setCore n x).spare = s.spare := rfl
@[simp] theorem State.setCore_locked (s : State) (n : Nat) (x : Core) : (s.setCore n x).locked = s.locked := rfl
@[simp] theorem State.setCore_walker (s : State) (n : Nat) (x : Core) : (s.setCore n x).walker = s.walker := rfl
@[simp] theorem State.setCore_tiles (s : State) (n : Nat) (x : Core) : (s.setCore n x).tiles = s.tiles := rfl
@[simp] theorem State.setCore_strands (s : State) (n : Nat) (x : Core) : (s.setCore n x).strands = s.strands := rfl
@[simp] theorem State.setCore_layers (s : State) (n : Nat) (x : Core) : (s.setCore n x).layers = s.layers := rfl
@[simp] theorem State.setCore_stks (s : State) (n : Nat) (x : Core) : (s.setCore n x).stks = s.stks := rfl
@[simp] theorem State.setCore_msgs (s : State) (n : Nat) (x : Core) : (s.setCore n x).msgs = s.msgs := rfl
@[simp] theorem State.setCore_seqs (s : State) (n : Nat) (x : Core) : (s.setCore n x).seqs = s.seqs := rfl
@[simp] theorem State.setCore_invls (s : State) (n : Nat) (x : Core) : (s.setCore n x).invls = s.invls := rfl
@[simp] theorem State.setCore_optmap (s : State) (n : Nat) (x : Core) : (s.setCore n x).optmap = s.optmap := rfl
@[simp] theorem State.setCore_packets (s : State) (n : Nat) (x : Core) : (s.setCore n x).packets = s.packets := rfl
@[simp] theorem State.setCore_portOut (s : State) (n : Nat) (x : Core) : (s.setCore n x).portOut = s.portOut := rfl
@[simp] theorem State.setCore_portSeq (s : State) (n : Nat) (x : Core) : (s.setCore n x).portSeq = s.portSeq := rfl
@[simp] theorem State.setCore_portSeen (s : State) (n : Nat) (x : Core) : (s.setCore n x).portSeen = s.portSeen := rfl
@[simp] theorem State.setCore_queues (s : State) (n : Nat) (x : Core) : (s.setCore n x).queues = s.queues := rfl
@[simp] theorem State.setCore_logbase (s : State) (n : Nat) (x : Core) : (s.setCore n x).logbase = s.logbase := rfl
@[simp] theorem State.setCore_logsize (s : State) (n : Nat) (x : Core) : (s.setCore n x).logsize = s.logsize := rfl
@[simp] theorem State.setCore_loghead (s : State) (n : Nat) (x : Core) : (s.setCore n x).loghead = s.loghead := rfl
@[simp] theorem State.setCore_logtail (s : State) (n : Nat) (x : Core) : (s.setCore n x).logtail = s.logtail := rfl
@[simp] theorem State.setCore_loglost (s : State) (n : Nat) (x : Core) : (s.setCore n x).loglost = s.loglost := rfl
@[simp] theorem State.setCore_logpost (s : State) (n : Nat) (x : Core) : (s.setCore n x).logpost = s.logpost := rfl
@[simp] theorem State.setCore_hreply (s : State) (n : Nat) (x : Core) : (s.setCore n x).hreply = s.hreply := rfl
@[simp] theorem State.setCore_msix (s : State) (n : Nat) (x : Core) : (s.setCore n x).msix = s.msix := rfl
@[simp] theorem State.setCore_cxl (s : State) (n : Nat) (x : Core) : (s.setCore n x).cxl = s.cxl := rfl
@[simp] theorem State.setCore_absent (s : State) (n : Nat) (x : Core) : (s.setCore n x).absent = s.absent := rfl
@[simp] theorem State.setCore_preempts (s : State) (n : Nat) (x : Core) : (s.setCore n x).preempts = s.preempts := rfl
@[simp] theorem State.setCore_resumes (s : State) (n : Nat) (x : Core) : (s.setCore n x).resumes = s.resumes := rfl
@[simp] theorem State.setCore_migrating (s : State) (n : Nat) (x : Core) : (s.setCore n x).migrating = s.migrating := rfl
@[simp] theorem State.setCore_phase (s : State) (n : Nat) (x : Core) : (s.setCore n x).phase = s.phase := rfl
@[simp] theorem State.setCore_startNo (s : State) (n : Nat) (x : Core) : (s.setCore n x).startNo = s.startNo := rfl
@[simp] theorem State.setCore_record (s : State) (n : Nat) (x : Core) : (s.setCore n x).record = s.record := rfl
@[simp] theorem State.setCore_config (s : State) (n : Nat) (x : Core) : (s.setCore n x).config = s.config := rfl
@[simp] theorem State.setCore_configOk (s : State) (n : Nat) (x : Core) : (s.setCore n x).configOk = s.configOk := rfl
@[simp] theorem State.setCore_fuseSpare (s : State) (n : Nat) (x : Core) : (s.setCore n x).fuseSpare = s.fuseSpare := rfl
@[simp] theorem State.setCore_spareRead (s : State) (n : Nat) (x : Core) : (s.setCore n x).spareRead = s.spareRead := rfl
@[simp] theorem State.setCore_configRead (s : State) (n : Nat) (x : Core) : (s.setCore n x).configRead = s.configRead := rfl
@[simp] theorem State.setCore_fwA (s : State) (n : Nat) (x : Core) : (s.setCore n x).fwA = s.fwA := rfl
@[simp] theorem State.setCore_fwB (s : State) (n : Nat) (x : Core) : (s.setCore n x).fwB = s.fwB := rfl
@[simp] theorem State.setCore_edDigest (s : State) (n : Nat) (x : Core) : (s.setCore n x).edDigest = s.edDigest := rfl
@[simp] theorem State.setCore_mlDigest (s : State) (n : Nat) (x : Core) : (s.setCore n x).mlDigest = s.mlDigest := rfl
@[simp] theorem State.setCore_minVersion (s : State) (n : Nat) (x : Core) : (s.setCore n x).minVersion = s.minVersion := rfl
@[simp] theorem State.setCore_therm (s : State) (n : Nat) (x : Core) : (s.setCore n x).therm = s.therm := rfl
@[simp] theorem State.setCore_sigs (s : State) (n : Nat) (x : Core) : (s.setCore n x).sigs = s.sigs := rfl
@[simp] theorem State.setCore_opticalDown (s : State) (n : Nat) (x : Core) : (s.setCore n x).opticalDown = s.opticalDown := rfl
@[simp] theorem State.setCore_schedule (s : State) (n : Nat) (x : Core) : (s.setCore n x).schedule = s.schedule := rfl
@[simp] theorem State.setCore_turn (s : State) (n : Nat) (x : Core) : (s.setCore n x).turn = s.turn := rfl
@[simp] theorem State.setCore_me (s : State) (n : Nat) (x : Core) : (s.setCore n x).me = s.me := rfl
@[simp] theorem State.setCore_view (s : State) (n : Nat) (x : Core) : (s.setCore n x).view = s.view := rfl
@[simp] theorem State.setCore_core (s : State) (n : Nat) (x : Core) : (s.setCore n x).core = s.core := rfl
@[simp] theorem State.setCore_coreAt (s : State) (n : Nat) (x : Core) : (s.setCore n x).coreAt = s.coreAt := rfl
@[simp] theorem State.setCore_ended (s : State) (n : Nat) (x : Core) : (s.setCore n x).ended = s.ended := rfl
@[simp] theorem State.setCore_walkLog (s : State) (n : Nat) (x : Core) : (s.setCore n x).walkLog = s.walkLog := rfl
@[simp] theorem State.setCore_part (s : State) (n : Nat) (x : Core) : (s.setCore n x).part = s.part := rfl
@[simp] theorem State.setCore_pieceNo (s : State) (n : Nat) (x : Core) : (s.setCore n x).pieceNo = s.pieceNo := rfl
@[simp] theorem State.setCore_onLinks (s : State) (n : Nat) (x : Core) : (s.setCore n x).onLinks = s.onLinks := rfl
@[simp] theorem State.setCore_passed (s : State) (n : Nat) (x : Core) : (s.setCore n x).passed = s.passed := rfl
@[simp] theorem State.setCore_half (s : State) (n : Nat) (x : Core) : (s.setCore n x).half = s.half := rfl

end Sys2Proof.Machine
end

