-- ==== Sys2Proof/Laws/Ops.lean ====
section
/-!
SUPPORT. What the shared operations can do: the instruction monad and its run, the sparse tables, the registers, taking a condition,
the checks of an access, the scratchpad and the L2 homes.
-/

namespace Sys2Proof.Machine

/-! ### The instruction monad -/

theorem M.bind_ok {α β : Type} {m : M α} {f : α → M β} {s t : State} {a : α} (h : m s = .ok a t) : (m >>= f) s = f a t := by
  simp only [bind, EStateM.bind, h]
theorem M.bind_error {α β : Type} {m : M α} {f : α → M β} {s t : State} {e : Stop} (h : m s = .error e t) : (m >>= f) s = .error e t := by
  simp only [bind, EStateM.bind, h]
/-- What a sequence answers, it answers through its first part. -/
theorem M.bind_ok_inv {α β : Type} {m : M α} {f : α → M β} {s t : State} {b : β} (h : (m >>= f) s = .ok b t) :
    ∃ a u, m s = .ok a u ∧ f a u = .ok b t := by
  simp only [bind, EStateM.bind] at h
  split at h
  · exact ⟨_, _, ‹_›, h⟩
  · cases h

@[simp] theorem M.pure_apply {α : Type} (a : α) (s : State) : (pure a : M α) s = .ok a s := rfl
@[simp] theorem M.get_apply (s : State) : (get : M State) s = .ok s s := rfl
@[simp] theorem M.set_apply (s t : State) : (set t : M Unit) s = .ok () t := rfl
@[simp] theorem M.modify_apply (f : State → State) (s : State) : (modify f : M Unit) s = .ok () (f s) := rfl
@[simp] theorem M.throw_apply {α : Type} (e : Stop) (s : State) : (throw e : M α) s = .error e s := rfl

@[simp] theorem trapIf_false (c : Cond) (s : State) : trapIf false c s = .ok () s := rfl
@[simp] theorem trapIf_true (c : Cond) (s : State) : trapIf true c s = .error (.cond c) s := rfl
@[simp] theorem waitIf_false (w : Wait) (s : State) : waitIf false w s = .ok () s := rfl
@[simp] theorem waitIf_true (w : Wait) (s : State) : waitIf true w s = .error (.wait w) s := rfl

/-! ### The end of an instruction (R384) -/

/-- An instruction that has changed nothing leaves nothing behind. -/
@[simp] theorem State.keep_self (s : State) : s.keep s = s := by
  have hp : (s.packets.filter fun p => s.packets.contains p) = s.packets := List.filter_eq_self.mpr (by simp)
  have hm (f : Msg → Bool) : (s.msgs.filter fun m => s.msgs.contains m || f m) = s.msgs :=
    List.filter_eq_self.mpr (by simp +contextual)
  simp only [State.keep, State.replay, hp, hm, List.drop_length, List.foldl_nil]

/-- A meaning ends in its effect, in a condition, or in a wait: never in a fault or a refusal. -/
theorem run_cases (m : M Unit) (s : State) :
    (∃ t, m s = .ok () t ∧ run m s = .next { t with ended := .ok }) ∨
    (∃ c t, m s = .error (.cond c) t ∧ run m s = .next ((s.keep t).takeCond c)) ∨
    ∃ w t, m s = .error (.wait w) t ∧ run m s = .next (t.enterWait w) := by
  unfold run
  split
  · exact .inl ⟨_, ‹_›, rfl⟩
  · exact .inr (.inl ⟨_, _, ‹_›, rfl⟩)
  · exact .inr (.inr ⟨_, _, ‹_›, rfl⟩)

theorem run_ok {m : M Unit} {s t : State} {u : Unit} (h : m s = .ok u t) : run m s = .next { t with ended := .ok } := by
  simp only [run, h]
theorem run_cond {m : M Unit} {s : State} {c : Cond} (h : m s = .error (.cond c) s) : run m s = .next (s.takeCond c) := by
  simp only [run, h, State.keep_self]
theorem run_wait {m : M Unit} {s t : State} {w : Wait} (h : m s = .error (.wait w) t) : run m s = .next (t.enterWait w) := by
  simp only [run, h]

/-! ### Elements held sparsely -/

@[simp] theorem State.tile_setTile (s : State) (n : Nat) (x : Tile) : (s.setTile n x).tile n = x := by
  simp [State.tile, State.setTile, look_put_same]
theorem State.tile_setTile_other {s : State} {n k : Nat} (h : k ≠ n) (x : Tile) : (s.setTile n x).tile k = s.tile k := by
  simp [State.tile, State.setTile, look_put_other h]
@[simp] theorem State.tile_modTile (s : State) (n : Nat) (f : Tile → Tile) : (s.modTile n f).tile n = f (s.tile n) := by
  simp [State.modTile]
theorem State.tile_modTile_other {s : State} {n k : Nat} (h : k ≠ n) (f : Tile → Tile) : (s.modTile n f).tile k = s.tile k :=
  State.tile_setTile_other h _
@[simp] theorem State.layer_setLayer (s : State) (n : Nat) (x : Layer) : (s.setLayer n x).layer n = x := by
  simp [State.layer, State.setLayer, look_put_same]
theorem State.layer_setLayer_other {s : State} {n k : Nat} (h : k ≠ n) (x : Layer) : (s.setLayer n x).layer k = s.layer k := by
  simp [State.layer, State.setLayer, look_put_other h]
@[simp] theorem State.stack_setStack (s : State) (n : Nat) (x : Stack) : (s.setStack n x).stack n = x := by
  simp [State.stack, State.setStack, look_put_same]
theorem State.stack_setStack_other {s : State} {n k : Nat} (h : k ≠ n) (x : Stack) : (s.setStack n x).stack k = s.stack k := by
  simp [State.stack, State.setStack, look_put_other h]
@[simp] theorem State.coreOf_setCore (s : State) (n : Nat) (x : Core) : (s.setCore n x).coreOf n = x := by
  simp [State.coreOf, State.setCore, look_put_same]
theorem State.coreOf_setCore_other {s : State} {n k : Nat} (h : k ≠ n) (x : Core) : (s.setCore n x).coreOf k = s.coreOf k := by
  simp [State.coreOf, State.setCore, look_put_other h]
@[simp] theorem State.myTile_modMyTile (s : State) (f : Tile → Tile) : (s.modMyTile f).myTile = f s.myTile :=
  State.tile_modTile s s.here f
@[simp] theorem State.modMyTile_me (s : State) (f : Tile → Tile) : (s.modMyTile f).me = s.me := rfl

/-! ### Registers (R27, R31) -/

theorem State.setG_zero {s : State} {d : GReg} (h : d.val = 0) (x : Word) : s.setG d x = s := by
  simp [State.setG, Strand.setG, h]
theorem State.g_zero {s : State} {r : GReg} (h : r.val = 0) : s.g r = 0 := by
  simp [State.g, h]
theorem State.m_zero {s : State} {r : MReg} (h : r.val = 0) : s.m r = BitVec.allOnes 128 := by
  simp [State.m, h]
theorem Strand.setG_g {t : Strand} {d : GReg} (h : d.val ≠ 0) (x : Word) : (t.setG d x).g = t.g.set d x := by
  simp [Strand.setG, h]
@[simp] theorem Strand.setV_v (t : Strand) (d : VReg) (x : Line) (tag : Tag) : (t.setV d x tag).v = t.v.set d x := rfl
@[simp] theorem Strand.setV_vtag (t : Strand) (d : VReg) (x : Line) (tag : Tag) : (t.setV d x tag).vtag = t.vtag.set d tag := rfl
@[simp] theorem Strand.setK_k (t : Strand) (d : KReg) (x : Word) : (t.setK d x).k = t.k.set d x := rfl

/-! ### Conditions (R359–R361, R368) -/

/-- A trap that the strand's handler takes. -/
theorem State.takeCond_handler {s : State} {c : Cond} (hf : c.frame = false) (hw : c.fwd = false) (h : s.me.canHandle = true)
    (hq : s.leaveQueues s.me.key = s) : s.takeCond c = { s with me := s.me.enterHandler c, ended := .cond c } := by
  simp [State.takeCond, hq, hf, hw, h]

@[simp] theorem Strand.park_state (t : Strand) (r : BitVec 4) : (t.park r).state = 3 := rfl
@[simp] theorem Strand.park_reason (t : Strand) (r : BitVec 4) : (t.park r).reason = r := rfl
@[simp] theorem Strand.park_slot (t : Strand) (r : BitVec 4) : (t.park r).slot = none := rfl
@[simp] theorem Strand.enterHandler_pc (t : Strand) (c : Cond) : (t.enterHandler c).pc = t.tvec := by
  simp only [Strand.enterHandler, Strand.writeTrap, Strand.flushHeld]
@[simp] theorem Strand.enterHandler_intrap (t : Strand) (c : Cond) : (t.enterHandler c).intrap = true := rfl

/-! ### The checks of an access (R210) -/

theorem check_addrform {w : Who} {a : Word} {n align : Nat} {s : State} (h : canon a = false) :
    check w a n align s = .error (.cond { code := ADDRFORM, taddr := a }) s := by
  unfold check
  exact M.bind_error (by simp [h])

theorem check_misalign {w : Who} {a : Word} {n align : Nat} {s : State} (h : canon a = true) (ha : a.toNat % align ≠ 0) :
    check w a n align s = .error (.cond (alignCond a align)) s := by
  unfold check
  rw [M.bind_ok (t := s) (a := ()) (by simp [h])]
  exact M.bind_error (by rw [show (a.toNat % align != 0) = true by simp [ha]]; rfl)

/-- Bytes of the scratch window that the strand may use. -/
theorem check_scratch {w : Who} {a : Word} {off n align : Nat} {s : State} (ha : a.toNat = Config.scratchBase + off) (hc : canon a = true)
    (hal : a.toNat % align = 0) (hr : off + n ≤ Config.scratchSize) (h0 : off < Config.scratchSize)
    (ho : ownerFail s s.here s.me.key.asid s.me.supv off n = none) :
    check w a n align s = .ok [{ va := a, len := n, place := .scr off }] s := by
  have hs : isScratch a.toNat = true := by simp [isScratch, ha, h0]
  have e : a.toNat - Config.scratchBase = off := by omega
  unfold check
  rw [M.bind_ok (t := s) (a := ()) (by simp [hc]), M.bind_ok (t := s) (a := ()) (by simp [hal])]
  simp only [hs, if_true, e]
  rw [M.bind_ok (t := s) (a := ()) (by simp [Nat.not_lt.mpr hr])]
  have hown : checkOwner off n s = .ok () s := by
    unfold checkOwner
    rw [M.bind_ok (M.get_apply s)]
    simp [ho]
  rw [M.bind_ok hown]
  rfl

/-! ### Scratchpad (R103, R104) -/

theorem afterPieces_none {s : State} (hp : s.piecewise = false) (n : Nat) : afterPieces n s = .ok () s := by
  have h : s.part = none := by cases hs : s.part <;> simp_all [State.piecewise]
  unfold afterPieces
  rw [M.bind_ok (M.get_apply s)]
  simp [h]

theorem memLoad_scratch {w : Who} {a : Word} {off n : Nat} {s : State} (hp : s.piecewise = false) :
    memLoad w [{ va := a, len := n, place := .scr off }] s =
      .ok { val := (s.tile w.tile).scrRead off n, bad := (s.tile w.tile).scrBad off n } s := by
  have h : loadSome regRead w [{ va := a, len := n, place := .scr off }] s =
      .ok { val := (s.tile w.tile).scrRead off n, bad := (s.tile w.tile).scrBad off n } s := by
    simp [loadSome, hp, loadAll, loadPiece, bind, EStateM.bind, pure, EStateM.pure, get, getThe, MonadStateOf.get, EStateM.get]
  unfold memLoad loadPieces
  rw [M.bind_ok (M.get_apply s), M.bind_ok h, M.bind_ok (afterPieces_none hp _)]
  rfl

theorem memStore_scratch {w : Who} {a : Word} {off n v : Nat} {s : State} (hp : s.piecewise = false) :
    memStore w [{ va := a, len := n, place := .scr off }] v s = .ok () (s.modTile w.tile fun t => t.scrWrite off n (v % 256 ^ n)) := by
  have h : storeSome regWrite regRead w [{ va := a, len := n, place := .scr off }] v s =
      .ok () (s.modTile w.tile fun t => t.scrWrite off n (v % 256 ^ n)) := by
    simp [storeSome, hp, storeAll, storePiece, bind, EStateM.bind, pure, EStateM.pure, get, getThe, MonadStateOf.get, EStateM.get, set,
      EStateM.set]
  unfold memStore storePieces
  rw [M.bind_ok (M.get_apply s), M.bind_ok h]
  exact afterPieces_none (s := s.modTile _ _) hp _

@[simp] theorem Tile.scrWrite_full (t : Tile) (off n v : Nat) : (t.scrWrite off n v).full = t.full := rfl
@[simp] theorem Tile.scrWrite_feq (t : Tile) (off n v : Nat) : (t.scrWrite off n v).feq = t.feq := rfl

/-! ### The L2 homes (R112) -/

@[simp] theorem State.homeFill_mem (s : State) (n : Nat) : (s.homeFill n).mem = s.mem := by unfold State.homeFill; split <;> rfl
@[simp] theorem State.homeFill_me (s : State) (n : Nat) : (s.homeFill n).me = s.me := by unfold State.homeFill; split <;> rfl
@[simp] theorem State.homeFill_tiles (s : State) (n : Nat) : (s.homeFill n).tiles = s.tiles := by unfold State.homeFill; split <;> rfl
@[simp] theorem State.homeFill_strands (s : State) (n : Nat) : (s.homeFill n).strands = s.strands := by unfold State.homeFill; split <;> rfl
@[simp] theorem State.homeFill_cores (s : State) (n : Nat) : (s.homeFill n).cores = s.cores := by unfold State.homeFill; split <;> rfl
@[simp] theorem State.homeFill_stks (s : State) (n : Nat) : (s.homeFill n).stks = s.stks := by unfold State.homeFill; split <;> rfl
@[simp] theorem State.homeFill_msgs (s : State) (n : Nat) : (s.homeFill n).msgs = s.msgs := by unfold State.homeFill; split <;> rfl
@[simp] theorem State.homeWriteLine_mem (s : State) (n : Nat) (m : MaskV) (x : Line) : (s.homeWriteLine n m x).mem = s.mem := by
  simp [State.homeWriteLine]
@[simp] theorem State.homeWriteLine_me (s : State) (n : Nat) (m : MaskV) (x : Line) : (s.homeWriteLine n m x).me = s.me := by
  simp [State.homeWriteLine]
@[simp] theorem State.homeWriteLine_tiles (s : State) (n : Nat) (m : MaskV) (x : Line) : (s.homeWriteLine n m x).tiles = s.tiles := by
  simp [State.homeWriteLine]
@[simp] theorem State.homeWriteLine_strands (s : State) (n : Nat) (m : MaskV) (x : Line) : (s.homeWriteLine n m x).strands = s.strands := by
  simp [State.homeWriteLine]
@[simp] theorem State.homeWriteLine_cores (s : State) (n : Nat) (m : MaskV) (x : Line) : (s.homeWriteLine n m x).cores = s.cores := by
  simp [State.homeWriteLine]
@[simp] theorem State.homeWriteLine_stks (s : State) (n : Nat) (m : MaskV) (x : Line) : (s.homeWriteLine n m x).stks = s.stks := by
  simp [State.homeWriteLine]
@[simp] theorem State.homeWriteLine_msgs (s : State) (n : Nat) (m : MaskV) (x : Line) : (s.homeWriteLine n m x).msgs = s.msgs := by
  simp [State.homeWriteLine]
@[simp] theorem State.homeWrite_mem (s : State) (pa n v : Nat) : (s.homeWrite pa n v).mem = s.mem := by
  unfold State.homeWrite; split <;> simp
@[simp] theorem State.homeWrite_me (s : State) (pa n v : Nat) : (s.homeWrite pa n v).me = s.me := by
  unfold State.homeWrite; split <;> simp
@[simp] theorem State.homeWrite_tiles (s : State) (pa n v : Nat) : (s.homeWrite pa n v).tiles = s.tiles := by
  unfold State.homeWrite; split <;> simp
@[simp] theorem State.homeWrite_strands (s : State) (pa n v : Nat) : (s.homeWrite pa n v).strands = s.strands := by
  unfold State.homeWrite; split <;> simp
@[simp] theorem State.homeWrite_cores (s : State) (pa n v : Nat) : (s.homeWrite pa n v).cores = s.cores := by
  unfold State.homeWrite; split <;> simp
@[simp] theorem State.homeWrite_stks (s : State) (pa n v : Nat) : (s.homeWrite pa n v).stks = s.stks := by
  unfold State.homeWrite; split <;> simp
@[simp] theorem State.homeWrite_msgs (s : State) (pa n v : Nat) : (s.homeWrite pa n v).msgs = s.msgs := by
  unfold State.homeWrite; split <;> simp

/-- Filling a line changes nothing that a home serves. -/
theorem State.homeLine_homeFill (s : State) (n k : Nat) : (s.homeFill n).homeLine k = s.homeLine k := by
  unfold State.homeFill
  split
  · rfl
  · rename_i h
    simp only [State.homeLine, List.find?_cons]
    by_cases hk : n = k
    · subst hk
      simp only [decide_true]
      have : (s.l2.find? fun e => decide (e.addr = n)) = none := by simpa using h
      simp [this]
    · simp [hk, State.dramLine]

theorem State.homeRead_homeFill (s : State) (n pa k : Nat) : (s.homeFill n).homeRead pa k = s.homeRead pa k := by
  simp [State.homeRead, State.homeLine_homeFill]

/-! ### Releases and acquires at .t (R111) -/

theorem release_t (s : State) : release .t s = .ok () s := rfl
theorem State.acquire_t (s : State) : s.acquire .t = s := rfl

/-! ### Requests (R323, R424) -/

/-- A request that nothing makes travel is performed in its step, and answered as its receiver serves it. -/
theorem State.ask_served {s s1 : State} {key : Key} {src dst : Nat} {op : HomeOp} {a : HomeAns}
    (hm : s.msgs.find? (fun m => m.asks key src dst op) = none)
    (hc : s.crowdedFrom .req src (destOf dst (s.request key src dst op).body) = false) (ht : s.travels (s.request key src dst op) = false)
    (h : s.served src dst op = some (a, s1)) : s.ask key src dst op = .got op a s1 := by
  simp [State.ask, hm, hc, ht, h]

/-- A way on which every link works loses nothing (R421). -/
theorem State.lostOn_whole {s : State} (ht : s.tiles.all (fun e => e.2.failed.isEmpty) = true) (t : Trip) : s.lostOn t = none := by
  simp only [State.lostOn, ht, if_true]

theorem State.breaks_whole {s : State} (ht : s.tiles.all (fun e => e.2.failed.isEmpty) = true) (m : Msg) : s.breaks m = none := by
  simp only [State.breaks, State.lostOn_whole ht]

/-- With nothing in flight, over whole links, a request is performed in its step. -/
theorem State.ask_quiet {s s1 : State} {key : Key} {src dst : Nat} {op : HomeOp} {a : HomeAns} (hm : s.msgs = []) (ho : s.onLinks = false)
    (ht : s.tiles.all (fun e => e.2.failed.isEmpty) = true) (h : s.served src dst op = some (a, s1)) :
    s.ask key src dst op = .got op a s1 :=
  State.ask_served (by simp [hm]) (by simp [State.crowdedFrom, hm]) (by simp [State.travels, State.queued, hm, ho, State.breaks_whole ht]) h

theorem asked_served {s s1 : State} {op : HomeOp} {a : HomeAns} (h : s.ask s.me.key s.here 1024 op = .got op a s1) :
    asked op s = .ok (some (op, a)) s1 := by
  simp only [asked, M.bind_ok (M.get_apply s), h]
  rfl

end Sys2Proof.Machine
end

