-- ==== Sys2Proof/Tests/Slice0.lean ====
section
/-!
SUPPORT. The model's own tests: ill-formed terms, words written out from the manual's encodings, a witness for the hypotheses of every
statement, and single steps on the manual's worked examples.
-/

set_option Elab.async false

namespace Sys2Proof.Tests

open Sys2Proof Sys2Proof.Machine

/-! ### Helpers -/

/-- A strand of a supervisor space on tile 0, active in slot 0, with all its lines in the register cache. -/
def u0 : Strand := { Strand.reset with key := ⟨1, 1⟩, state := 1, supv := true, slot := some 0, present := BitVec.allOnes 32 }

/-- A cube that runs, with `u0` being stepped. -/
def s0 : State := { State.reset with phase := .running, me := u0 }

/-- The strand being stepped has these g registers. -/
def give (s : State) (l : List (GReg × Word)) : State := { s with me := { s.me with g := l.foldl (fun g e => g.set e.1 e.2) s.me.g } }

/-- The strand being stepped has these vector tags. -/
def tagged (s : State) (l : List (VReg × Tag)) : State := { s with me := { s.me with vtag := l.foldl (fun v e => v.set e.1 e.2) s.me.vtag } }

/-- The bytes of a scratchpad offset. -/
def sw (off : Nat) : Word := BitVec.ofNat 64 (Config.scratchBase + off)

def okM {ε α : Type} (r : EStateM.Result ε State α) : Bool := match r with
  | .ok _ _ => true
  | .error _ _ => false
def valM {ε α : Type} (d : α) (r : EStateM.Result ε State α) : α := match r with
  | .ok a _ => a
  | .error _ _ => d
def stM {ε α : Type} (r : EStateM.Result ε State α) : State := match r with
  | .ok _ s => s
  | .error _ s => s

theorem ran {ε α : Type} {m : EStateM ε State α} {s : State} (d : α) (h : okM (m s) = true) : m s = .ok (valM d (m s)) (stM (m s)) := by
  cases e : m s <;> simp_all [okM, valM, stM]

theorem ranU {ε : Type} {m : EStateM ε State Unit} {s : State} (h : okM (m s) = true) : m s = .ok () (stM (m s)) := ran () h

/-- The outcome is a next state with this property. -/
def goes (o : Host.Outcome State Fault Refusal) (p : State → Bool) : Bool := match o with
  | .next s => p s
  | _ => false

/-! ### Ill-formed terms are refused (R149–R157, R173, R299) -/

theorem test_wf_shift_field : (Instr.slli 1 2 (.fld 64)).wf = false := by decide
theorem test_wf_shift_literal : (Instr.srai 1 2 (.lit 0x40)).wf = false := by decide
theorem test_wf_field_past_the_word : (Instr.extu 1 2 60 4).wf = false ∧ (Instr.ins 1 2 60 3).wf = true := by decide
theorem test_wf_cvt_type : (Instr.cvt 1 2 .i8 .f32 .rne false).wf = false := by decide
theorem test_wf_vcvt_raw : (Instr.vcvt 1 2 .raw 0 .rne 0).wf = false := by decide
theorem test_wf_vbq_group : (Instr.vbq 1 14 .e4m3 .rne).wf = false ∧ (Instr.vbq 1 13 .e2m1 .rne).wf = false := by decide
theorem test_wf_vbdq_group : (Instr.vbdq 14 1 .e4m3 .rne).wf = false := by decide
theorem test_wf_vctab : (Instr.vctab 1 2 .f32 0).wf = false := by decide
theorem test_wf_qread : (Instr.qread 1 2 3 .f64 .rne).wf = false := by decide
theorem test_wf_amo_width : (Instr.amoadd 1 2 3 .w128 .none .t).wf = false := by decide
theorem test_wf_amo_pair : (Instr.amocas 1 2 4 .w128 .none .t).wf = false ∧ (Instr.amocas 2 2 4 .w128 .none .t).wf = true := by decide
theorem test_wf_welt_format : (Instr.azero .f16).wf = false ∧ (Instr.ald 1 true .f64).wf = false ∧ (Instr.afma 1 2 true false .i32 .rne).wf = false := by decide
theorem test_wf_welt_mode : (Instr.ascale 1 true .sr).wf = false ∧ (Instr.acvt .i32 .sr).wf = false ∧ (Instr.aadd 1 true .f32 .sr).wf = false := by decide
theorem test_wf_pair_classes : Pair.wf (.two (.add 1 2 3) (.add 4 5 6)) = false ∧ Pair.wf (.two .cnop .cnop) = false ∧ Pair.wf (.lone .halt) = false := by decide
theorem test_wf_pair_writes : Pair.wf (.two (.ld 1 2 (.fld 0) .d64 0) (.add 1 2 3)) = false ∧ Pair.wf (.two (.ld 1 2 (.fld 0) .d64 0) (.add 2 2 3)) = true := by decide
theorem test_wf_pair_literal : Pair.wf (.two .cnop (.addi 1 2 (.lit 5))) = false ∧ Pair.wf (.lone (.addi 1 2 (.fld 5))) = false := by decide

/-! ### Words written out from the manual's encodings -/

-- R147–R150: bit 31 marks a lone instruction, whose second word is its literal.
theorem test_decode_lone_literal : decodePair 0x82500000 0x80002040 = .ok (.lone (.addi 5 0 (.lit 0x80002040))) := rfl
theorem test_decode_lone_lhi : decodePair 0x94528000 0x00000100 = .ok (.lone (.lhi 5 5 (.lit 0x100))) := rfl
theorem test_decode_lone_no_literal : decodePair 0x80321410 0 = .ok (.lone (.sub 3 4 5)) := rfl
theorem test_decode_reserved_literal : (match decodePair 0x80321410 0x00000001 with | .ok _ => false | .error _ => true) = true := rfl

-- Words of the A slot beside `cnop` (0x7000_0000): major in bits 30:25, fields under R154 and R157.
theorem test_decode_sub : decodePair 0x70000000 0x00321410 = .ok (.two .cnop (.sub 3 4 5)) := rfl
theorem test_decode_addi : decodePair 0x70000000 0x02500001 = .ok (.two .cnop (.addi 5 0 (.fld 1))) := rfl
theorem test_decode_extu : decodePair 0x70000000 0x16531078 = .ok (.two .cnop (.extu 5 6 8 15)) := rfl
theorem test_decode_csel : decodePair 0x70000000 0x18110C80 = .ok (.two .cnop (.csel 1 2 3 4)) := rfl
theorem test_decode_fadd_f32 : decodePair 0x70000000 0x1C84A800 = .ok (.two .cnop (.faddF32 8 9 10 .rne)) := rfl
theorem test_decode_fmsub_f32 : decodePair 0x70000000 0x1E110C8B = .ok (.two .cnop (.fmsubF32 1 2 3 4 .rup)) := rfl
theorem test_decode_fclass_f32 : decodePair 0x70000000 0x20110070 = .ok (.two .cnop (.fclassF32 1 2)) := rfl
theorem test_decode_cvt : decodePair 0x70000000 0x22532D46 = .ok (.two .cnop (.cvt 5 6 .f16 .f32 .rtz true)) := rfl
theorem test_decode_vaddsat : decodePair 0x70000000 0x30110E07 = .ok (.two .cnop (.vaddsat 1 2 3 4)) := rfl
theorem test_decode_vfma : decodePair 0x70000000 0x32531DA0 = .ok (.two .cnop (.vfma 5 6 7 3 .rup)) := rfl
theorem test_decode_vcle : decodePair 0x70000000 0x34110C03 = .ok (.two .cnop (.vcle 1 2 3 0)) := rfl
theorem test_decode_mandn : decodePair 0x70000000 0x36110C03 = .ok (.two .cnop (.mandn 1 2 3)) := rfl
theorem test_decode_vsel : decodePair 0x70000000 0x38110E80 = .ok (.two .cnop (.vsel 1 2 3 5)) := rfl
theorem test_decode_vcvt_sat : decodePair 0x70000000 0x3A113416 = .ok (.two .cnop (.vcvtSat 1 2 .e4m3 0 .rtz 2)) := rfl
theorem test_decode_vbq : decodePair 0x70000000 0x3C403400 = .ok (.two .cnop (.vbq 4 0 .e4m3 .rne)) := rfl
theorem test_decode_vrotl : decodePair 0x70000000 0x3E110C04 = .ok (.two .cnop (.vrotl 1 2 3)) := rfl
theorem test_decode_vextr : decodePair 0x70000000 0x40110C01 = .ok (.two .cnop (.vextr 1 2 3)) := rfl
theorem test_decode_vredmin : decodePair 0x70000000 0x42110002 = .ok (.two .cnop (.vredmin 1 2 0)) := rfl
theorem test_decode_vbunpack : decodePair 0x70000000 0x44110001 = .ok (.two .cnop (.vbunpack 1 2)) := rfl
theorem test_decode_mma_e4m3 : decodePair 0x70000000 0x46252D80 = .ok (.two .cnop (.mmaE4m3 2 10 11 3)) := rfl
theorem test_decode_qacq : decodePair 0x70000000 0x48228000 = .ok (.two .cnop (.qacq 2 5)) := rfl
theorem test_decode_qanchor : decodePair 0x70000000 0x48060030 = .ok (.two .cnop (.qanchor 0 12)) := rfl
theorem test_decode_qsend : decodePair 0x70000000 0x4806B960 = .ok (.two .cnop (.qsend 0 13 14 2)) := rfl
theorem test_decode_qaddm : decodePair 0x70000000 0x48068050 = .ok (.two .cnop (.qaddm 0 13)) := rfl
theorem test_decode_qread : decodePair 0x70000000 0x4A411580 = .ok (.two .cnop (.qread 4 2 5 .bf16 .rne)) := rfl

-- Words of the C slot beside the A slot's `nop` (0x0000_0000).
theorem test_decode_ld : decodePair 0x50530250 0 = .ok (.two (.ld 5 6 (.fld 4) .s32 0) (.add 0 0 0)) := rfl
theorem test_decode_ld_window : decodePair 0x505300E3 0 = .ok (.two (.ld 5 6 (.fld 1) .d64 3) (.add 0 0 0)) := rfl
theorem test_decode_st : decodePair 0x525300E0 0 = .ok (.two (.st 5 6 (.fld 1) .b64) (.add 0 0 0)) := rfl
theorem test_decode_vld : decodePair 0x542384A2 0 = .ok (.two (.vld 2 7 (.fld 2) .f32 2) (.add 0 0 0)) := rfl
theorem test_decode_vst : decodePair 0x562380A0 0 = .ok (.two (.vst 2 7 (.fld 0) .f32) (.add 0 0 0)) := rfl
theorem test_decode_ld_acq : decodePair 0x58530328 0 = .ok (.two (.ldAcq 5 6 .d64 .c) (.add 0 0 0)) := rfl
theorem test_decode_amoadd : decodePair 0x5A531F68 0 = .ok (.two (.amoadd 5 6 7 .w64 .ar .c) (.add 0 0 0)) := rfl
theorem test_decode_amocas : decodePair 0x5C231381 0 = .ok (.two (.amocas 2 6 4 .w128 .none .t) (.add 0 0 0)) := rfl
theorem test_decode_red_n : decodePair 0x5E031E00 0 = .ok (.two (.redNF32 6 7) (.add 0 0 0)) := rfl
theorem test_decode_vldp : decodePair 0x60238111 0 = .ok (.two (.vldp 2 7 .e2m1 1) (.add 0 0 0)) := rfl
theorem test_decode_vstp : decodePair 0x62238010 0 = .ok (.two (.vstp 2 7 .i8) (.add 0 0 0)) := rfl
theorem test_decode_vscat64 : decodePair 0x64110C30 0 = .ok (.two (.vscat64 1 2 3) (.add 0 0 0)) := rfl
theorem test_decode_ldfe : decodePair 0x66110012 0 = .ok (.two (.ldfe 1 2 2) (.add 0 0 0)) := rfl
theorem test_decode_map : decodePair 0x68110C00 0 = .ok (.two (.map 1 2 3) (.add 0 0 0)) := rfl
theorem test_decode_invl_all : decodePair 0x6A000030 0 = .ok (.two (.invlAll) (.add 0 0 0)) := rfl
theorem test_decode_trap : decodePair 0x70000C50 0 = .ok (.two (.trap 3) (.add 0 0 0)) := rfl
theorem test_decode_rft : decodePair 0x70000060 0 = .ok (.two (.rft) (.add 0 0 0)) := rfl
theorem test_decode_bne : decodePair 0x724A0FF8 0 = .ok (.two (.bne 5 0 (.fld 0xFF8)) (.add 0 0 0)) := rfl
theorem test_decode_jal : decodePair 0x74100002 0 = .ok (.two (.jal 1 (.fld 2)) (.add 0 0 0)) := rfl
theorem test_decode_wlaunch : decodePair 0x78010050 0 = .ok (.two (.wlaunch 0 2) (.add 0 0 0)) := rfl
theorem test_decode_htest : decodePair 0x7A110010 0 = .ok (.two (.htest 1 2) (.add 0 0 0)) := rfl
theorem test_decode_popen : decodePair 0x7C040190 0 = .ok (.two (.popenMsg0 8) (.add 0 0 0)) := rfl
theorem test_decode_psend : decodePair 0x7C04A9C0 0 = .ok (.two (.psend 9 10) (.add 0 0 0)) := rfl
theorem test_decode_bar_cube : decodePair 0x7C000CF0 0 = .ok (.two (.bar .cube) (.add 0 0 0)) := rfl
theorem test_decode_mfsr : decodePair 0x7E014005 0 = .ok (.two (.mfsr 5 .cyc) (.add 0 0 0)) := rfl

-- Burlia words (R298, R299): op in bits 31:26, a 25:23, b 22:20, ia 19, ib 18, fmt 17:13, rm 12:10.
theorem test_decode_welt_halt : decodeBurlia 0x04000000 = some (.halt) := rfl
theorem test_decode_welt_loop : decodeBurlia 0x0C0FFFFF = some (.loop 0xFFFFF) := rfl
theorem test_decode_welt_bcl : decodeBurlia 0x140FFFFE = some (.bcl 0xFFFFE) := rfl
theorem test_decode_welt_setc : decodeBurlia 0x18000004 = some (.setc 4) := rfl
theorem test_decode_welt_pstride_p0 : decodeBurlia 0x24000040 = some (.pstride 0 64) := rfl
theorem test_decode_welt_pstride_p1 : decodeBurlia 0x24800004 = some (.pstride 1 4) := rfl
theorem test_decode_welt_azero : decodeBurlia 0x40014000 = some (.azero .f32) := rfl
theorem test_decode_welt_ast : decodeBurlia 0x49014000 = some (.ast 2 false .f32 .rne) := rfl
theorem test_decode_welt_addx : decodeBurlia 0x64894000 = some (.addx 1 0 true .f32 .rne) := rfl
theorem test_decode_welt_clamp : decodeBurlia 0xA1800000 = some (.clamp 3) := rfl
theorem test_decode_welt_unclamp : decodeBurlia 0xA4000000 = some (.unclamp) := rfl
theorem test_decode_welt_rowzero : decodeBurlia 0xA9880000 = some (.rowzero 3 true) := rfl
theorem test_decode_welt_reserved : decodeBurlia 0x3C000000 = none ∧ decodeBurlia 0x04000001 = none := ⟨rfl, rfl⟩

/-! ### Witnesses: encoding and the step -/

theorem witness_PairDecodesFromItsWords : (∃ p : Pair, Pair.wf p = true) ∧ ∃ (w0 w1 : BitVec 32) (p : Pair), decodePair w0 w1 = .ok p :=
  ⟨⟨.two .cnop (.sub 3 4 5), rfl⟩, _, _, _, test_decode_vfma⟩

theorem witness_BurliaDecodesFromItsWord :
    (∃ i : Instr, i.wf = true ∧ i.kind = .welt) ∧ ∃ (w : BitVec 32) (i : Instr), decodeBurlia w = some i :=
  ⟨⟨.halt, rfl, rfl⟩, _, _, test_decode_welt_addx⟩

/-- The first step after reset runs `sub g3, g4, g5` beside `cnop`. -/
def f0 : State := State.reset.withFetchWord 64 0x0032141070000000

theorem witness_StepRunsDecodedPair : ∃ (s s1 : State) (key : Key) (t : Strand) (w0 w1 : BitVec 32) (p : Pair),
    s.schedule = [] ∧ s.turn = .strand key ∧ s.strand? key = some t ∧ t.state = 1 ∧ t.errs = [] ∧ t.killed = false ∧ t.leaving = none ∧ t.inSecond = false ∧
    ((s.fresh.noteSlot key).load t).resident key.asid = true ∧ ((s.fresh.noteSlot key).load t).restoring = false ∧
    ((s.fresh.noteSlot key).load t).fetch = (.words w0 w1, s1) ∧ decodePair w0 w1 = .ok p ∧ s1.lacks p = 0 ∧ s1.awaits p = false :=
  ⟨f0, ((f0.fresh.noteSlot fetchStrand.key).load fetchStrand).fetch.2, fetchStrand.key, fetchStrand, 0x70000000, 0x00321410, .two .cnop (.sub 3 4 5), by decide +kernel,
    by decide +kernel, by decide +kernel, rfl, rfl, rfl, rfl, rfl, by decide +kernel, by decide +kernel,
    Prod.ext (by decide +kernel) rfl, test_decode_sub, by decide +kernel, by decide +kernel⟩

/-- The first step after reset runs `setc 4` on core 0 of stack 0. -/
def f1 : State := State.reset.withFetchWord 32 0x18000004

theorem witness_StepRunsDecodedBurliaWord : ∃ (s : State) (st : Fin 12) (n : Fin 16) (k : Kernel) (i : Instr),
    s.schedule = [] ∧ s.turn = .core st n ∧ (s.coreOf (st.val * 16 + n.val)).kern = some k ∧
    (s.coreOf (st.val * 16 + n.val)).ends = none ∧ k.cancel = false ∧ k.unmapped = false ∧
    (s.coreOf (st.val * 16 + n.val)).waiting = false ∧ (s.coreOf (st.val * 16 + n.val)).pc.toNat < 0x20000 ∧
    decodeBurlia (s.coreOf (st.val * 16 + n.val)).word = some i :=
  ⟨f1, 0, 0, fetchKernel, .setc 4, by decide +kernel, by decide +kernel, by decide +kernel, by decide +kernel, rfl, rfl, by decide +kernel,
    by decide +kernel, by rw [show (f1.coreOf ((0 : Fin 12).val * 16 + (0 : Fin 16).val)).word = 0x18000004 by decide +kernel]; rfl⟩

/-! ### Witnesses: registers and scalar instructions -/

theorem witness_RegisterWritesRead : ∃ (s : State) (d : GReg), s.view = none ∧ d.val = 0 := ⟨s0, 0, rfl, rfl⟩

theorem witness_ScalarIntegerResults : ∃ (i : Instr) (s : State) (d : GReg) (v : Int), i.wf = true ∧ scalarResult i s.g = some (d, v) :=
  ⟨.ins 31 2 63 0, s0, _, _, rfl, rfl⟩

theorem witness_DivisionNeverTraps : ∃ (i : Instr) (s : State) (d : GReg) (la : La) (v : Int), divResult i s.g = some (d, la, v) ∧ v = -1 :=
  ⟨.div 1 2 0 15, s0, _, _, _, rfl, rfl⟩

theorem witness_ScalarFloatResults : ∃ (i : Instr) (s : State) (d : GReg) (f : Fmt) (rm : Rnd) (la : La) (x : Val),
    floatResult i s.g = some (d, f, rm, la, x) := ⟨.fmsubF32 1 2 3 4 .sr, s0, _, _, _, _, _, rfl⟩

theorem witness_ScalarCompareAndConvertResults : (∃ (i : Instr) (s : State) (d : GReg) (v : Nat), signResult i s.g = some (d, v)) ∧
    ∃ (d a : GReg) (dt st : Tag) (rm : Rnd) (sat : Bool), (Instr.cvt d a dt st rm sat).wf = true :=
  ⟨⟨.fclassF32 1 2, s0, _, _, rfl⟩, 1, 2, .bf16, .n64, .sr, true, rfl⟩

theorem witness_RoundingFollowsItsMode :
    (∃ (f : Fmt) (c : Nat), f ∈ [fmtF64, fmtF32, fmtF16, fmtBf16, fmtE4m3, fmtE5m2, fmtE3m2, fmtE2m3, fmtE2m1] ∧ c < 2 ^ f.w) ∧ (∃ exp q : Int, exp < q) ∧
    ∀ big : Bool, ∃ (f : Fmt) (rm : Rnd) (l : BitVec 32) (neg : Bool) (mag : Nat) (exp : Int),
      f ∈ [fmtF64, fmtF32, fmtF16, fmtBf16, fmtE4m3, fmtE5m2, fmtE3m2, fmtE2m3, fmtE2m1] ∧ mag ≠ 0 ∧
      let last := max (exp + (Nat.log2 mag : Int) - (f.m : Int)) (1 - (f.bias : Int) - (f.m : Int))
      (f.val f.maxCode).lt (.fin false (roundQ rm (l.toNat % 2 ^ 16) neg mag exp false last) last) = big :=
  ⟨⟨fmtE2m1, 15, by simp, by decide⟩, ⟨0, 1, by decide⟩, fun big => match big with
    | false => ⟨fmtE2m1, .rne, 1, true, 1, -9, by simp, by decide, by decide +kernel⟩
    | true => ⟨fmtF16, .sr, 1, false, 65520, 3, by simp, by decide, by decide +kernel⟩⟩

theorem witness_LookaheadWindow : ∃ (t : Strand) (r : GReg) (n j : Nat), r.val ≠ 0 ∧ 0 < n ∧ n < 16 ∧ t.held = [] ∧ j < n :=
  ⟨u0, 31, 15, 14, by decide, by decide, by decide, rfl, by decide⟩

/-! ### Witnesses: vector instructions -/

theorem witness_VectorElementwiseResults :
    (∃ (i : Instr) (s : State) (e : Elementwise), elementwise i = some e ∧ e.ok (s.tag e.a) = true ∧ (e.same = true → s.tag e.b = s.tag e.a) ∧
      (e.fused = true ∨ e.m.val ≠ 0 → s.tag e.d = s.tag e.a)) ∧
    (∃ (i : Instr) (s : State) (e : Elementwise), elementwise i = some e ∧ e.ok (s.tag e.a) = false) ∧
    (∃ (i : Instr) (s : State) (e : Elementwise), elementwise i = some e ∧ e.ok (s.tag e.a) = true ∧ e.same = true ∧ s.tag e.b ≠ s.tag e.a) ∧
    ∃ (i : Instr) (s : State) (e : Elementwise), elementwise i = some e ∧ e.ok (s.tag e.a) = true ∧ (e.same = true → s.tag e.b = s.tag e.a) ∧
      (e.fused = true ∨ e.m.val ≠ 0) ∧ s.tag e.d ≠ s.tag e.a :=
  ⟨⟨.vfma 5 6 7 3 .sr, tagged s0 [(5, .f32), (6, .f32), (7, .f32)], _, rfl, rfl, fun _ => rfl, fun _ => rfl⟩,
    ⟨.vsqrt 5 6 0 .rne, tagged s0 [(6, .i32)], _, rfl, rfl⟩,
    ⟨.vadd 5 6 7 0 .rne, tagged s0 [(6, .i32)], _, rfl, rfl, rfl, by decide⟩,
    .vand 5 6 7 1, tagged s0 [(6, .c4)], _, rfl, rfl, fun h => by simp at h, .inr (by decide), by decide⟩

theorem witness_MaskAndTagResults :
    (∃ (i : Instr) (s : State) (d : MReg) (a b : VReg) (m : MReg) (f : Int → Int → Bool) (g : Val → Val → Bool),
      vectorCompare i = some (d, a, b, m, f, g) ∧ Tag.isNum (s.tag a) = true ∧ s.tag b = s.tag a) ∧
    (∃ (i : Instr) (s : State) (d : MReg) (f : Nat → Bool), maskLogic i s.m = some (d, f)) ∧
    (∃ (s : State) (a b : VReg), s.tag b = s.tag a ∧ a ≠ b) ∧
    (∃ (s : State) (d : VReg) (m : MReg), m.val ≠ 0 ∧ s.tag d = .raw) ∧
    ∃ (s : State) (a : VReg) (t u : Tag), s.tag a = t ∧ s.tag a ≠ u :=
  ⟨⟨.vcun 7 1 2 7, tagged s0 [(1, .bf16), (2, .bf16)], _, _, _, _, _, _, rfl, rfl, rfl⟩, ⟨.mnot 1 2, s0, _, _, rfl⟩, ⟨s0, 0, 15, rfl, by decide⟩,
    ⟨s0, 15, 7, by decide, rfl⟩, s0, 3, .raw, .i4, rfl, by decide⟩

theorem witness_VectorConvertResults : ∃ (i : Instr) (s : State) (d a : VReg) (t : Tag) (m : MReg) (rm : Rnd) (p : Nat) (sat : Bool),
    conversion i = some (d, a, t, m, rm, p, sat) ∧ s.tag a ≠ .raw ∧
    max (Tag.lanes (s.tag a)) (Tag.lanes t) / min (Tag.lanes (s.tag a)) (Tag.lanes t) = 4 ∧
    p < max (Tag.lanes (s.tag a)) (Tag.lanes t) / min (Tag.lanes (s.tag a)) (Tag.lanes t) ∧ (m.val ≠ 0 → s.tag d = t) :=
  ⟨.vcvtSat 1 2 .e4m3 7 .sr 3, tagged s0 [(1, .e4m3), (2, .f32)], _, _, _, _, _, _, _, rfl, by decide, by decide, by decide, fun _ => rfl⟩

theorem witness_BlockAndTableResults :
    (∀ special : Bool, ∃ (s : State) (d a : VReg) (t : Tag) (f : Fmt) (rm : Rnd), (Instr.vbq d a t rm).wf = true ∧ Tag.fmt? t = some f ∧
      s.tag a = .f32 ∧ s.tag (a + 1) = .f32 ∧ s.tag (a + 2) = .f32 ∧
      (fmtF32.val (laneAt (s.v a) 32 23)).special = special ∧ ∀ n < 23, (fmtF32.val (laneAt (s.v a) 32 n)).special = false) ∧
    (∃ (s : State) (d a : VReg) (t : Tag) (f : Fmt) (rm : Rnd), (Instr.vbdq d a t rm).wf = true ∧ Tag.fmt? t = some f ∧ s.tag a = t) ∧
    (∃ (s : State) (d a : VReg) (t : Tag) (m : MReg), (Instr.vctab d a t m).wf = true ∧ (s.tag a = .n8 ∨ s.tag a = .c4) ∧ (m.val ≠ 0 → s.tag d = t)) ∧
    (∃ (s : State) (a : VReg), s.tag a = .i8) ∧ ∃ (s : State) (a : VReg), s.tag a = .tern :=
  ⟨fun special => match special with
    | false => ⟨tagged s0 [(13, .f32), (14, .f32), (15, .f32)], 14, 13, .e2m3, _, .sr, rfl, rfl, rfl, rfl, rfl, by decide +kernel, by decide +kernel⟩
    | true => ⟨(tagged s0 [(14, .f32), (15, .f32)]).setV 13 (0x7FC00000#1024 <<< (32 * 23)) .f32, 14, 13, .e2m3, _, .sr, rfl, rfl, by decide +kernel,
        by decide +kernel, by decide +kernel, by decide +kernel, by decide +kernel⟩,
    ⟨tagged s0 [(13, .e3m2)], 13, 13, .e3m2, _, .rne, rfl, rfl, rfl⟩, ⟨tagged s0 [(1, .c4), (2, .bf16)], 2, 1, .bf16, 1, rfl, .inr rfl, fun _ => rfl⟩,
    ⟨tagged s0 [(1, .i8)], 1, rfl⟩, tagged s0 [(1, .tern)], 1, rfl⟩

theorem witness_BlockScale : (∃ (v : Nat → Val) (b : Nat), ∀ n, n / 24 = b → (v n).eq (.fin false 0 0) = true) ∧
    ∃ (v : Nat → Val) (b : Nat) (E : Int), (∃ n, n / 24 = b ∧ (v n).lt (.fin false 1 E) = false) ∧ ∀ n, n / 24 = b → (v n).lt (.fin false 1 (E + 1)) = true :=
  ⟨⟨fun _ => .fin true 0 5, 3, fun _ _ => (by decide : (Val.fin true 0 5).eq (.fin false 0 0) = true)⟩,
    fun _ => .fin false 3 126, 0, 127, ⟨23, by decide, by decide⟩, fun _ _ => (by decide : (Val.fin false 3 126).lt (.fin false 1 128) = true)⟩

theorem witness_PermuteResults :
    (∃ (i : Instr) (s : State) (d a b : VReg) (pick : Nat → Nat → Bool × Nat), laneMove i s.g = some (d, a, b, pick) ∧ s.tag b = s.tag a) ∧
    (∃ (s : State) (b : VReg), s.tag b = .n8) ∧ ∃ (s : State) (d : VReg) (t : Tag) (m : MReg), m.val ≠ 0 ∧ s.tag d = t :=
  ⟨⟨.vunzip 1 2 3, s0, _, _, _, _, rfl, rfl⟩, ⟨tagged s0 [(3, .n8)], 3, rfl⟩, s0, 1, .raw, 1, by decide, rfl⟩

theorem witness_ReductionResults :
    (∃ (s : State) (a : VReg), Tag.isInt (s.tag a) = true) ∧
    (∃ (s : State) (a : VReg) (rm : Rnd) (f : Fmt), Tag.isFloat (s.tag a) = true ∧ Tag.fmt? (s.tag a) = some f ∧ rm ≠ .sr) ∧
    (∃ (s : State) (a : VReg) (f : Fmt), Tag.isFloat (s.tag a) = true ∧ Tag.fmt? (s.tag a) = some f) ∧
    ∃ (i : Instr) (s : State) (d : GReg) (a : VReg) (m : MReg) (g : Int → Int → Int) (iid : Bool → Nat → Int) (c : Fmt → Nat → Nat → Nat) (fid : Fmt → Nat),
      orderReduction i = some (d, a, m, g, iid, c, fid) ∧ Tag.isNum (s.tag a) = true :=
  ⟨⟨tagged s0 [(1, .n64)], 1, rfl⟩, ⟨tagged s0 [(1, .bf16)], 1, .rdn, _, rfl, rfl, by decide⟩,
    ⟨tagged s0 [(1, .f16)], 1, _, rfl, rfl⟩, .vredmin 1 2 0, tagged s0 [(2, .i8)], _, _, _, _, _, _, _, rfl, by decide⟩

/-! ### Witnesses: control transfer, special registers, conditions -/

theorem witness_BranchesAndJumps :
    (∃ (i : Instr) (s : State) (h : Bool) (off : Imm 12), branchOf i s.g = some (h, off) ∧ h = true) ∧
    (∃ (i : Instr) (s : State) (h : Bool) (off : Imm 12), branchOf i s.g = some (h, off) ∧ h = false) ∧
    (∃ (s : State) (a : GReg), (s.g a).toNat % 8 = 0) ∧ ∃ (s : State) (a : GReg), (s.g a).toNat % 8 ≠ 0 :=
  ⟨⟨.bge 0 0 (.fld 0x800), s0, _, _, rfl, rfl⟩, ⟨.bltu 0 0 (.lit 0x80000000), s0, _, _, rfl, rfl⟩, ⟨s0, 0, rfl⟩,
    give s0 [(1, 0xFFFFFFFFFFFFFFFF)], 1, by decide⟩

theorem witness_TrapAndReturn : (∃ s : State, s.me.intrap = true) ∧ ∃ s : State, s.me.intrap = false :=
  ⟨⟨{ s0 with me := { u0 with intrap := true } }, rfl⟩, s0, rfl⟩

theorem witness_YieldAndExitComplete :
    (∃ s : State, s.src.pkst.getLsbD 63 = false ∧ s.me.pendingEngines = 0 ∧ s.me.home = 0 ∧ s.me.pool = none) ∧
    (∃ (s s1 s2 s3 : State) (l1 : List Piece), s.src.pkst.getLsbD 63 = false ∧ s.me.pendingEngines = 0 ∧
      s.me.home ≠ 0 ∧ check s.whoStore s.me.home 64 1 s = .ok l1 s1 ∧ s.me.pool = none ∧ s2 = s1 ∧ Releases s2 s3 .c) ∧
    (∃ (s s1 : State) (p : Word) (l2 l3 : List Piece) (t : State), s.me.pool = some p ∧ check s.whoStore p 64 1 s = .ok l2 t ∧
      check s.whoStore (frameVA s.me.key) 8 1 t = .ok l3 s1) ∧
    ∃ s : State, s.me.pendingEngines ≠ 0 ∧ s.src.pkst.getLsbD 63 = false :=
  ⟨⟨s0, by decide, by decide, rfl, rfl⟩,
    let a : State := { s0 with me := { u0 with home := sw 64 } }
    ⟨a, _, _, _, _, by decide, by decide, by decide, ran [] (by decide +kernel), rfl, rfl, ran () (by decide +kernel)⟩,
    let a : State := { s0 with me := { u0 with key := ⟨1, 0x0FFFFFFFFE01⟩, pool := some (sw 0x1FFFC0) } }
    ⟨a, _, _, _, _, _, rfl, ran [] (by decide +kernel), ran [] (by decide +kernel)⟩,
    { s0 with me := { u0 with k := u0.k.set 7 (newHandle 1 false 0) } }, by decide +kernel, by decide⟩

theorem witness_SpecialRegisters :
    (∃ (s : State) (r : SReg), s.view = none ∧ s.me.supv = true ∧ r = .dom ∧ s.me.pkst.getLsbD 63 = false ∧ ∀ a, s.me.arrival = some a → a.result ≠ none) ∧
    (∃ (s : State) (r : SReg), s.view = none ∧ s.me.supv = false ∧ (r ≠ .wdogt ∧ r ≠ .dord ∧ r ≠ .cgrp)) ∧
    ∃ s : State, s.me.supv = false :=
  ⟨⟨s0, .dom, rfl, rfl, rfl, by decide, fun _ h => by cases h⟩, ⟨{ s0 with me := { u0 with supv := false } }, .home, rfl, rfl, by decide⟩,
    { s0 with me := { u0 with supv := false } }, rfl⟩

theorem witness_ConditionsAreTaken :
    (∃ (s : State) (c : Cond), c.fwd = false ∧ c.frame = false ∧ s.me.tvec ≠ 0 ∧ s.me.intrap = false ∧ s.me.supv = false) ∧
    (∃ (s : State) (c : Cond), c.frame = false ∧ c.fwd = true ∧ s.me.intrap = true) ∧
    (∃ (s : State) (c : Cond), c.frame = false ∧ s.me.tvec = 0 ∧ s.me.intrap = false) ∧ ∃ c : Cond, c.frame = true :=
  ⟨⟨{ s0 with me := { u0 with supv := false, tvec := 8 } }, { code := 13 }, rfl, rfl, by decide, rfl, rfl⟩,
    ⟨{ s0 with me := { u0 with intrap := true } }, { code := 32, fwd := true }, rfl, rfl, rfl⟩, ⟨s0, { code := 13 }, rfl, rfl, rfl⟩,
    { code := 32, frame := true }, rfl⟩

/-! ### Witnesses: loads, stores, atomics, fences -/

/-- A leaf that the tile's L1 TLB holds for the first 512 MiB of space 1: V, LEAF, W, X, CH, a memory type, onto a physical address. -/
def leaf (mt pa : Nat) : Word := BitVec.ofNat 64 (pa + mt * 64 + 0x2F)
def paged (mt pa : Nat) : State :=
  { (s0.modTile 0 fun t => { t with tlb1 := [{ asid := 1, size := 2, page := 0, leaf := leaf mt pa }] }) with nearsz := 32 }

theorem loads {s : State} {a : Word} {n align : Nat} (hc : okM (check s.whoLoad a n align s) = true)
    (hl : okM (memLoad (stM (check s.whoLoad a n align s)).whoLoad (valM [] (check s.whoLoad a n align s)) (stM (check s.whoLoad a n align s))) = true)
    (hb : (valM { val := 0 } (memLoad (stM (check s.whoLoad a n align s)).whoLoad (valM [] (check s.whoLoad a n align s))
      (stM (check s.whoLoad a n align s)))).bad = false) :
    ∃ s1 x, Loads s s1 a n align x := by
  cases e1 : check s.whoLoad a n align s with
  | error => simp [e1, okM] at hc
  | ok l s' =>
    simp only [e1, stM, valM] at hl hb
    cases e2 : memLoad s'.whoLoad l s' with
    | error => simp [e2, okM] at hl
    | ok g s1 =>
      simp only [e2] at hb
      refine ⟨s1, g.val, l, s', e1, ?_⟩
      rw [e2]
      cases g
      simp_all

/-- The checks of a store. -/
abbrev forStore (s : State) (a : Word) (n align : Nat) : M (List (List Piece)) := do return [← check s.whoStore a n align]

theorem checked1 {s : State} {m : M (List (List Piece))} (h : okM (toBegin m s) = true) (h1 : (valM [] (toBegin m s)).length = 1) :
    Checked s (stM (toBegin m s)) m [(valM [] (toBegin m s)).headD []] := by
  unfold Checked
  rw [ran [] h]
  match e : valM [] (toBegin m s), h1 with
  | [l], _ => simp [valM, stM]

theorem checked2 {s : State} {m : M (List (List Piece))} (h : okM (toBegin m s) = true) (h1 : (valM [] (toBegin m s)).length = 2) :
    Checked s (stM (toBegin m s)) m [(valM [] (toBegin m s)).headD [], ((valM [] (toBegin m s)).drop 1).headD []] := by
  unfold Checked
  rw [ran [] h]
  match e : valM [] (toBegin m s), h1 with
  | [l, r], _ => simp [valM, stM]

theorem checkedAs {s : State} {m : M (List (List Piece))} {l : List (List Piece)} (h : okM (toBegin m s) = true) (hv : valM [] (toBegin m s) = l) :
    Checked s (stM (toBegin m s)) m l := by
  rw [← hv]
  exact ran [] h

theorem stores {s : State} {a : Word} {n align v : Nat} (hc : okM (toBegin (forStore s a n align) s) = true)
    (h1 : (valM [] (toBegin (forStore s a n align) s)).length = 1)
    (hl : okM (memStore (stM (toBegin (forStore s a n align) s)).whoStore ((valM [] (toBegin (forStore s a n align) s)).headD []) v
      (stM (toBegin (forStore s a n align) s))) = true) :
    ∃ s1, Stores s s1 a n align v :=
  ⟨_, _, _, checked1 hc h1, ranU hl⟩

theorem witness_LoadsComplete :
    (∃ (i : Instr) (s s1 : State) (a : Word) (n x : Nat) (put : Nat → State → State), plainLoad i s = some (a, n, put) ∧
      (∀ d b t la, i = .vldp d b t la → packedAligned (s.g b) t) ∧ Loads s s1 a n 1 x) ∧
    (∃ (i : Instr) (s s1 : State) (a : Word) (n x : Nat) (put : Nat → State → State), plainLoad i s = some (a, n, put) ∧ Loads s s1 a n 1 x ∧
      ∃ d b t la, i = .vldp d b t la ∧ packedAligned (s.g b) t) ∧
    ∃ (s s' s1 : State) (a : GReg) (ty : LdTy) (sc : Scope) (l : List Piece) (x : Nat), check s.whoLoad (s.g a) (ldBytes ty) (ldBytes ty) s = .ok l s' ∧
      Loads (s'.acquire sc) s1 (s.g a) (ldBytes ty) (ldBytes ty) x := by
  refine ⟨?_, ?_, ?_⟩
  · obtain ⟨s1, x, h⟩ := loads (s := give (paged 0 0) [(2, 0x7F)]) (a := 0x7F) (n := 8) (align := 1) (by decide +kernel) (by decide +kernel) (by decide +kernel)
    exact ⟨.ld 1 2 (.fld 0) .d64 0, give (paged 0 0) [(2, 0x7F)], s1, _, _, x, _, rfl, (fun _ _ _ _ e => by cases e), h⟩
  · obtain ⟨s1, x, h⟩ := loads (s := give s0 [(2, 0x07FFFFFFFFFFF804)]) (a := 0x00FFFFFFFFFFFF00) (n := 129) (align := 1) (by decide +kernel) (by decide +kernel) (by decide +kernel)
    exact ⟨.vldp 1 2 .e2m1 0, give s0 [(2, 0x07FFFFFFFFFFF804)], s1, _, _, x, _, rfl, h, 1, 2, .e2m1, 0, rfl, by unfold packedAligned; decide +kernel⟩
  · have hc : okM (check (give (paged 0 0) [(2, 8)]).whoLoad 8 8 8 (give (paged 0 0) [(2, 8)])) = true := by decide +kernel
    obtain ⟨s1, x, h⟩ := loads (s := (stM (check (give (paged 0 0) [(2, 8)]).whoLoad 8 8 8 (give (paged 0 0) [(2, 8)]))).acquire .c) (a := 8) (n := 8) (align := 8)
      (by decide +kernel) (by decide +kernel) (by decide +kernel)
    exact ⟨give (paged 0 0) [(2, 8)], _, s1, 2, .d64, .c, _, x, ran [] hc, h⟩

theorem witness_StoresComplete :
    (∃ (i : Instr) (s s1 : State) (ok : Prop) (a : Word) (n v : Nat), plainStore i s = some (ok, a, n, v) ∧ ok ∧ Stores s s1 a n 1 v) ∧
    (∃ (s s1 : State) (d : VReg) (a : GReg) (t : Tag) (v : Nat), s.tag d = t ∧ packedAligned (s.g a) t ∧ (s.g a).toNat % 8 = 0 ∧
      Stores s s1 (bitVA (s.g a)) (packedBytes (s.g a) (Tag.memWidth t) (Tag.lanes t)) 1 v) ∧
    (∃ (s s2 s3 s4 : State) (d : VReg) (a : GReg) (t : Tag) (l r : List Piece) (old : Got) (n v : Nat), s.tag d = t ∧ packedAligned (s.g a) t ∧
      (s.g a).toNat % 8 ≠ 0 ∧ n = packedBytes (s.g a) (Tag.memWidth t) (Tag.lanes t) ∧
      Checked s s2 (do
        let l ← check s.whoStore (bitVA (s.g a)) n 1
        return [l, ← check s.whoLoad (bitVA (s.g a)) n 1]) [l, r] ∧
      memLoad s.whoLoad r s2 = .ok old s3 ∧ memStore s.whoStore (if old.bad then edges l else l) v s3 = .ok () s4) ∧
    (∃ (s s1 s2 s3 s4 : State) (d a : GReg) (ty : StTy) (sc : Scope) (l : List Piece), s.me.did = 0 ∧ (s.g a).toNat % stBytes ty = 0 ∧
      Checked s s1 (forStore s (s.g a) (stBytes ty) 1) [l] ∧ Releases s1 s2 sc ∧ memStore s.whoStore l (s.g d).toNat s2 = .ok () s3 ∧
      Releases { s3 with me := { s3.me with did := 1 } } s4 sc) ∧
    ∃ s s1 : State, s.me.did ≠ 0 ∧ Releases s s1 .s := by
  refine ⟨?_, ?_, ?_, ?_, { s0 with me := { u0 with did := 1 } }, _, by decide, ranU (by decide +kernel)⟩
  · obtain ⟨s1, h⟩ := stores (s := give (paged 0 0) [(2, 0x7F)]) (a := 0x7F) (n := 128) (align := 1) (v := ((give (paged 0 0) [(2, 0x7F)]).v 1).toNat)
      (by decide +kernel) (by decide +kernel) (by decide +kernel)
    exact ⟨.vst 1 2 (.fld 0) .raw, give (paged 0 0) [(2, 0x7F)], s1, _, _, _, _,
      rfl, .inl rfl, h⟩
  · obtain ⟨s1, h⟩ := stores (s := give s0 [(2, 0x07FFFFFFFFFFFC00)]) (a := 0x00FFFFFFFFFFFF80) (n := 128) (align := 1) (v := 0)
      (by decide +kernel) (by decide +kernel) (by decide +kernel)
    exact ⟨give s0 [(2, 0x07FFFFFFFFFFFC00)], s1, 1, 2, .raw, 0, rfl, by unfold packedAligned; decide +kernel, by decide +kernel, h⟩
  · let s := tagged (give s0 [(2, 0x07FFFFFFFFFFF804)]) [(1, .e2m1)]
    have hc := checked2 (s := s) (m := do
        let l ← check s.whoStore (bitVA (s.g 2)) (packedBytes (s.g 2) (Tag.memWidth .e2m1) (Tag.lanes .e2m1))
        return [l, ← check s.whoLoad (bitVA (s.g 2)) (packedBytes (s.g 2) (Tag.memWidth .e2m1) (Tag.lanes .e2m1))]) (by decide +kernel) (by decide +kernel)
    exact ⟨s, _, _, _, 1, 2, .e2m1, _, _, _, _, 7, rfl, by unfold packedAligned; decide +kernel, by decide +kernel, rfl, hc,
      ran { val := 0 } (by decide +kernel), ranU (by decide +kernel)⟩
  · let s := give (paged 0 0) [(2, 8)]
    exact ⟨s, _, _, _, _, 1, 2, .b64, .s, _, rfl, by decide +kernel, checked1 (by decide +kernel) (by decide +kernel), ranU (by decide +kernel),
      ranU (by decide +kernel), ranU (by decide +kernel)⟩

theorem witness_GatherScatterComplete :
    (∃ (i : Instr) (s s1 s2 : State) (n : Nat) (d : VReg) (a : GReg) (b : VReg) (la : La) (want out : Tag) (l : List (Word × List Piece)) (xs : List Nat),
      gatherOf i = some (n, d, a, b, la, want, out) ∧ s.tag b = want ∧ checkLanes s.whoLoad n (laneAddrs s a b n) s = .ok l s1 ∧
      loadLanes s.whoLoad l s1 = .ok (xs, none) s2) ∧
    ∃ (i : Instr) (s s1 s2 : State) (n : Nat) (d : VReg) (a : GReg) (b : VReg) (want : Tag) (l : List (List Piece)),
      scatterOf i = some (n, d, a, b, want) ∧ s.tag b = want ∧
      Checked s s1 (do return (← checkLanes s.whoStore n (laneAddrs s a b n)).map (·.2)) l ∧
      storeLanes s.whoStore l ((List.range (128 / n)).map (laneAt (s.v d) (8 * n))) s1 = .ok () s2 := by
  refine ⟨?_, ?_⟩
  · let s := tagged (give s0 [(2, sw 0)]) [(3, .i32)]
    have h : okM (checkLanes s.whoLoad 4 (laneAddrs s 2 3 4) s) = true := by decide +kernel
    have h2 : okM (loadLanes s.whoLoad (valM [] (checkLanes s.whoLoad 4 (laneAddrs s 2 3 4) s)) (stM (checkLanes s.whoLoad 4 (laneAddrs s 2 3 4) s))) = true := by
      decide +kernel
    have h3 : valM ([], some 0) (loadLanes s.whoLoad (valM [] (checkLanes s.whoLoad 4 (laneAddrs s 2 3 4) s)) (stM (checkLanes s.whoLoad 4 (laneAddrs s 2 3 4) s))) =
        (List.replicate 32 0, none) := by decide +kernel
    exact ⟨.vgath32 1 2 3 15, s, _, _, _, _, _, _, _, _, _, _, _, rfl, rfl, ran [] h, h3 ▸ ran ([], some 0) h2⟩
  · let s := tagged (give s0 [(2, sw 0x1FFFF8)]) [(3, .i64)]
    exact ⟨.vscat64 1 2 3, s, _, _, _, _, _, _, _, _, rfl, rfl, checkedAs (by decide +kernel) rfl, ranU (by decide +kernel)⟩

theorem witness_ScratchpadStoreThenLoad : ∃ (s : State) (a : Word) (off n v : Nat), s.piecewise = false ∧ s.me.begun = false ∧
    a.toNat = Config.scratchBase + off ∧ off + n ≤ Config.scratchSize ∧ 0 < n ∧ v < 256 ^ n ∧ ownerFail s s.here s.me.key.asid s.me.supv off n = none :=
  ⟨s0, sw 0x1FFF80, 0x1FFF80, 128, 256 ^ 128 - 1, by decide, rfl, by decide, by decide, by decide, by decide +kernel, rfl⟩

theorem witness_AccessChecksInOrder :
    (∃ (s : State) (a : GReg), s.me.did = 0 ∧ (s.g a).toNat % ldBytes .d64 ≠ 0 ∧ (s.g a).toNat % stBytes .b32 ≠ 0) ∧
    (∃ a : Word, canon a = false) ∧ (∃ (a : Word) (align : Nat), canon a = true ∧ a.toNat % align ≠ 0) ∧
    ∃ (s : State) (a : Word) (n align off o why : Nat), canon a = true ∧ a.toNat % align = 0 ∧ a.toNat = Config.scratchBase + off ∧ off < Config.scratchSize ∧
      off + n ≤ Config.scratchSize ∧ ownerFail s s.here s.me.key.asid s.me.supv off n = some (o, why) :=
  ⟨⟨give s0 [(2, 0x0100000000000001)], 2, rfl, by decide +kernel, by decide +kernel⟩, ⟨0x0100000000000000, rfl⟩, ⟨0x00FFFFFFFFFFFFFF, 2, rfl, by decide⟩,
    { s0 with me := { u0 with supv := false } }, sw 0x1FFFC0, 64, 64, 0x1FFFC0, 0x1FFFC0, 0x300, by decide +kernel, by decide +kernel, by decide +kernel, by decide,
    by decide, by decide +kernel⟩

/-- A stash map of the strand's space over 128 B of page 0 at scratchpad offset 0x100, with its line filled. -/
def stashed : State := (paged 0 0).modMyTile fun t => { t with
  stashes := [(3, { asid := 1, base := 0x2000, off := 0x100, len := 128 })]
  slines := [{ addr := 2, va := 0x2000, asid := 1, data := 7, valid := true, dirty := 1, priv := false, mt := 0, bad := 0 }] }

/-- The store of 8 B at 0x78, or at a given address. -/
abbrev store8 (s : State) (a : Word) : EStateM.Result Stop State (List (List Piece)) := toBegin (forStore s a 8 1) s

theorem witness_LoadAndStoreFrames :
    (∃ (s s1 : State) (a : Word) (n align x : Nat), Loads s s1 a n align x ∧ chgOn s = false ∧ ∀ e ∈ s.myTile.l1, e.dirty = 0) ∧
    (∃ (s s' s1 : State) (a : Word) (n v off : Nat) (o : Option Xl), s'.piecewise = false ∧ 0 < n ∧ off % 128 + n ≤ 128 ∧
      Checked s s' (forStore s a n 1) [[{ va := a, len := n, place := .stash off o }]] ∧
      memStore s'.whoStore [{ va := a, len := n, place := .stash off o }] v s' = .ok () s1) ∧
    (∃ (s s' s1 : State) (a : Word) (n v : Nat) (x : Xl), s'.piecewise = false ∧ 0 < n ∧ x.pa % 128 + n ≤ 128 ∧
      Checked s s' (forStore s a n 1) [[{ va := a, len := n, place := .mem x }]] ∧
      memStore s'.whoStore [{ va := a, len := n, place := .mem x }] v s' = .ok () s1 ∧
      (∀ e ∈ s'.myTile.l1, e.dirty = 0) ∧ s'.win x.pa = .inter ∧ s'.badIn x.pa n = false ∧ x.mt = 0) ∧
    (∃ (s s' s1 : State) (a : Word) (n v st o : Nat) (x : Xl), s'.piecewise = false ∧ 0 < n ∧ x.pa % 128 + n ≤ 128 ∧
      Checked s s' (forStore s a n 1) [[{ va := a, len := n, place := .mem x }]] ∧
      memStore s'.whoStore [{ va := a, len := n, place := .mem x }] v s' = .ok () s1 ∧
      (∀ e ∈ s'.myTile.l1, e.dirty = 0) ∧ s'.win x.pa = .near st o ∧ s'.badIn x.pa n = false ∧ x.mt = 1 ∧ s1.msgs = s'.msgs) ∧
    ∃ (s s' s1 : State) (a : Word) (n v st o : Nat) (x : Xl), s'.piecewise = false ∧ 0 < n ∧ x.pa % 128 + n ≤ 128 ∧
      Checked s s' (forStore s a n 1) [[{ va := a, len := n, place := .mem x }]] ∧
      memStore s'.whoStore [{ va := a, len := n, place := .mem x }] v s' = .ok () s1 ∧
      (∀ e ∈ s'.myTile.l1, e.dirty = 0) ∧ s'.win x.pa = .near st o ∧ s'.badIn x.pa n = false ∧ x.mt = 1 ∧ s1.msgs ≠ s'.msgs := by
  refine ⟨?_, ?_, ?_, ?_, ?_⟩
  · obtain ⟨s1, x, h⟩ := loads (s := paged 0 0) (a := 0x7F) (n := 8) (align := 1) (by decide +kernel) (by decide +kernel) (by decide +kernel)
    exact ⟨_, s1, _, _, _, x, h, by decide +kernel, by decide +kernel⟩
  · exact ⟨stashed, stM (store8 stashed 0x2078), _, 0x2078, 8, 9, 0x178, none, by decide +kernel, by decide, by decide,
      checkedAs (by decide +kernel) (by decide +kernel), ranU (by decide +kernel)⟩
  · exact ⟨paged 0 0, stM (store8 (paged 0 0) 0x78), _, 0x78, 8, 9, { pa := 0x78, mt := 0, size := 2, leaf := leaf 0 0 }, by decide +kernel, by decide, by decide,
      checkedAs (by decide +kernel) (by decide +kernel), ranU (by decide +kernel), by decide +kernel, by decide +kernel, by decide +kernel, rfl⟩
  · exact ⟨paged 1 Config.nearBase, stM (store8 (paged 1 Config.nearBase) 0x78), _, 0x78, 8, 9, 0, 0x78,
      { pa := Config.nearBase + 0x78, mt := 1, size := 2, leaf := leaf 1 Config.nearBase }, by decide +kernel, by decide, by decide,
      checkedAs (by decide +kernel) (by decide +kernel), ranU (by decide +kernel), by decide +kernel, by decide +kernel, by decide +kernel, rfl, by decide +kernel⟩
  · let s : State := { paged 1 Config.nearBase with onLinks := true }
    exact ⟨s, stM (store8 s 0x78), _, 0x78, 8, 9, 0, 0x78,
      { pa := Config.nearBase + 0x78, mt := 1, size := 2, leaf := leaf 1 Config.nearBase }, by decide +kernel, by decide, by decide,
      checkedAs (by decide +kernel) (by decide +kernel), ranU (by decide +kernel), by decide +kernel, by decide +kernel, by decide +kernel, rfl, by decide +kernel⟩

theorem witness_AtomicsComplete :
    (∃ (i : Instr) (s0 s s1 s2 s3 : State) (m : Atomic) (l r : List Piece) (old : Nat), s = { s0 with part := none } ∧ atomicOf i s0 = some m ∧
      m.a.toNat % m.n = 0 ∧ Checked s s1 (amoChecks m.a m.n m.sc) [l, r] ∧
      (if semReleases m.sem then Releases s1 s2 m.sc else s2 = s1) ∧ amoAt l r m.a m.n m.sc m.req m.new s2 = .ok old s3) ∧
    ∃ (i : Instr) (s s1 : State) (op : Nat) (va : Word) (n v : Nat) (x : Xl), reductionOf i s = some (op, va, n, v) ∧ i.wf = true ∧
      canon va = true ∧ va.toNat % n = 0 ∧ isScratch va.toNat = false ∧ xlate s.whoStore va s = .ok x s1 ∧
      s1.win x.pa = .inter ∧ x.mt ≤ 1 ∧ s1.rednInFlight < 256 ∧ s1.crowded .req (1025 + slice x.pa) = false := by
  refine ⟨?_, ?_⟩
  · let s := give (paged 0 0) [(6, 0x70)]
    let p : List Piece := [{ va := 0x70, len := 16, place := .mem { pa := 0x70, mt := 0, size := 2, leaf := leaf 0 0 } }]
    let s1 := stM (toBegin (amoChecks 0x70 16 .s) s)
    have h : Checked s s1 (amoChecks 0x70 16 .s) [p, p] := checkedAs (by decide +kernel) (by decide +kernel)
    have h1 : okM (release .s s1) = true := by decide +kernel
    obtain ⟨m, hm⟩ : ∃ m, atomicOf (.amocas 2 6 4 .w128 .ar .s) s = some m := ⟨_, rfl⟩
    have ha : m.a = 0x70 ∧ m.n = 16 ∧ m.sem = .ar ∧ m.sc = .s := by cases hm; exact ⟨rfl, rfl, rfl, rfl⟩
    have h3 : okM (amoAt p p 0x70 16 .s m.req m.new (stM (release .s s1))) = true := by cases hm; decide +kernel
    have g1 : if semReleases m.sem then Releases s1 (stM (release .s s1)) m.sc else stM (release .s s1) = s1 := by
      rw [ha.2.2.1, ha.2.2.2, if_pos (show semReleases .ar = true from rfl)]; exact ranU h1
    exact ⟨.amocas 2 6 4 .w128 .ar .s, s, s, s1, _, _, m, p, p, _, rfl, hm, by rw [ha.1, ha.2.1]; decide, by rw [ha.1, ha.2.1, ha.2.2.2]; exact h, g1,
      by rw [ha.1, ha.2.1, ha.2.2.2]; exact ran 0 h3⟩
  · let s := give (paged 1 0) [(6, 0x78)]
    have h : xlate s.whoStore 0x78 s = .ok { pa := 0x78, mt := 1, size := 2, leaf := leaf 1 0 } (stM (xlate s.whoStore 0x78 s)) := by
      rw [← show valM { pa := 0, mt := 0, size := 0, leaf := 0 } (xlate s.whoStore 0x78 s) = { pa := 0x78, mt := 1, size := 2, leaf := leaf 1 0 } by decide +kernel]
      exact ran _ (by decide +kernel)
    exact ⟨.redNAdd 6 7 .w64, s, _, _, _, _, _, _, rfl, rfl, by decide +kernel, by decide +kernel, by decide +kernel, h, by decide +kernel, by decide, by decide +kernel,
      by decide +kernel⟩

theorem witness_AtomicReadsThenWrites :
    (∃ (s : State) (off n : Nat), s.piecewise = false ∧ s.myTile.scrBad off n = false) ∧
    (∃ (s : State) (pa n : Nat) (q : AmoReq) (f : Nat → Option Nat), s.heldAtHome pa = false ∧ s.badIn pa n = false ∧ 0 < n ∧ pa % 128 + n ≤ 128 ∧
      atHomeOf q n = some f ∧ AtOnce s (.amo pa n q.op q.data)) ∧
    ∃ (i : Instr) (s : State) (m : Atomic), i.wf = true ∧ atomicOf i s = some m := by
  refine ⟨⟨s0, 0x1FFFF0, 16, by decide, by decide +kernel⟩,
    ⟨s0, 0x70, 8, { op := memoOp 0 0 .w64, sc := 0, sem := 0, data := natBytes 8 7 }, _, by decide +kernel, by decide +kernel, by decide, by decide, rfl, ?_⟩,
    .amocas 2 6 4 .w128 .ar .s, s0, _, by decide, rfl⟩
  unfold AtOnce
  decide +kernel

theorem witness_FullEmptyWords :
    (∃ (s : State) (a : GReg) (off : Nat), ScratchWord s (s.g a) off ∧ s.src.pkst.getLsbD 63 = false ∧ s.me.ans = none ∧ s.myTile.feq = [] ∧
      s.myTile.isFull off = false) ∧
    ∃ (s : State) (a : GReg) (off : Nat), ScratchWord s (s.g a) off ∧ s.src.pkst.getLsbD 63 = false ∧ s.me.ans = none ∧ s.myTile.feq = [] ∧
      s.myTile.isFull off = true ∧ s.myTile.scrBad off 8 = false := by
  refine ⟨⟨give s0 [(2, sw 0x1FFFF8)], 2, 0x1FFFF8, ?_, by decide +kernel, rfl, by decide +kernel, by decide +kernel⟩,
    (give s0 [(2, sw 0)]).modMyTile (fun t => t.setFull 0 true), 2, 0, ?_, by decide +kernel, rfl, by decide +kernel, by decide +kernel, by decide +kernel⟩
  · unfold ScratchWord; decide +kernel
  · unfold ScratchWord; decide +kernel

theorem witness_FencesComplete :
    (∃ (i : Instr) (s s1 : State) (rel acq : Bool) (sc : Scope), fenceOf i = some (rel, acq, sc) ∧ (if rel then Releases s s1 sc else s1 = s) ∧ sc = .s) ∧
    (∃ s : State, s.me.redn = 0) ∧ (∃ s : State, s.me.redn ≠ 0) ∧
    (∃ (s s1 s2 : State) (a b : GReg) (l : List PagePart), nearPages s.whoStore (s.g a) (s.g b).toNat s = .ok l s1 ∧
      nearRelease (s.g a) (s.g b).toNat l s1 = .ok () s2) ∧
    ∃ (s s1 : State) (a b : GReg) (l : List PagePart), nearPages s.whoLoad (s.g a) (s.g b).toNat s = .ok l s1 ∧
      (s1.l2.all fun e => e.dirty == 0 || !inParts l e.addr || !s1.clamped (e.addr * 128)) = true := by
  let s := give (paged 0 Config.nearBase) [(1, 64), (2, 128)]
  exact ⟨⟨.fenceScS, paged 0 0, _, _, _, _, rfl, ranU (by decide +kernel), rfl⟩, ⟨s0, rfl⟩, ⟨{ s0 with me := { u0 with redn := 1 } }, by decide⟩,
    ⟨s, _, _, 1, 2, _, ran [] (by decide +kernel), ranU (by decide +kernel)⟩, s, _, 1, 2, _, ran [] (by decide +kernel), by decide +kernel⟩

/-! ### Witnesses: stash maps, handles, engines -/

/-- The tile's scratchpad holds these `n` bytes. -/
def scr (s : State) (off n v : Nat) : State := s.modMyTile fun t => t.scrWrite off n v

theorem witness_StashAndSpaceInstructions :
    (∃ (s s1 : State) (a b : GReg) (l : List PagePart) (n : Nat), (s.g a).toNat % 128 = 0 ∧ (s.g b).toNat % 2 ^ 32 % 128 = 0 ∧
      (s.g b).toNat / 2 ^ 32 % 128 = 0 ∧ (s.g b).toNat / 2 ^ 32 ≠ 0 ∧ (s.g b).toNat % 2 ^ 32 + (s.g b).toNat / 2 ^ 32 ≤ Config.scratchSize ∧
      allPages s.whoStore (s.g a) ((s.g b).toNat / 2 ^ 32) false s = .ok l s1 ∧ PlainPages l ∧ (∀ p ∈ l, p.scr = false) ∧
      (∀ e ∈ s.myTile.l1, e.asid = s.me.key.asid → inParts l e.addr = true → s.stuck s.here e = false) ∧ s.myTile.stashes.length < 8 ∧
      (∀ e ∈ s.myTile.stashes, e.2.asid = s.me.key.asid → overlap (va57 (s.g a)) ((s.g b).toNat / 2 ^ 32) (va57 e.2.base) e.2.len = false) ∧
      (∀ e ∈ s.myTile.stashes, overlap ((s.g b).toNat % 2 ^ 32) ((s.g b).toNat / 2 ^ 32) e.2.off e.2.len = false) ∧
      (isCobbler s.here = true → (s.g b).toNat % 2 ^ 32 + (s.g b).toNat / 2 ^ 32 ≤ Config.cobblerBase) ∧
      ownerFail s1 s1.here s1.me.key.asid s1.me.supv ((s.g b).toNat % 2 ^ 32) ((s.g b).toNat / 2 ^ 32) = none ∧
      n < 8 ∧ look n s.myTile.stashes = none ∧ ∀ m < n, look m s.myTile.stashes ≠ none) ∧
    (∃ (s s1 : State) (a : GReg) (n : Nat) (m : Stash),
      (s.myTile.stashes.find? fun e => e.2.asid = s.me.key.asid && e.2.base = s.g a) = some (n, m) ∧ stashOut s.whoStore m true s = .ok () s1) ∧
    (∃ (s s1 : State) (a : GReg) (n : Nat) (m : Stash),
      (s.myTile.stashes.find? fun e => e.2.asid = s.me.key.asid && e.2.base = s.g a) = some (n, m) ∧ stashOut s.whoStore m false s = .ok () s1) ∧
    (∃ (s : State) (a : GReg), (s.myTile.stashes.find? fun e => e.2.asid = s.me.key.asid && e.2.base = s.g a) = none) ∧
    (∃ (i : Instr) (s : State) (form : BitVec 2) (asid : BitVec 12) (va len : Word), invlOf i s = some (form, asid, va, len) ∧ NoPacket s ∧ s.me.supv = false) ∧
    (∃ (i : Instr) (s : State) (form : BitVec 2) (asid : BitVec 12) (va len : Word), invlOf i s = some (form, asid, va, len) ∧ NoPacket s ∧ s.me.supv = true ∧
      form = 0 ∧ len = 0) ∧
    (∃ (i : Instr) (s : State) (form : BitVec 2) (asid : BitVec 12) (va len : Word), invlOf i s = some (form, asid, va, len) ∧ NoPacket s ∧ s.me.supv = true ∧
      s.me.ans = some .accepted) ∧
    ∃ (i : Instr) (s : State) (form : BitVec 2) (asid : BitVec 12) (va len : Word), invlOf i s = some (form, asid, va, len) ∧ NoPacket s ∧ s.me.supv = true ∧
      ¬ (form = 0 ∧ len = 0) ∧ s.me.ans = none := by
  have np : NoPacket s0 := by unfold NoPacket; decide
  refine ⟨?_, ?_, ?_, ⟨s0, 1, rfl⟩, ⟨.invlAll, { s0 with me := { u0 with supv := false } }, _, _, _, _, rfl, np, rfl⟩,
    ⟨.invlR 0 0 0, s0, _, _, _, _, rfl, np, rfl, rfl, rfl⟩, ⟨.invlA 0, { s0 with me := { u0 with ans := some .accepted } }, _, _, _, _, rfl, np, rfl, rfl⟩,
    ⟨.invlA 0, s0, _, _, _, _, rfl, np, rfl, by decide, rfl⟩⟩
  · let m0 : Stash := { asid := 1, base := 0x2000, off := 0x100, len := 128 }
    let s : State := (give (paged 0 0) [(2, 0x1F80), (3, 0x8000000080)]).modMyTile fun t => { t with stashes := [(0, m0)] }
    have hc : okM (allPages s.whoStore (s.g 2) ((s.g 3).toNat / 2 ^ 32) false s) = true := by decide +kernel
    exact ⟨s, _, 2, 3, _, 1, by decide +kernel, by decide +kernel, by decide +kernel, by decide +kernel, by decide +kernel, ran [] hc,
      by unfold PlainPages; decide +kernel, by decide +kernel, by decide +kernel, by decide +kernel, by decide +kernel, by decide +kernel, by decide +kernel, by decide +kernel,
      by decide, by decide +kernel, by decide +kernel⟩
  · let m0 : Stash := { asid := 1, base := 0x2000, off := 0x100, len := 128 }
    let s : State := (give (paged 0 0) [(2, 0x2000)]).modMyTile fun t => { t with
      stashes := [(3, m0)], slines := [{ addr := 2, va := 0x2000, asid := 1, data := 7, valid := true, dirty := 1, priv := false, mt := 0, bad := 0 }] }
    exact ⟨s, _, 2, 3, m0, by decide +kernel, ranU (by decide +kernel)⟩
  · exact ⟨give stashed [(2, 0x2000)], _, 2, 3, { asid := 1, base := 0x2000, off := 0x100, len := 128 }, by decide +kernel, ranU (by decide +kernel)⟩

/-- Handle register 1 of the strand being stepped holds this word. -/
def held (s : State) (w : Word) : State := { s with me := { s.me with k := s.me.k.set 1 w } }

theorem witness_HandlesComplete :
    (∃ (s s1 : State) (a : KReg), hEmpty (s.k a) = false ∧ pollCell a s = .ok () s1 ∧ NoPacket s ∧ hPending (s1.kNow a) = false ∧ hDone (s1.kNow a) = true) ∧
    (∃ (s s1 : State) (a : KReg), hEmpty (s.k a) = false ∧ pollCell a s = .ok () s1 ∧ hDone (s1.kNow a) = false) ∧
    (∃ (s s1 : State) (a : GReg) (n : KReg), NoPacket s ∧ (s.g a).toNat % 256 ≠ 0 ∧ (∀ k ∈ selected ((s.g a).toNat % 256), hEmpty (s.k k) = false) ∧
      pollAll (selected ((s.g a).toNat % 256)) s = .ok () s1 ∧ n ∈ selected ((s.g a).toNat % 256) ∧ hDone (s1.kNow n) = true ∧
      ∀ k ∈ selected ((s.g a).toNat % 256), k < n → hDone (s1.kNow k) = false) ∧
    (∃ (s : State) (a : KReg), hEmpty (s.k a) = false ∧ (hDone (s.k a) = true ∨ hKind (s.k a) = 5)) ∧
    (∃ (s : State) (a : KReg), hEmpty (s.k a) = false ∧ hPending (s.k a) = true ∧ hKind (s.k a) = 2) ∧
    (∃ (s : State) (a : KReg), hEmpty (s.k a) = false ∧ hPending (s.k a) = true ∧ hKind (s.k a) = 4) ∧
    (∃ (s : State) (a : KReg), hEmpty (s.k a) = false ∧ hPending (s.k a) = true ∧ hKind (s.k a) = 1) ∧
    (∃ (s : State) (a : KReg), hEmpty (s.k a) = false ∧ hPending (s.k a) = true ∧ hKind (s.k a) = 3) ∧
    (∃ (s s1 s2 s3 s4 : State) (d : GReg) (a : KReg) (l : List Piece), hEmpty (s.k a) = false ∧ hKind (s.k a) ≠ 5 ∧ (s.g d).toNat % 8 = 0 ∧ s.me.did = 0 ∧
      Checked s s1 (forStore s (s.g d) 8 8) [l] ∧ Releases s1 s2 .c ∧ memStore s.whoStore l (s.k a).toNat s2 = .ok () s3 ∧
      let noted : State := if hPending (s.k a) then s3.modMyTile fun t =>
        { t with exports := t.exports.filter (fun e => !(decide (e.1 = seqOf (s.k a)) && decide (e.2.1 = s3.me.key))) ++ [(seqOf (s.k a), s3.me.key, s.g d)] } else s3
      Releases { noted with me := { noted.me with did := 1 } } s4 .c) ∧
    (∃ (s s4 : State) (d : GReg) (a : KReg), hEmpty (s.k a) = false ∧ hKind (s.k a) ≠ 5 ∧ (s.g d).toNat % 8 = 0 ∧ s.me.did ≠ 0 ∧ Releases s s4 .c) ∧
    (∃ (s s1 s2 s3 : State) (d : KReg) (a : GReg) (l : List Piece) (w : Word), (hPending (s.k d) = true → NoPacket s) ∧ (s.g a).toNat % 8 = 0 ∧
      check s.whoLoad (s.g a) 8 8 s = .ok l s1 ∧ claimHandle d s1 = .ok () s2 ∧ waitRead (s.g a) s2 = .ok w s3 ∧ hState w = 2) ∧
    ∃ (s : State) (a : KReg), hEmpty (s.k a) = true := by
  have np : NoPacket s0 := by unfold NoPacket; decide
  refine ⟨⟨held s0 (doneHandle (newHandle 1 true 7) 0 0), _, 1, by decide +kernel, ranU (by decide +kernel), np, by decide +kernel, by decide +kernel⟩,
    ⟨held s0 (newHandle 2 false 7), _, 1, by decide +kernel, ranU (by decide +kernel), by decide +kernel⟩,
    ⟨give { held s0 (doneHandle (newHandle 1 true 7) 0 0) with me := { (held s0 (doneHandle (newHandle 1 true 7) 0 0)).me with
        k := ((held s0 (doneHandle (newHandle 1 true 7) 0 0)).me.k).set 0 (newHandle 2 false 6) } } [(2, 0x103)],
      _, 2, 1, np, by decide +kernel, by decide +kernel, ranU (by decide +kernel), by decide +kernel, by decide +kernel, by decide +kernel⟩,
    ⟨held s0 (newHandle 5 false 7), 1, by decide +kernel, .inr (by decide +kernel)⟩, ⟨held s0 (newHandle 2 false 7), 1, by decide +kernel, by decide +kernel, by decide +kernel⟩,
    ⟨held s0 (newHandle 4 false 7), 1, by decide +kernel, by decide +kernel, by decide +kernel⟩,
    ⟨held s0 (newHandle 1 false 7), 1, by decide +kernel, by decide +kernel, by decide +kernel⟩,
    ⟨held s0 (newHandle 3 false 7), 1, by decide +kernel, by decide +kernel, by decide +kernel⟩, ?_, ?_, ?_, ⟨s0, 1, rfl⟩⟩
  · exact ⟨held (give s0 [(2, sw 0x1FFFF8)]) (newHandle 1 false 7), _, _, _, _, 2, 1, _, by decide +kernel, by decide +kernel, by decide +kernel, rfl,
      checked1 (by decide +kernel) (by decide +kernel), ranU (by decide +kernel), ranU (by decide +kernel), ranU (by decide +kernel)⟩
  · let s := held (give s0 [(2, sw 0x1FFFF8)]) (newHandle 1 false 7)
    exact ⟨{ s with me := { s.me with did := 1 } }, _, 2, 1, by decide +kernel, by decide +kernel, by decide +kernel, by decide +kernel, ranU (by decide +kernel)⟩
  · exact ⟨scr (give s0 [(2, sw 64)]) 64 8 (2 ^ 63), _, _, _, 1, 2, _, _, fun _ => np, by decide +kernel, ran [] (by decide +kernel), ranU (by decide +kernel),
      ran 0 (by decide +kernel), by decide +kernel⟩

/-- A tile whose accumulators 0, 1 and 2 are bound to the strand's q0, q1 and q2. -/
def accs : State :=
  { s0.modMyTile (fun t => ((t.setAcc 0 { Accum.reset with bind := some (u0.key, 0) }).setAcc 1 { Accum.reset with bind := some (u0.key, 1), anchor := 5 }).setAcc 2
      { Accum.reset with bind := some (u0.key, 2) }) with me := { u0 with qheld := 7 } }

theorem accs_HoldsAcc : HoldsAcc accs 0 0 ∧ HoldsAcc accs 1 1 ∧ HoldsAcc accs 2 2 := by
  unfold HoldsAcc; decide +kernel

theorem witness_EngineOperationsStart :
    (∃ (i : Instr) (s s1 s2 s3 s4 : State) (k : KReg) (a : GReg) (n x : Nat) (seq : BitVec 16), copyOf i = some (k, a, n) ∧ NoPacket s ∧
      (s.g a).toNat % n = 0 ∧ readDesc (s.g a) n s = .ok x s1 ∧ goodCopy (describedCopy s k n x) n x ∧ claimHandle k s1 = .ok () s2 ∧
      s1.myTile.copies.length < 32 ∧ Releases s2 s3 (if (describedCopy s k n x).remote then .c else .t) ∧
      startHandle k 1 (describedCopy s k n x).remote s3 = .ok seq s4) ∧
    (∃ (s s1 s2 : State) (d : KReg) (b : GReg) (seq : BitVec 16), NoPacket s ∧ (s.g b).toNat ≤ 2 ^ 36 ∧ claimHandle d s = .ok () s1 ∧
      startHandle d 3 false s1 = .ok seq s2 ∧ s.g b = 0) ∧
    (∃ (s s1 s2 : State) (d : KReg) (b : GReg) (seq : BitVec 16), NoPacket s ∧ (s.g b).toNat = 2 ^ 36 ∧ claimHandle d s = .ok () s1 ∧
      startHandle d 3 false s1 = .ok seq s2) ∧
    (∃ (i : Instr) (s s1 s2 : State) (f : MmaForm) (d : QReg) (a b : GReg) (k : KReg) (n : Nat) (seq : BitVec 16), mmaOf i = some (f, d, a, b, k) ∧
      s.myTile.boundTo s.me.key d = some n ∧ s.src.qheld.getLsbD d.val = true ∧
      (s.g a).toNat / 2 ^ 42 % 2 ^ 21 = 0 ∧ (s.g b).toNat / 2 ^ 42 % 2 ^ 21 = 0 ∧
      (∀ e ∈ mmaExtents (mmaRow f) (s.g a) (s.g b), e.1 % e.2.2 = 0 ∧ e.1 + e.2.1 ≤ Config.scratchSize ∧
        ownerFail s s.here s.me.key.asid s.me.supv e.1 e.2.1 = none) ∧
      claimHandle k s = .ok () s1 ∧ s1.myTile.mat.length < 8 ∧ startHandle k 2 false s1 = .ok seq s2) ∧
    ∃ (s s1 s2 s3 : State) (d : QReg) (a b : GReg) (k : KReg) (n : Nat) (seq : BitVec 16), s.myTile.boundTo s.me.key d = some n ∧
      s.src.qheld.getLsbD d.val = true ∧ (∀ o ∈ s.myTile.mat, ¬ (o.key = s.me.key ∧ o.q = d ∧ o.form.isSome = true)) ∧ (s.myTile.acc n).bad = false ∧
      (s.g b).toNat < 1024 ∧ (s.g a).toNat + 8512 ≤ Config.scratchSize ∧ (s.g a).toNat % 64 = 0 ∧ claimHandle k s = .ok () s1 ∧ s1.myTile.mat.length < 8 ∧
      Releases s1 s2 (if decide ((s.g b).toNat ≠ s.here) then .c else .t) ∧ startHandle k 2 (decide ((s.g b).toNat ≠ s.here)) s2 = .ok seq s3 := by
  have np : NoPacket s0 := by unfold NoPacket; decide
  refine ⟨?_, ?_, ?_, ?_, ?_⟩
  · let s := scr (give s0 [(2, sw 64)]) 64 32 (0x1000 + 0x40 * 2 ^ 64 + 64 * 2 ^ 128 + 0x8007 * 2 ^ 192)
    have hx : valM 0 (readDesc (s.g 2) 32 s) = 0x1000 + 0x40 * 2 ^ 64 + 64 * 2 ^ 128 + 0x8007 * 2 ^ 192 := by decide +kernel
    have h1 := ran 0 (show okM (readDesc (s.g 2) 32 s) = true by decide +kernel)
    rw [hx] at h1
    exact ⟨.acopy 1 2, s, _, _, _, _, 1, 2, 32, _, _, rfl, np, by decide +kernel, h1, by unfold goodCopy; decide +kernel, ranU (by decide +kernel),
      by decide +kernel, ranU (by decide +kernel), ran 0 (by decide +kernel)⟩
  · exact ⟨s0, _, _, 1, 2, _, np, by decide, ranU (by decide +kernel), ran 0 (by decide +kernel), by decide⟩
  · exact ⟨give s0 [(2, 0x1000000000)], _, _, 1, 2, _, np, by decide +kernel, ranU (by decide +kernel), ran 0 (by decide +kernel)⟩
  · exact ⟨.mmaE2m1 1 2 3 0, give accs [(2, 0x40), (3, 0)], _, _, _, _, _, _, _, 1, _, rfl, by decide +kernel, by decide +kernel, by decide +kernel,
      by decide +kernel, by decide +kernel, ranU (by decide +kernel), by decide +kernel, ran 0 (by decide +kernel)⟩
  · exact ⟨give accs [(2, 0x1FDEC0), (3, 1023)], _, _, _, 1, 2, 3, 0, 1, _, by decide +kernel, by decide +kernel, by decide +kernel, by decide +kernel, by decide +kernel,
      by decide +kernel, by decide +kernel, ranU (by decide +kernel), by decide +kernel, ranU (by decide +kernel), ran 0 (by decide +kernel)⟩

/-- The same, with a full image at scratchpad offset 64. -/
def imaged : State := (give accs [(2, 0x40)]).modMyTile fun t => { t with full := (List.range 1064).map (· + 8) }

theorem imaged_full : ∀ j < 1064, imaged.myTile.isFull ((imaged.g 2).toNat + 8 * j) = true ∧ imaged.myTile.scrBad ((imaged.g 2).toNat + 8 * j) 8 = false := by
  intro j hj
  have gen : ∀ l, ((give accs [(2, 0x40)]).modMyTile fun t => { t with full := l }).myTile.full = l := fun _ => rfl
  have hf : imaged.myTile.full = (List.range 1064).map (· + 8) := gen _
  have hb : imaged.myTile.badw = [] := rfl
  have hg : (imaged.g 2).toNat = 64 := rfl
  refine ⟨?_, by simp [Tile.scrBad, hb]⟩
  simp only [Tile.isFull, hf, hg, List.contains_iff_mem, List.mem_map, List.mem_range]
  exact ⟨j, hj, by omega⟩

theorem imaged_HoldsAcc : HoldsAcc imaged 0 0 := by unfold HoldsAcc; decide +kernel

theorem witness_AccumulatorsComplete :
    (∃ (s s1 : State) (d : QReg) (a : GReg) (l : List PagePart) (i : Nat), NoPacket s ∧ s.src.qheld.getLsbD d.val = false ∧
      ((s.g a).toNat + 8448 ≤ Config.scratchBase ∨ Config.scratchBase + Config.scratchSize ≤ (s.g a).toNat) ∧ (s.g a).toNat % 8192 = 0 ∧
      allPages s.whoStore (s.g a) 8448 false s = .ok l s1 ∧ PlainPages l ∧ s1.myTile.freeAcc = some i) ∧
    (∃ (s : State) (d : QReg) (i : Nat) (a : GReg), HoldsAcc s d i ∧ (s.g a).toInt = -1024) ∧
    (∃ (s : State) (d : QReg) (i : Nat) (a : GReg), HoldsAcc s d i ∧ (s.g a).toInt = 1024) ∧
    (∃ (s : State) (d a b : QReg) (i j n : Nat), HoldsAcc s a i ∧ HoldsAcc s b j ∧ HoldsAcc s d n ∧
      (s.myTile.acc i).bad = false ∧ (s.myTile.acc j).bad = false ∧ (s.myTile.acc n).bad = false ∧ (s.myTile.acc i).anchor = (s.myTile.acc j).anchor) ∧
    (∃ (s : State) (d a b : QReg) (i j n : Nat), HoldsAcc s a i ∧ HoldsAcc s b j ∧ HoldsAcc s d n ∧
      (s.myTile.acc i).bad = false ∧ (s.myTile.acc j).bad = false ∧ (s.myTile.acc n).bad = false ∧ (s.myTile.acc i).anchor ≠ (s.myTile.acc j).anchor) ∧
    (∃ (s : State) (d : QReg) (a : GReg) (i : Nat), HoldsAcc s d i ∧ (s.myTile.acc i).bad = false ∧ NoPacket s ∧
      (s.g a).toNat + 8512 ≤ Config.scratchSize ∧ (s.g a).toNat % 64 = 0 ∧ ownerFail s s.here s.me.key.asid s.me.supv (s.g a).toNat 8512 = none ∧
      (∀ j < 1064, s.myTile.isFull ((s.g a).toNat + 8 * j) = true ∧ s.myTile.scrBad ((s.g a).toNat + 8 * j) 8 = false) ∧
      s.myTile.scrRead ((s.g a).toNat + 8448) 8 = ((s.myTile.acc i).anchor.signExtend 64).toNat ∧ s.myTile.feq = []) ∧
    ∃ (i : Instr) (s : State) (d : VReg) (q : QReg) (row : BitVec 5) (f : Tag) (rm : Rnd) (sat : Bool) (n : Nat),
      readoutOf i = some (d, q, row, f, rm, sat) ∧ HoldsAcc s q n ∧ (s.myTile.acc n).bad = false := by
  have np : NoPacket s0 := by unfold NoPacket; decide
  obtain ⟨h0, h1, h2⟩ := accs_HoldsAcc
  refine ⟨?_, ⟨give accs [(2, 0xFFFFFFFFFFFFFC00)], 1, 1, 2, by unfold HoldsAcc; decide +kernel, by decide +kernel⟩,
    ⟨give accs [(2, 0x400)], 1, 1, 2, by unfold HoldsAcc; decide +kernel, by decide +kernel⟩,
    ⟨accs, 0, 0, 2, 0, 2, 0, h0, h2, h0, by decide +kernel, by decide +kernel, by decide +kernel, by decide +kernel⟩,
    ⟨accs, 0, 0, 1, 0, 1, 0, h0, h1, h0, by decide +kernel, by decide +kernel, by decide +kernel, by decide +kernel⟩, ?_,
    ⟨.qreadSat 1 1 31 .i4 .sr, accs, _, _, _, _, _, _, 1, rfl, h1, by decide +kernel⟩⟩
  · let s := give (paged 0 0) [(2, 0x2000)]
    exact ⟨s, _, 15, 2, _, 0, np, by decide +kernel, .inl (by decide +kernel), by decide +kernel, ran [] (by decide +kernel), by unfold PlainPages; decide +kernel, by decide +kernel⟩
  · exact ⟨imaged, 0, 2, 0, imaged_HoldsAcc, by decide +kernel, by unfold NoPacket; decide +kernel, by decide +kernel, by decide +kernel, by decide +kernel,
      imaged_full, by decide +kernel, by decide +kernel⟩


/-! ### Witnesses: strands, pools, launches -/

/-- The bytes of device memory at an address, over the pages of `paged 0 0`. -/
def withMem (s : State) (l : List (Nat × Nat)) : State := { s with mem := l.foldl (fun m e => Mem.writeN m e.1 8 e.2) s.mem }

/-- A launch descriptor: an image at 64, one range of 64 bytes at 4096 that may be written. -/
def launchDesc : Nat := (2 * 2 ^ 32 + 64) * 2 ^ 192 * 2 ^ 128 + 4096 * 2 ^ 256 + 2 ^ 64 + 64

/-- The record of a spawn, as R188 reads it. -/
def recordOf (s : State) (body : BitVec 512) : Rec :=
  { body := body, dom := s.me.dom, asid := s.me.key.asid, cgrp := s.me.cgrp, stamp := 0, hold := 0, spill := none }

/-- With charging on, the charge entry of strand `s` can be reached in `t`, is good, and has room for one frame more. -/
abbrev ChargesOne (s t : State) : Prop :=
  let entry := chgEntry t s.me.key.asid s.me.cgrp
  chgOn t = true → t.barred s.here entry = false ∧ t.badIn entry 16 = false ∧ chgUsed t entry + 1 ≤ chgLimit t entry

theorem witness_StrandInstructionsComplete :
    (∃ (s : State) (x : Spawning), s.me.spawning = some x) ∧
    (∃ (s s1 : State) (va : Word) (body : Nat), s.me.spawning = none ∧ va.toNat % 64 = 0 ∧ readDesc va 64 s = .ok body s1 ∧
      badRec (recordOf s (BitVec.ofNat 512 body)).body = none ∧ (recordOf s (BitVec.ofNat 512 body)).mode ≠ 2 ∧ (recordOf s (BitVec.ofNat 512 body)).depc = 0) ∧
    (∃ (s s1 s2 : State) (va : Word) (body : Nat) (x : Xl), s.me.spawning = none ∧ va.toNat % 64 = 0 ∧ readDesc va 64 s = .ok body s1 ∧
      badRec (recordOf s (BitVec.ofNat 512 body)).body = none ∧ (recordOf s (BitVec.ofNat 512 body)).mode = 2 ∧
      xlate { s.whoLoad with supv := true, charge := none } (recordOf s (BitVec.ofNat 512 body)).affinity s1 = .ok x s2 ∧
      (recordOf s (BitVec.ofNat 512 body)).depc = 0) ∧
    (∃ (s s1 s3 : State) (va : Word) (body : Nat) (x : Xl), s.me.spawning = none ∧ va.toNat % 64 = 0 ∧ readDesc va 64 s = .ok body s1 ∧
      badRec (recordOf s (BitVec.ofNat 512 body)).body = none ∧ (recordOf s (BitVec.ofNat 512 body)).mode ≠ 2 ∧
      (recordOf s (BitVec.ofNat 512 body)).depc ≠ 0 ∧ homeOf s.whoStore (recordOf s (BitVec.ofNat 512 body)).depcVA 64 64 s1 = .ok x s3) ∧
    (∃ (s s1 s2 : State) (a : GReg) (x : Spawning), NoPacket s ∧ readSpawn (s.g a) s = .ok x s1 ∧ (recordOf s x.body).depc = 0 ∧
      Releases { s1 with passed := true } s2 (if (recordOf s x.body).mode = 0 then .t else .c) ∧ placeWait s2.myTile (recordOf s x.body) x.pa = none) ∧
    (∃ (s s1 : State) (a : GReg) (x : Spawning), NoPacket s ∧ readSpawn (s.g a) s = .ok x s1 ∧ (recordOf s x.body).depc ≠ 0 ∧ s.me.ans = some .accepted) ∧
    (∃ (s s1 : State) (a : GReg) (x : Spawning) (n : Nat), NoPacket s ∧ readSpawn (s.g a) s = .ok x s1 ∧ (recordOf s x.body).depc ≠ 0 ∧
      s.me.ans = some (.placeNow n) ∧ placeWait s1.myTile (recordOf s x.body) x.pa = none) ∧
    (∃ (s s1 s2 : State) (a : GReg) (x : Xl), (s.g a).toNat % 64 = 0 ∧ homeOf s.whoStore (s.g a) 64 64 s = .ok x s1 ∧
      s.crowded .req (1025 + slice x.pa) = false ∧ Releases s1 s2 .c) ∧
    (∃ (s s1 s2 s3 : State) (a : GReg) (p : Xl), (s.g a).toNat % 4096 = 0 ∧ homeOf s.whoStore (s.g a) 64 64 s = .ok p s1 ∧ Releases s1 s2 .c ∧
      atHome (s.g a) p.pa s2 = .ok () s3 ∧ ChargesOne s s3 ∧ s3.badIn p.pa 24 = false ∧ s3.homeRead p.pa 8 = 0) ∧
    (∃ (s s1 s2 s3 s4 : State) (a : GReg) (p f : Xl), (s.g a).toNat % 4096 = 0 ∧ homeOf s.whoStore (s.g a) 64 64 s = .ok p s1 ∧ Releases s1 s2 .c ∧
      atHome (s.g a) p.pa s2 = .ok () s3 ∧ ChargesOne s s3 ∧ s3.badIn p.pa 24 = false ∧ s3.homeRead p.pa 8 ≠ 0 ∧ homeOf s.whoLoad (BitVec.ofNat 64 (s3.homeRead p.pa 8)) 8 8 s3 = .ok f s4 ∧
      s4.barred s.here f.pa = false ∧ s4.badIn f.pa 8 = false) ∧
    (∃ (s s1 s2 s3 s4 s5 : State) (a b : GReg) (p f : Xl), (s.g a).toNat % 4096 = 0 ∧ (s.g b).toNat % 4096 = 0 ∧ s.g b ≠ 0 ∧
      homeOf s.whoStore (s.g a) 64 64 s = .ok p s1 ∧ homeOf s.whoStore (s.g b) 8 8 s1 = .ok f s2 ∧ Releases s2 s3 .c ∧
      l1Leave (f.pa / 128) s3 = .ok () s4 ∧ atHome (s.g a) p.pa s4 = .ok () s5 ∧ s5.barred s.here f.pa = false ∧
      (chgOn s5 = true → s5.barred s.here (chgEntry s5 s.me.key.asid s.me.cgrp) = false ∧ s5.badIn (chgEntry s5 s.me.key.asid s.me.cgrp) 16 = false) ∧
      s5.badIn p.pa 16 = false) ∧
    (∃ (s s1 : State) (a b : GReg) (x : Word), NoPacket s ∧ (s.g a).toNat % 8 = 0 ∧ waitRead (s.g a) s = .ok x s1 ∧ x ≠ s.g b) ∧
    (∃ (s s1 : State) (a b : GReg) (x : Word), NoPacket s ∧ (s.g a).toNat % 8 = 0 ∧ waitRead (s.g a) s = .ok x s1 ∧ x = s.g b) ∧
    (∃ (s s1 : State) (a : GReg) (x : Nat), readDesc (s.g a) 16 s = .ok x s1) ∧
    ∃ (s s1 s2 s3 s4 s5 s6 s7 s8 s9 s10 : State) (d : KReg) (a : GReg) (x : Nat) (img : PagePart) (rest : List PagePart)
      (quietPages pages : List (List PagePart)) (seq : BitVec 16),
      let image := BitVec.ofNat 64 (fieldAt x 0 8)
      let ranges := launchRanges x
      let free (w : Who) : Who := { w with charge := none }
      let pageEnd := img.x.pa / 2 ^ sizeShift img.x.size * 2 ^ sizeShift img.x.size + 2 ^ sizeShift img.x.size
      let n := min (pageEnd - img.x.pa) (64 + 0x20000 + 0x1FFE0)
      NoPacket s ∧ (s.g a).toNat % 128 = 0 ∧ readDesc (s.g a) 128 s = .ok x s1 ∧ (∀ e ∈ launchTests x, e.2 = true) ∧
      allPages (free s.whoLoad) image 1 false s1 = .ok (img :: rest) s2 ∧ (∀ p ∈ img :: rest, p.scr = false) ∧
      rangesPages (free s.whoLoad) ranges s2 = .ok quietPages s3 ∧ pagesIdle s.me.key.asid ((img :: rest) ++ quietPages.flatten) s3 = .ok () s4 ∧
      (∀ l ∈ quietPages, l.length ≤ 64) ∧ nearCheck quietPages.flatten s4 = .ok () s5 ∧ rangesPages s.whoLoad ranges s5 = .ok pages s6 ∧
      s.myTile.launches < 8 ∧ s.crowded .req (1025 + slice img.x.pa) = false ∧ claimHandle d s6 = .ok () s7 ∧
      nearReleases (ranges.zip pages) s7 = .ok () s8 ∧ nearRelease image n [{ va := image, len := n, x := img.x }] s8 = .ok () s9 ∧
      startHandle d 4 false s9 = .ok seq s10 := by
  have np : NoPacket s0 := by unfold NoPacket; decide
  -- the records and descriptors read
  have rd (s : State) (a : Word) (n x : Nat) (h : okM (readDesc a n s) = true) (hx : valM 0 (readDesc a n s) = x) :
      readDesc a n s = .ok x (stM (readDesc a n s)) := by rw [← hx]; exact ran 0 h
  let body1 : Nat := 2 * 2 ^ 254 + 3 * 2 ^ 201   -- MODE 2 with the affinity address 0x3000
  let body2 : Nat := 2 ^ 54                       -- a counter at 64
  let x0 : Xl := { pa := 0, mt := 0, size := 0, leaf := 0 }
  let sp (body : BitVec 512) (ans : Option Ans) : State := { s0 with me := { u0 with spawning := some { body := body, pa := 0, cell := 0 }, ans := ans } }
  refine ⟨⟨sp 0 none, _, rfl⟩, ?_, ?_, ?_, ⟨sp 0 none, _, _, 2, _, np, rfl, by decide +kernel, ranU (by decide +kernel), by decide +kernel⟩,
    ⟨sp (BitVec.ofNat 512 body2) (some .accepted), _, 2, _, np, rfl, by decide +kernel, rfl⟩,
    ⟨sp (BitVec.ofNat 512 body2) (some (.placeNow 1)), _, 2, _, 1, np, rfl, by decide +kernel, rfl, by decide +kernel⟩,
    ?_, ?_, ?_, ?_, ?_, ?_, ⟨give s0 [(2, sw 16)], _, 2, _, ran 0 (by decide +kernel)⟩, ?_⟩
  · exact ⟨s0, _, sw 64, 0, rfl, by decide +kernel, rd _ _ _ 0 (by decide +kernel) (by decide +kernel), by decide +kernel, by decide +kernel, by decide +kernel⟩
  · exact ⟨scr (paged 0 0) 64 64 body1, _, _, sw 64, body1, _, rfl, by decide +kernel, rd _ _ _ body1 (by decide +kernel) (by decide +kernel), by decide +kernel,
      by decide +kernel, ran x0 (by decide +kernel), by decide +kernel⟩
  · exact ⟨scr (paged 0 0) 64 64 body2, _, _, sw 64, body2, _, rfl, by decide +kernel, rd _ _ _ body2 (by decide +kernel) (by decide +kernel), by decide +kernel,
      by decide +kernel, by decide +kernel, ran x0 (by decide +kernel)⟩
  · exact ⟨give (paged 0 0) [(2, 0x1FFFFFC0)], _, _, 2, _, by decide +kernel, ran { pa := 0, mt := 0, size := 0, leaf := 0 } (by decide +kernel), by decide +kernel,
      ranU (by decide +kernel)⟩
  · exact ⟨give (paged 0 0) [(2, 0x1000)], _, _, _, 2, _, by decide +kernel, ran x0 (by decide +kernel), ranU (by decide +kernel),
      ranU (by decide +kernel), by decide +kernel, by decide +kernel, by decide +kernel⟩
  · exact ⟨withMem (give (paged 0 0) [(2, 0x1000)]) [(0x1000, 0x3000), (0x1008, 9), (0x1010, 8)], _, _, _, _, 2, _, _, by decide +kernel,
      ran x0 (by decide +kernel), ranU (by decide +kernel), ranU (by decide +kernel), by decide +kernel, by decide +kernel, by decide +kernel,
      ran x0 (by decide +kernel), by decide +kernel, by decide +kernel⟩
  · exact ⟨give (paged 0 0) [(2, 0x1000), (3, 0x3000)], _, _, _, _, _, 2, 3, _, _, by decide +kernel, by decide +kernel, by decide +kernel,
      ran x0 (by decide +kernel), ran x0 (by decide +kernel), ranU (by decide +kernel), ranU (by decide +kernel), ranU (by decide +kernel), by decide +kernel,
      by decide +kernel, by decide +kernel⟩
  · exact ⟨give (paged 0 0) [(2, 0x1000), (3, 1)], _, 2, 3, _, np, by decide +kernel, ran 0 (by decide +kernel), by decide +kernel⟩
  · exact ⟨give (paged 0 0) [(2, 0x1000)], _, 2, 3, _, np, by decide +kernel, ran 0 (by decide +kernel), by decide +kernel⟩
  · let s := scr (give (paged 0 Config.nearBase) [(2, sw 128)]) 128 128 launchDesc
    have h1 := rd s (s.g 2) 128 launchDesc (by decide +kernel) (by decide +kernel)
    have h2 : okM (allPages { s.whoLoad with charge := none } 64 1 false (stM (readDesc (s.g 2) 128 s))) = true := by decide +kernel
    have v2 : valM [] (allPages { s.whoLoad with charge := none } 64 1 false (stM (readDesc (s.g 2) 128 s))) =
        [{ va := 64, len := 1, x := { pa := Config.nearBase + 64, mt := 0, size := 2, leaf := leaf 0 Config.nearBase } }] := by decide +kernel
    have e2 := ran [] h2
    rw [v2] at e2
    exact ⟨s, _, _, _, _, _, _, _, _, _, _, 0, 2, launchDesc, _, _, _, _, _, np, by decide +kernel, h1, by decide +kernel, e2, by decide +kernel, ran [] (by decide +kernel),
      ranU (by decide +kernel), by decide +kernel, ranU (by decide +kernel), ran [] (by decide +kernel), by decide +kernel, by decide +kernel, ranU (by decide +kernel),
      ranU (by decide +kernel), ranU (by decide +kernel), ran 0 (by decide +kernel)⟩

/-! ### Witnesses: messages and barriers -/

/-- Tile 0's eyelet 0 of generation 1, owned by the strand being stepped, with this queue. -/
def eyed (q : List Word) : State :=
  (give s0 [(2, 0x100010000)]).modMyTile fun t => { t with
    eyelets := [(0, { Eyelet.blank with gen := 1, live := true, owner := u0.key, ring := 0x1000, ringN := 32, scr := 0x800, queue := q })] }

theorem witness_MessagesComplete :
    (∃ (s s1 s2 : State) (a : GReg) (x i : Nat) (l : List PagePart),
      let ring := BitVec.ofNat 64 (fieldAt x 0 8)
      let n := fieldAt x 8 4
      let scr := fieldAt x 12 4
      (s.g a).toNat % 64 = 0 ∧ readDesc (s.g a) 64 s = .ok x s1 ∧ ring.toNat % 4096 = 0 ∧ 32 ≤ n ∧ n ≤ 1048576 ∧ (∃ k, n = 2 ^ k) ∧
      scr % 2048 = 0 ∧ scr + 2048 ≤ Config.scratchSize ∧ fieldAt x 16 48 = 0 ∧
      allPages s.whoStore ring (128 * n) true s1 = .ok l s2 ∧ (∀ p ∈ l, p.scr = false) ∧
      i < 64 ∧ (s.myTile.eyelet i).live = false ∧ (∀ j < i, (s.myTile.eyelet j).live = true) ∧
      (∀ m ∈ s.myTile.stashes, overlap scr 2048 m.2.off m.2.len = false) ∧
      (∀ e ∈ s.myTile.eyelets, e.2.live = true → overlap scr 2048 e.2.scr 2048 = false) ∧ (isCobbler s.here = true → scr + 2048 ≤ Config.cobblerBase) ∧
      ownerFail s2 s2.here s2.me.key.asid s2.me.supv scr 2048 = none) ∧
    (∃ (i : Instr) (s : State) (cls : Bool) (a b : GReg), postOf i = some (cls, a, b) ∧ NoPacket s ∧ goodId (s.g a) s.me.key.asid ∧ s.me.ans = some .accepted) ∧
    (∃ (i : Instr) (s : State) (cls : Bool) (a b : GReg), postOf i = some (cls, a, b) ∧ NoPacket s ∧ goodId (s.g a) s.me.key.asid ∧ s.me.ans = some .stale) ∧
    (∃ (i : Instr) (s : State) (cls : Bool) (a b : GReg), postOf i = some (cls, a, b) ∧ NoPacket s ∧ goodId (s.g a) s.me.key.asid ∧ s.me.ans = some .refused) ∧
    (∃ (i : Instr) (s s1 : State) (cls : Bool) (a b : GReg), postOf i = some (cls, a, b) ∧ NoPacket s ∧ goodId (s.g a) s.me.key.asid ∧ s.me.ans = none ∧
      s.crowded (if cls then .msg1 else .msg0) (eyTile (s.g a)) = false ∧ Releases { s with passed := true } s1 .c) ∧
    (∃ (s : State) (a : GReg), NoPacket s ∧ eyTile (s.g a) = s.here ∧ goodId (s.g a) s.me.key.asid ∧ (s.myTile.eyelet (eyIndex (s.g a))).live = true ∧
      (s.myTile.eyelet (eyIndex (s.g a))).gen = eyGen (s.g a) ∧ (s.myTile.eyelet (eyIndex (s.g a))).owner = s.me.key ∧
      (s.myTile.eyelet (eyIndex (s.g a))).queue ≠ []) ∧
    (∃ (s : State) (a : GReg), NoPacket s ∧ eyTile (s.g a) = s.here ∧ goodId (s.g a) s.me.key.asid ∧ (s.myTile.eyelet (eyIndex (s.g a))).live = true ∧
      (s.myTile.eyelet (eyIndex (s.g a))).gen = eyGen (s.g a) ∧ (s.myTile.eyelet (eyIndex (s.g a))).owner = s.me.key ∧
      (s.myTile.eyelet (eyIndex (s.g a))).queue = [] ∧
      (((match (s.myTile.eyelet (eyIndex (s.g a))).last with
        | some n => (s.modMyTile fun t => t.freeLast (eyIndex (s.g a))).serve s.here ((s.myTile.eyelet (eyIndex (s.g a))).scr + 64 * n.val) 64
        | none => s.modMyTile fun t => t.freeLast (eyIndex (s.g a))).pump s.here (eyIndex (s.g a)) 32).myTile.eyelet (eyIndex (s.g a))).queue = []) ∧
    (∃ (s : State) (a : GReg) (h : Word) (r : List Word), NoPacket s ∧ eyTile (s.g a) = s.here ∧ goodId (s.g a) s.me.key.asid ∧
      (s.myTile.eyelet (eyIndex (s.g a))).live = true ∧ (s.myTile.eyelet (eyIndex (s.g a))).gen = eyGen (s.g a) ∧
      (s.myTile.eyelet (eyIndex (s.g a))).owner = s.me.key ∧
      (((match (s.myTile.eyelet (eyIndex (s.g a))).last with
        | some n => (s.modMyTile fun t => t.freeLast (eyIndex (s.g a))).serve s.here ((s.myTile.eyelet (eyIndex (s.g a))).scr + 64 * n.val) 64
        | none => s.modMyTile fun t => t.freeLast (eyIndex (s.g a))).pump s.here (eyIndex (s.g a)) 32).myTile.eyelet (eyIndex (s.g a))).queue = h :: r) ∧
    (∃ (i : Instr) (s : State) (cls : Bool) (a : GReg), openOf i = some (cls, a) ∧ s.me.pkst.getLsbD 63 = false ∧ goodId (s.g a) s.me.key.asid) ∧
    (∃ s : State, s.me.pkst.getLsbD 62 = false ∧ s.me.pkst.getLsbD 63 = true ∧ s.me.pkst.toNat / 2 ^ 57 % 16 = 6) ∧
    ∃ s : State, s.me.pkst.getLsbD 62 = false ∧ s.me.pkst.getLsbD 63 = true ∧ s.me.pkst.toNat / 2 ^ 57 % 16 = 0 ∧ s.me.ans = some .accepted := by
  have id : goodId (0x100010000) 1 := by unfold goodId; decide
  have np (s : State) (h : s.src.pkst.getLsbD 63 = false) : NoPacket s := h
  let w (a : Option Ans) : State := give { s0 with me := { u0 with ans := a } } [(2, 0x100010000)]
  refine ⟨?_, ⟨.eypostMsg0 2 3, w (some .accepted), _, _, _, rfl, np _ (by decide +kernel), id, rfl⟩,
    ⟨.eypostMsg1 2 3, w (some .stale), _, _, _, rfl, np _ (by decide +kernel), id, rfl⟩,
    ⟨.eypostMsg0 2 3, w (some .refused), _, _, _, rfl, np _ (by decide +kernel), id, rfl⟩,
    ⟨.eypostMsg1 2 3, w none, _, _, _, _, rfl, np _ (by decide +kernel), id, rfl, by decide +kernel, ranU (by decide +kernel)⟩,
    ⟨eyed [9], 2, np _ (by decide +kernel), by decide +kernel, id, by decide +kernel, by decide +kernel, by decide +kernel, by decide +kernel⟩,
    ⟨eyed [], 2, np _ (by decide +kernel), by decide +kernel, id, by decide +kernel, by decide +kernel, by decide +kernel, by decide +kernel, by decide +kernel⟩,
    ⟨eyed [9], 2, 9, [], np _ (by decide +kernel), by decide +kernel, id, by decide +kernel, by decide +kernel, by decide +kernel, by decide +kernel⟩,
    ⟨.popenMsg1 2, w none, _, _, rfl, by decide +kernel, id⟩,
    ⟨{ s0 with me := { u0 with pkst := 0x8C00000000000000 } }, by decide, by decide, by decide⟩,
    ⟨{ s0 with me := { u0 with pkst := 0x8000000000000000, ans := some .accepted } }, by decide, by decide, by decide, rfl⟩⟩
  let x := 0x1000 + 32 * 2 ^ 64 + 0x1FF800 * 2 ^ 96
  let s := scr (give (paged 0 0) [(2, sw 64)]) 64 64 x
  have h1 : readDesc (s.g 2) 64 s = .ok x (stM (readDesc (s.g 2) 64 s)) := by
    rw [← show valM 0 (readDesc (s.g 2) 64 s) = x by decide +kernel]
    exact ran 0 (by decide +kernel)
  exact ⟨s, _, _, 2, x, 0, _, by decide +kernel, h1, by decide +kernel, by decide +kernel, by decide +kernel, ⟨5, by decide +kernel⟩, by decide +kernel, by decide +kernel,
    by decide +kernel, ran [] (by decide +kernel), by decide +kernel, by decide, by decide +kernel, by decide +kernel, by decide +kernel, by decide +kernel,
    by decide +kernel, by decide +kernel⟩

theorem witness_BarriersComplete :
    (∃ (i : Instr) (s : State) (kind : Fin 5) (lvl : Level) (val : Word) (d : Option GReg) (a : Arrival) (r : Word), barrierOf i s = some (kind, lvl, val, d) ∧
      NoPacket s ∧ s.me.arrival = some a ∧ a.result = some r) ∧
    (∃ (i : Instr) (s s1 : State) (kind : Fin 5) (lvl : Level) (val : Word) (d : Option GReg), barrierOf i s = some (kind, lvl, val, d) ∧ NoPacket s ∧
      s.me.arrival = none ∧ s.crowded .sync s.here = false ∧ Releases { s with passed := true } s1 (if lvl = .tile then .t else .c)) ∧
    ∃ vals : List Word, vals ≠ [] :=
  ⟨⟨.bvote 1 2 .cube, { s0 with me := { u0 with arrival := some { kind := 1, level := .cube, val := 1, stage := 2, result := some 3 } } }, _, _, _, _, _, _, rfl, rfl, rfl, rfl⟩,
    ⟨.bar .tile, s0, _, _, _, _, _, rfl, rfl, rfl, by decide +kernel, ranU (by decide +kernel)⟩, [0], by decide⟩

/-! ### Witnesses: Burlia -/

/-- A kernel of stack 0 with one range of a page of 512 MiB that it may read and write. -/
def kern0 : Kernel :=
  { asid := 1, tile := 0, key := u0.key, kreg := 0, seq := 0, stack := 0, image := Config.nearBase, imageEnd := Config.nearBase + 2 ^ 29,
    ranges := [{ base := 0, len := 2 ^ 29, r := true, w := true }],
    segs := [{ range := 0, va := 0, bytes := 2 ^ 29, loc := 2 ^ 35, pa := Config.nearBase, w := true }], args := [0, 0, 0, 0], supv := true }

/-- A core that runs it, with these pointers and this tag of A. -/
def kc (l : List (PReg × Word)) (tag : Tag) : State :=
  { s0 with nearsz := 32, core := { Core.reset with kern := some kern0, p := l.foldl (fun v e => v.set e.1 e.2) Core.reset.p, atag := tag, c := 1 } }

theorem kPtr_keeps_the_state (n : PReg) (size al : Nat) (w d : Bool) (s : State) : stM (kPtr n size w d al s) = s := by
  cases h : s.core.kern with
  | none => simp [kPtr, Machine.kOf, h, stM, bind, EStateM.bind, get, getThe, MonadStateOf.get, EStateM.get, throw, throwThe, MonadExceptOf.throw, EStateM.throw]
  | some k =>
    simp only [kPtr, Machine.kOf, h, bind, EStateM.bind, get, getThe, MonadStateOf.get, EStateM.get, pure, EStateM.pure]
    cases kLoc k (pSpace (s.ptr n)) (pAddr (s.ptr n)) size al w d none <;> rfl

theorem kRow_keeps_the_state (n : PReg) (idx size : Nat) (w d : Bool) (s : State) : stM (kRow n idx size w d s) = s := by
  cases h : s.core.kern with
  | none => simp [kRow, Machine.kOf, h, stM, bind, EStateM.bind, get, getThe, MonadStateOf.get, EStateM.get, throw, throwThe, MonadExceptOf.throw, EStateM.throw]
  | some k =>
    simp only [kRow, Machine.kOf, h, bind, EStateM.bind, get, getThe, MonadStateOf.get, EStateM.get, pure, EStateM.pure]
    cases kLoc k (pSpace (s.ptr n)) ((pAddr (s.ptr n) : Int) + (idx : Int) * pStr (s.ptr n)) size size w d
      (if pSpace (s.ptr n) = 0 && !d then some (pAddr (s.ptr n) / 2 ^ 36) else none) <;>
    cases (pSpace (s.ptr n) == 1 && decide (2 ^ 18 ≤ pAddr (s.ptr n))) <;> rfl

theorem rows {n : PReg} {idx size : Nat} {w d : Bool} {s : State} {l : Loc} (h : okM (kRow n idx size w d s) = true)
    (hl : valM (.sram 0) (kRow n idx size w d s) = l) : kRow n idx size w d s = .ok l s := by
  rw [ran (.sram 0) h, hl, kRow_keeps_the_state]

theorem rowFails {n : PReg} {idx size code : Nat} {w d : Bool} {s : State}
    (h : (match kRow n idx size w d s with | .ok .. => false | .error e _ => decide (e = .code code)) = true) :
    kRow n idx size w d s = .error (.code code) s := by
  have k := kRow_keeps_the_state n idx size w d s
  cases e : kRow n idx size w d s <;> simp_all [stM]

theorem ptrFails {n : PReg} {size al code : Nat} {w d : Bool} {s : State}
    (h : (match kPtr n size w d al s with | .ok .. => false | .error e _ => decide (e = .code code)) = true) :
    kPtr n size w d al s = .error (.code code) s := by
  have k := kPtr_keeps_the_state n size al w d s
  cases e : kPtr n size w d al s <;> simp_all [stM]

theorem locs {n : PReg} {size al : Nat} {w d : Bool} {s : State} {l : Loc} (h : okM (kPtr n size w d al s) = true)
    (hl : valM (.sram 0) (kPtr n size w d al s) = l) : kPtr n size w d al s = .ok l s := by
  rw [ran (.sram 0) h, hl, kPtr_keeps_the_state]

theorem witness_BurliaControlAndRegisters :
    (∃ (i : Instr) (s : State) (c : Core) (f : Nat → Nat), coreResult i s.core = some (c, f)) ∧
    (∃ (i : Instr) (s : State) (off : BitVec 20) (c f : Word), coreBranch i s.core = some (false, off, c, f)) ∧
    (∃ (i : Instr) (s : State) (off : BitVec 20) (c f : Word), coreBranch i s.core = some (true, off, c, f) ∧
      (s.core.pc.toNat : Int) + 4 * off.toInt = 0x1FFFC) ∧
    (∃ (i : Instr) (s : State) (off : BitVec 20) (c f : Word), coreBranch i s.core = some (true, off, c, f) ∧
      (s.core.pc.toNat : Int) + 4 * off.toInt = 0x20000) ∧
    (∃ (i : Instr) (s : State) (off : BitVec 20) (c f : Word), coreBranch i s.core = some (true, off, c, f) ∧
      (s.core.pc.toNat : Int) + 4 * off.toInt = -4) ∧
    (∃ (s : State) (k : Kernel), s.core.kern = some k ∧ s.core.posted = []) ∧ ∃ s : State, s.core.posted ≠ [] :=
  ⟨⟨.acvt .i32 .rne, kc [] .f32, _, _, rfl⟩, ⟨.loop 0xFFFFF, kc [] .f32, _, _, _, rfl⟩, ⟨.b 0x7FFF, kc [] .f32, _, _, _, rfl, by decide +kernel⟩,
    ⟨.b 0x8000, kc [] .f32, _, _, _, rfl, by decide +kernel⟩, ⟨.b 0xFFFFF, kc [] .f32, _, _, _, rfl, by decide +kernel⟩, ⟨kc [] .f32, kern0, rfl, rfl⟩,
    { s0 with core := { Core.reset with posted := [.fmaxn 0 0] } }, by decide⟩

theorem witness_BurliaMemoryInstructions :
    (∃ (i : Instr) (s s1 : State) (a : PReg) (ia : Bool) (n x : Nat) (tag : Option Tag) (put : Nat → Core → Core) (l : Loc),
      coreLoad i = some (a, ia, n, tag, put) ∧ i.wf = true ∧ TagFits s.core tag ∧ kPtr a n false false n s = .ok l s ∧ kRead l n s = .ok x s1) ∧
    (∃ (i : Instr) (s s1 : State) (a : PReg) (ia dram : Bool) (n v : Nat) (tag : Option Tag) (l : Loc),
      coreStore i s.core = some (a, ia, n, dram, tag, v) ∧ TagFits s.core tag ∧ kPtr a n true dram n s = .ok l s ∧ kWrite l n v s = .ok () s1) ∧
    (∃ (i : Instr) (s : State) (a : PReg) (ia : Bool) (p : Nat → Posted) (loc : Nat), coreNear i s.core = some (a, ia, p) ∧ s.core.atag = .f32 ∧
      kPtr a 64 true true 64 s = .ok (.dram loc) s) ∧
    (∃ (i : Instr) (s s1 s2 : State) (a b : PReg) (ia : Bool) (f : Tag) (op : Nat → Nat → Nat) (la lb : Loc) (x y : Nat), coreGather i = some (a, b, ia, f, op) ∧
      s.core.atag = (if f = .i32 ∨ f = .i8 then .i32 else .f32) ∧ kPtr a 4 false false 4 s = .ok la s ∧ kRead la 4 s = .ok x s1 ∧
      kRow b x (16 * elemSize f) false false s1 = .ok lb s1 ∧ kRead lb (16 * elemSize f) s1 = .ok y s2) ∧
    (∃ (s s1 : State) (a b : PReg) (la : Loc) (x loc : Nat), s.core.atag = .f32 ∧ kPtr a 4 false false 4 s = .ok la s ∧
      kRead la 4 s = .ok x s1 ∧ kRow b x 64 true true s1 = .ok (.dram loc) s1) ∧
    (∃ (s s1 s2 : State) (a b : PReg) (la lb : Loc) (x : Nat), kPtr a 64 false false 64 s = .ok la s ∧
      kPtr b 64 true false 64 s = .ok lb s ∧ kRead la 64 s = .ok x s1 ∧ kWrite lb 64 x s1 = .ok () s2) ∧
    (∃ (s s1 s2 : State) (a b : PReg) (f : Tag) (rm : Rnd) (la lb : Loc) (x y : Nat), (Instr.afma a b true true f rm).wf = true ∧
      s.core.atag = .f32 ∧ kPtr a (16 * elemSize f) false false (16 * elemSize f) s = .ok la s ∧
      kPtr b (16 * elemSize f) false false (16 * elemSize f) s = .ok lb s ∧ kRead la (16 * elemSize f) s = .ok x s1 ∧
      kRead lb (16 * elemSize f) s1 = .ok y s2) ∧
    (∃ (s : State) (k : Kernel) (loc : Nat), s.core.kern = some k ∧ s.clampedByOther k.stack loc = false ∧
      s.badIn (s.unplace k.stack (loc / 64 * 64)) 64 = false ∧ ∀ p ∈ s.core.posted, p.loc / 64 ≠ loc / 64) ∧
    (∃ (i : Instr) (s : State) (tag : Option Tag) (l r : List (PReg × Nat × Bool × Bool)) (p : PReg) (n code : Nat) (w d : Bool),
      coreOperands i = some (tag, l ++ (p, n, w, d) :: r) ∧ i.wf = true ∧ TagFits s.core tag ∧
      (∀ q ∈ l, ∃ x, kPtr q.1 q.2.1 q.2.2.1 q.2.2.2 q.2.1 s = .ok x s) ∧ kPtr p n w d n s = .error (.code code) s) ∧
    (∃ (i : Instr) (s s1 : State) (tag : Option Tag) (o : List (PReg × Nat × Bool × Bool)) (a b : PReg) (n x code : Nat) (d : Bool) (l : Loc),
      coreOperands i = some (tag, o) ∧ coreRow i = some (a, b, n, d) ∧ i.wf = true ∧ TagFits s.core tag ∧ kPtr a 4 false false 4 s = .ok l s ∧
      kRead l 4 s = .ok x s1 ∧ kRow b x n d d s1 = .error (.code code) s1) ∧
    ∃ (i : Instr) (s : State) (tag : Tag) (o : List (PReg × Nat × Bool × Bool)), coreOperands i = some (some tag, o) ∧ i.wf = true ∧ s.core.atag ≠ tag := by
  let s := kc [(1, 0x40), (2, 0x400000003FFC0), (3, 0x4000000000020000), (4, 0x20000000)] .f32
  refine ⟨⟨.aadd 1 true .f16 .rup, s, _, 1, true, 32, _, _, _, .dram (2 ^ 35 + 0x40), rfl, by decide, fun x h => by cases h; rfl, locs (by decide +kernel) (by decide +kernel), ran 0 (by decide +kernel)⟩,
    ⟨.ast 3 false .f32 .rne, s, _, 3, false, false, _, _, _, .sram 0x20000, rfl, fun x h => by cases h; rfl, locs (by decide +kernel) (by decide +kernel), rfl⟩,
    ⟨.faddn 1 true .rne, s, 1, true, _, 2 ^ 35 + 0x40, rfl, rfl, locs (by decide +kernel) (by decide +kernel)⟩,
    ⟨.maxx 3 1 true .f32, s, _, _, 3, 1, true, .f32, _, .sram 0x20000, .dram (2 ^ 35 + 0x40), 0, _, rfl, by decide +kernel, locs (by decide +kernel) (by decide +kernel), rfl, rows (by decide +kernel) (by decide +kernel), ran 0 (by decide +kernel)⟩,
    ⟨s, _, 3, 1, .sram 0x20000, 0, 2 ^ 35 + 0x40, rfl, locs (by decide +kernel) (by decide +kernel), rfl, rows (by decide +kernel) (by decide +kernel)⟩, ⟨s, _, _, 1, 3, .dram (2 ^ 35 + 0x40), .sram 0x20000, _, locs (by decide +kernel) (by decide +kernel),
      locs (by decide +kernel) (by decide +kernel), ran 0 (by decide +kernel), rfl⟩,
    ⟨s, _, _, 1, 1, .bf16, .rtz, .dram (2 ^ 35 + 0x40), .dram (2 ^ 35 + 0x40), _, _, by decide, rfl, locs (by decide +kernel) (by decide +kernel),
      locs (by decide +kernel) (by decide +kernel), ran 0 (by decide +kernel), ran 0 (by decide +kernel)⟩,
    ⟨s, kern0, 2 ^ 35, rfl, by decide +kernel, by decide +kernel, by decide +kernel⟩,
    ⟨.afma 1 4 false true .f32 .rne, s, _, [(1, 64, false, false)], [], 4, 64, REACH, false, false, rfl, by decide, fun x h => by cases h; rfl, by
      intro q hq; obtain rfl := List.mem_singleton.mp hq
      exact ⟨.dram (2 ^ 35 + 0x40), locs (by decide +kernel) (by decide +kernel)⟩, ptrFails (by decide +kernel)⟩,
    ⟨.faddnx 3 4 false .rne, s, _, _, _, 3, 4, 64, 0, REACH, true, .sram 0x20000, rfl, rfl, by decide, fun x h => by cases h; rfl,
      locs (by decide +kernel) (by decide +kernel), rfl, rowFails (by decide +kernel)⟩,
    ⟨.aadd 1 true .i8 .rne, s, _, _, rfl, by decide, by decide +kernel⟩⟩

theorem witness_BurliaClampsAndRows :
    (∃ (s : State) (k : Kernel) (a : PReg) (loc : Nat), s.core.kern = some k ∧ kPtr a 1 true true 1 s = .ok (.dram loc) s ∧ s.core.clamps ≠ []) ∧
    (∀ waiting : Bool, ∃ (s : State) (k : Kernel) (a : PReg) (loc : Nat), s.core.kern = some k ∧ kPtr a 1 true true 1 s = .ok (.dram loc) s ∧
      s.core.clamps = [] ∧ s.core.waiting = waiting ∧ ¬ BanksTaken s k.stack [s.bank k.stack loc]) ∧
    (∃ (s : State) (k : Kernel) (a : PReg) (loc : Nat), s.core.kern = some k ∧ kPtr a 1 true true 1 s = .ok (.dram loc) s ∧ s.core.clamps = [] ∧
      s.core.waiting = false ∧ ∃ e ∈ (s.stack k.stack).clampq, s.bank k.stack loc ∈ e.2) ∧
    (∃ (s : State) (k : Kernel) (a : PReg) (loc : Nat), s.core.kern = some k ∧ kPtr a 1 true true 1 s = .ok (.dram loc) s ∧ s.core.clamps = [] ∧
      s.core.waiting = false ∧ ∃ e ∈ s.cores, e.1 / 16 = k.stack ∧ s.bank k.stack loc ∈ e.2.clamps) ∧
    (∀ taken : Bool, ∃ (s : State) (k : Kernel) (a b : PReg) (x y : Nat), s.core.kern = some k ∧ kPtr a 1 true true 1 s = .ok (.dram x) s ∧
      kPtr b 1 true true 1 s = .ok (.dram y) s ∧ s.core.clamps = [] ∧ s.core.waiting = false ∧ s.bank k.stack x ≠ s.bank k.stack y ∧
      (BanksTaken s k.stack [s.bank k.stack x, s.bank k.stack y] ↔ taken = true)) ∧
    (∃ (s : State) (k : Kernel) (a b : PReg) (x y : Nat), s.core.kern = some k ∧ kPtr a 1 true true 1 s = .ok (.dram x) s ∧
      kPtr b 1 true true 1 s = .ok (.dram y) s ∧ s.core.clamps ≠ []) ∧
    (∃ s : State, s.core.c = 0) ∧
    (∀ cl : Bool, ∃ (s : State) (k : Kernel) (a : PReg) (loc : Nat), s.core.c ≠ 0 ∧ s.core.kern = some k ∧
      kPtr a 2048 true true 2048 s = .ok (.dram loc) s ∧ s.core.clamps.contains (s.bank k.stack loc) = false ∧ s.core.f.getLsbD 0 = cl) ∧
    (∃ (s : State) (k : Kernel) (a b : PReg) (loc x : Nat), s.core.c ≠ 0 ∧ s.core.kern = some k ∧ kPtr b 2048 false true 2048 s = .ok (.dram x) s ∧
      s.core.clamps.contains (s.bank k.stack x) = true ∧ kPtr a 2048 true true 2048 s = .ok (.dram loc) s ∧
      s.core.clamps.contains (s.bank k.stack loc) = false) ∧
    (∃ (s : State) (k : Kernel) (a : PReg) (loc : Nat), s.core.c ≠ 0 ∧ s.core.kern = some k ∧
      kPtr a 2048 true true 2048 s = .ok (.dram loc) s ∧ s.core.clamps.contains (s.bank k.stack loc) = true ∧
      ∀ p ∈ s.core.posted, p.loc / 2048 ≠ loc / 2048) ∧
    ∃ (s : State) (k : Kernel) (a b : PReg) (la lb : Nat), s.core.c ≠ 0 ∧ s.core.kern = some k ∧
      kPtr a 2048 false true 2048 s = .ok (.dram la) s ∧ kPtr b 2048 true true 2048 s = .ok (.dram lb) s ∧
      s.core.clamps.contains (s.bank k.stack la) = true ∧ s.core.clamps.contains (s.bank k.stack lb) = true ∧
      (∀ p ∈ s.core.posted, p.loc / 2048 ≠ la / 2048 ∧ p.loc / 2048 ≠ lb / 2048) ∧ ∀ i < 32, s.badIn (s.unplace k.stack la + 64 * i) 64 = false := by
  let s := kc [(1, 0x40), (2, 0x1000), (3, 0x800)] .f32
  let t := s.modCore fun c => { c with clamps := [s.bank 0 (2 ^ 35)] }
  have free {u : State} (l : List (Nat × Nat)) (h : (u.stack 0).clampq = [] ∧ u.cores = []) : ¬ BanksTaken u 0 l := by
    simp [BanksTaken, h.1, h.2]
  refine ⟨⟨t, kern0, 1, 2 ^ 35 + 0x40, rfl, locs (by decide +kernel) (by decide +kernel), by decide +kernel⟩,
    fun w => ⟨s.modCore fun c => { c with waiting := w }, kern0, 1, 2 ^ 35 + 0x40, rfl, by cases w <;> exact locs (by decide +kernel) (by decide +kernel),
      rfl, rfl, free _ (by cases w <;> decide +kernel)⟩,
    ⟨s.setStack 0 { Stack.reset with clampq := [(3, [s.bank 0 (2 ^ 35)])] }, kern0, 1, 2 ^ 35 + 0x40, rfl, locs (by decide +kernel) (by decide +kernel), rfl, rfl, by decide +kernel⟩,
    ⟨{ s with cores := [(15, t.core)] }, kern0, 1, 2 ^ 35 + 0x40, rfl, locs (by decide +kernel) (by decide +kernel), rfl, rfl, by decide +kernel⟩,
    fun b => match b with
      | false => ⟨s, kern0, 1, 2, 2 ^ 35 + 0x40, 2 ^ 35 + 0x1000, rfl, locs (by decide +kernel) (by decide +kernel), locs (by decide +kernel) (by decide +kernel),
          rfl, rfl, by decide +kernel, iff_of_false (free (u := s) _ (by decide +kernel)) (by decide)⟩
      | true => ⟨{ s with cores := [(15, t.core)] }, kern0, 1, 2, 2 ^ 35 + 0x40, 2 ^ 35 + 0x1000, rfl, locs (by decide +kernel) (by decide +kernel),
          locs (by decide +kernel) (by decide +kernel), rfl, rfl, by decide +kernel,
          iff_of_true ⟨s.bank 0 (2 ^ 35), List.mem_cons_self, .inr ⟨(15, t.core), List.mem_cons_self, by decide, by decide +kernel⟩⟩ rfl⟩,
    ⟨t, kern0, 1, 2, 2 ^ 35 + 0x40, 2 ^ 35 + 0x1000, rfl, locs (by decide +kernel) (by decide +kernel), locs (by decide +kernel) (by decide +kernel), by decide +kernel⟩,
    ⟨s0, by decide +kernel⟩,
    fun cl => ⟨s.modCore fun c => { c with f := if cl then 1 else 0 }, kern0, 3, 2 ^ 35 + 0x800, by cases cl <;> decide +kernel, rfl,
      by cases cl <;> exact locs (by decide +kernel) (by decide +kernel), by cases cl <;> decide +kernel, by cases cl <;> decide +kernel⟩,
    ⟨t, kern0, 2, 4, 2 ^ 35 + 0x1000, 2 ^ 35, by decide +kernel, rfl, locs (by decide +kernel) (by decide +kernel), by decide +kernel,
      locs (by decide +kernel) (by decide +kernel), by decide +kernel⟩, ⟨t, kern0, 3, 2 ^ 35 + 0x800, by decide +kernel, rfl, locs (by decide +kernel) (by decide +kernel), by decide +kernel, by decide +kernel⟩,
    ⟨t, kern0, 4, 3, 2 ^ 35, 2 ^ 35 + 0x800, by decide +kernel, rfl, locs (by decide +kernel) (by decide +kernel),
      locs (by decide +kernel) (by decide +kernel), by decide +kernel, by decide +kernel, by decide +kernel, by decide +kernel⟩⟩

/-! ### Witnesses: messages and records -/

/-- A cube that runs, with one strand of space 1 on tile 0 and these messages in flight. -/
def net (l : List Msg) : State := { State.reset with phase := .running, strands := [u0], nearsz := 32, msgs := l }

def msg (c : Cls) (src dst : Nat) (b : Body) : Msg :=
  { cls := c, src := src, dst := dst, ord := 0, rord := 0, esc := false, escAt := 0, det := false, seq := 0, attempt := 0, holds := 0, st := .sent, body := b }

/-- The leaf of `paged` in tile `t`'s L1 TLB. -/
def pagedAt (t : Nat) (s : State) : State := s.modTile t fun u => { u with tlb1 := [{ asid := 1, size := 2, page := 0, leaf := leaf 0 0 }] }

/-- A record of space 1 whose first 256 bits are these. -/
def rec0 (b : Nat) : Rec := { body := BitVec.ofNat 512 b, dom := 0, asid := 1, cgrp := 0, stamp := 0, hold := 0, spill := none }

theorem arrives {m : Msg} {s : State} (i : Nat) (h : s.msgs[i]? = some m) (hs : m.st = .sent) (hw : s.lostOn m.trip = none) (ho : (s.windowed i m && s.inOrder i m) = true) :
    Arrives s i m := ⟨h, hs, hw, by simpa using ho⟩

/-- What RequestsArePerformed assumes of an answer that returns to its requester. -/
def Returns (s s1 : State) (i : Nat) (m : Msg) (a : Ans) : Prop :=
  s.msgs[i]? = some m ∧ m.st = .answered a ∧ s.lostOn m.tripBack = none ∧ (∀ key op o, m.body ≠ .access key op o) ∧ s.holdAnswer m = s ∧
  s.isHeld m.src m = false ∧ s.answered m a = some s1

theorem witness_RequestsArePerformed :
    (∃ (s : State) (i : Nat) (m : Msg) (key : Key) (pa op : Nat) (wide : Bool) (v : Word), Arrives s i m ∧ m.body = .redn key pa op wide v ∧
      s.heldAtHome pa = false ∧ s.badIn pa (if wide then 8 else 4) = false) ∧
    (∃ (s s1 : State) (i : Nat) (m : Msg) (key : Key) (op : HomeOp) (x : HomeAns), Arrives s i m ∧ m.body = .access key op none ∧
      s.served m.src m.dst op = some (x, s1)) ∧
    (∃ (s : State) (i : Nat) (m : Msg) (asid : BitVec 12) (pa : Nat) (cell : Word), Arrives s i m ∧ m.body = .decrement asid pa cell ∧ s.heldAtHome pa = false ∧
      s.badIn pa 64 = false ∧ BitVec.ofNat 64 (s.homeRead pa 8) - 1 = 0) ∧
    (∃ (s : State) (i : Nat) (m : Msg) (who : Spawner) (pa e : Nat), Arrives s i m ∧ m.body = .waiter who pa e ∧ s.heldAtHome pa = false ∧
      s.badIn pa 64 = false ∧ (BitVec.ofNat 64 (s.homeRead pa 8)).toInt = 0) ∧
    (∃ (s : State) (i : Nat) (m : Msg) (who : Spawner) (pa e : Nat), Arrives s i m ∧ m.body = .waiter who pa e ∧ s.heldAtHome pa = false ∧
      s.badIn pa 64 = false ∧ 0 < (BitVec.ofNat 64 (s.homeRead pa 8)).toInt ∧ ∀ j < 7, s.homeRead (pa + 8 * (j + 1)) 8 ≠ 0) ∧
    (∃ (s : State) (i : Nat) (m : Msg) (who : Spawner) (pa e j : Nat), Arrives s i m ∧ m.body = .waiter who pa e ∧ s.heldAtHome pa = false ∧
      s.badIn pa 64 = false ∧ j < 7 ∧ 0 < (BitVec.ofNat 64 (s.homeRead pa 8)).toInt ∧ s.homeRead (pa + 8 * (j + 1)) 8 = 0 ∧
      ∀ l < j, s.homeRead (pa + 8 * (l + 1)) 8 ≠ 0) ∧
    (∃ (s s2 : State) (i : Nat) (m : Msg) (e : Nat), Arrives s i m ∧ m.body = .release e ∧ s.isHeld m.dst m = false ∧
      s.areaFault ((s.tile m.dst).dfrBase + 128 * e) = none ∧ s.barred m.dst ((s.tile m.dst).dfrBase + 128 * e) = false ∧
      s.resident (recOfEntry (s.homeRead ((s.tile m.dst).dfrBase + 128 * e) 128)).asid = true ∧
      (s.freeDeferral m.dst e).placeReleased m.dst (recOfEntry (s.homeRead ((s.tile m.dst).dfrBase + 128 * e) 128)) = some s2) ∧
    (∃ (s : State) (i : Nat) (m : Msg) (r : Rec) (climb : Bool) (cmd : Option CmdRef), Arrives s i m ∧ m.body = .enq r climb cmd ∧
      (climb = false ∨ s.lightest m.dst = m.dst) ∧ s.canTake m.dst r = true) ∧
    (∃ (s : State) (i : Nat) (m : Msg) (r : Rec) (cmd : Option CmdRef), Arrives s i m ∧ m.body = .enq r true cmd ∧ s.lightest m.dst ≠ m.dst ∧
      (s.tile m.dst).credit (s.lightest m.dst) < 2) ∧
    (∃ (s : State) (i : Nat) (m : Msg) (x : HomeAns) (key : Key) (op : HomeOp), s.msgs[i]? = some m ∧ m.st = .answered (.home x) ∧
      s.lostOn m.tripBack = none ∧ m.body = .access key op none ∧ ∀ pa n v sh, op ≠ .write pa n v sh) ∧
    (∃ (s : State) (i : Nat) (m : Msg) (x : HomeAns) (key : Key) (pa n v : Nat) (sh : Word), s.msgs[i]? = some m ∧ m.st = .answered (.home x) ∧
      s.lostOn m.tripBack = none ∧ m.body = .access key (.write pa n v sh) none) ∧
    (∃ (s s1 : State) (i : Nat) (m : Msg) (a : Ans) (key : Key) (pa op : Nat) (wide : Bool) (v : Word), Returns s s1 i m a ∧ m.body = .redn key pa op wide v) ∧
    (∃ (s s1 : State) (i : Nat) (m : Msg) (a : Ans) (r : Rec) (climb : Bool) (cmd : Option CmdRef), Returns s s1 i m a ∧ m.body = .enq r climb cmd) ∧
    ∃ (s s1 : State) (i : Nat) (m : Msg) (a : Ans) (key : Key) (id : Word) (cls pkt : Bool) (words : List Word) (seq : BitVec 32),
      Returns s s1 i m a ∧ m.body = .eyelet key id cls pkt words seq := by
  refine ⟨?_, ?_, ?_, ?_, ?_, ?_, ?_, ?_, ?_, ?_, ?_, ?_, ?_, ?_⟩
  · let s := net [msg .req 0 1024 (.redn u0.key 0x78 1 true 5)]
    exact ⟨s, 0, _, u0.key, 0x78, 1, true, 5, arrives 0 rfl rfl (by decide +kernel) (by decide +kernel), rfl, by decide +kernel, by decide +kernel⟩
  · let s := net [msg .req 0 1024 (.access u0.key (.write 0x80 8 5 0x80) none)]
    have h : (s.served 0 1024 (.write 0x80 8 5 0x80)).isSome = true := by decide +kernel
    obtain ⟨⟨x, s1⟩, h1⟩ := Option.isSome_iff_exists.mp h
    exact ⟨s, s1, 0, _, u0.key, .write 0x80 8 5 0x80, x, arrives 0 rfl rfl (by decide +kernel) (by decide +kernel), rfl, h1⟩
  · let s := withMem (net [msg .req 0 1024 (.decrement 1 0x40 0x40)]) [(0x40, 1)]
    exact ⟨s, 0, _, 1, 0x40, 0x40, arrives 0 rfl rfl (by decide +kernel) (by decide +kernel), rfl, by decide +kernel, by decide +kernel, by decide +kernel⟩
  · let s := net [msg .req 0 1024 (.waiter (.strand u0.key) 0x40 3)]
    exact ⟨s, 0, _, .strand u0.key, 0x40, 3, arrives 0 rfl rfl (by decide +kernel) (by decide +kernel), rfl, by decide +kernel, by decide +kernel, by decide +kernel⟩
  · let s := withMem (net [msg .req 0 1024 (.waiter (.strand u0.key) 0x40 3)]) ((List.range 8).map fun j => (0x40 + 8 * j, 1))
    exact ⟨s, 0, _, .strand u0.key, 0x40, 3, arrives 0 rfl rfl (by decide +kernel) (by decide +kernel), rfl, by decide +kernel, by decide +kernel, by decide +kernel,
      by decide +kernel⟩
  · let s := withMem (net [msg .req 0 1024 (.waiter (.strand u0.key) 0x40 3)]) ((List.range 7).map fun j => (0x40 + 8 * j, 1))
    exact ⟨s, 0, _, .strand u0.key, 0x40, 3, 6, arrives 0 rfl rfl (by decide +kernel) (by decide +kernel), rfl, by decide +kernel, by decide +kernel, by decide,
      by decide +kernel, by decide +kernel, by decide +kernel⟩
  · let s := net [msg .req 0 5 (.release 3)]
    have h : ((s.freeDeferral 5 3).placeReleased 5 (recOfEntry (s.homeRead ((s.tile 5).dfrBase + 128 * 3) 128))).isSome = true := by decide +kernel
    obtain ⟨s2, h2⟩ := Option.isSome_iff_exists.mp h
    exact ⟨s, s2, 0, _, 3, arrives 0 rfl rfl (by decide +kernel) (by decide +kernel), rfl, by decide +kernel, by decide +kernel, by decide +kernel, by decide +kernel, h2⟩
  · let s := net [msg .enq 0 5 (.enq (rec0 0) true)]
    exact ⟨s, 0, _, rec0 0, true, none, arrives 0 rfl rfl (by decide +kernel) (by decide +kernel), rfl, .inr (by decide +kernel), by decide +kernel⟩
  · let s := (net [msg .enq 0 5 (.enq (rec0 0) true)]).modTile 5 fun t => { t with figures := [(5, 9)] }
    exact ⟨s, 0, _, rec0 0, none, arrives 0 rfl rfl (by decide +kernel) (by decide +kernel), rfl, by decide +kernel, by decide +kernel⟩
  · let m := { msg .req 0 1024 (.access u0.key (.read 0x80 128) none) with st := .answered (.home .done) }
    exact ⟨net [m], 0, m, .done, _, _, rfl, rfl, by decide +kernel, rfl, fun _ _ _ _ => by simp⟩
  · let m := { msg .req 0 1024 (.access u0.key (.write 0x80 8 5 0x80) none) with st := .answered (.home .done) }
    exact ⟨net [m], 0, m, .done, _, _, _, _, _, rfl, rfl, by decide +kernel, rfl⟩
  · let m := { msg .req 0 1024 (.redn u0.key 0x78 1 true 5) with st := .answered .accepted }
    exact ⟨net [m], _, 0, m, .accepted, _, _, _, _, _, ⟨rfl, rfl, by decide +kernel, by simp [m, msg], by decide +kernel, by decide +kernel, rfl⟩, rfl⟩
  · let m := { msg .enq 0 5 (.enq (rec0 0) true) with st := .answered .accepted }
    exact ⟨net [m], _, 0, m, .accepted, _, _, _, ⟨rfl, rfl, by decide +kernel, by simp [m, msg], by decide +kernel, by decide +kernel, rfl⟩, rfl⟩
  · let m := { msg .msg0 0 5 (.eyelet u0.key 0x100010005 false false [7] 0) with st := .answered .accepted }
    exact ⟨net [m], _, 0, m, .accepted, _, _, _, _, _, _, ⟨rfl, rfl, by decide +kernel, by simp [m, msg], by decide +kernel, by decide +kernel, rfl⟩, rfl⟩

/-- Tile 5's eyelet 0 of generation 1, owned by the strand of `net`, with these entries of its ring in use and these slots busy. -/
def posted (s : State) (rcount : Nat) (busy : BitVec 32) : State :=
  s.modTile 5 fun t => { t with
    eyelets := [(0, { Eyelet.blank with
      gen := 1, live := true, owner := u0.key, ring := 0x1000, ringN := 32, scr := 0x800, rcount := rcount, busy := busy })] }

theorem witness_EyeletsRecordsAndReplies :
    (∃ (s : State) (i : Nat) (m : Msg) (key : Key) (id : Word) (cls pkt : Bool) (words : List Word) (seq : BitVec 32), Arrives s i m ∧
      m.body = .eyelet key id cls pkt words seq ∧ s.isHeld m.dst m = false ∧
      ((s.tile m.dst).eyelet (eyIndex id)).live = false) ∧
    (∃ (s : State) (i : Nat) (m : Msg) (key : Key) (id : Word) (cls pkt : Bool) (words : List Word) (seq : BitVec 32), Arrives s i m ∧
      m.body = .eyelet key id cls pkt words seq ∧ s.isHeld m.dst m = false ∧ ((s.tile m.dst).eyelet (eyIndex id)).live = true ∧
      ((s.tile m.dst).eyelet (eyIndex id)).owner.asid ≠ eyAsid id) ∧
    (∃ (s : State) (i : Nat) (m : Msg) (key : Key) (id : Word) (cls pkt : Bool) (words : List Word) (seq : BitVec 32) (slot : Nat), Arrives s i m ∧
      m.body = .eyelet key id cls pkt words seq ∧ s.isHeld m.dst m = false ∧ ((s.tile m.dst).eyelet (eyIndex id)).live = true ∧
      ((s.tile m.dst).eyelet (eyIndex id)).gen = eyGen id ∧ ((s.tile m.dst).eyelet (eyIndex id)).owner.asid = eyAsid id ∧
      ((s.tile m.dst).eyelet (eyIndex id)).arriving = none ∧ ((s.tile m.dst).eyelet (eyIndex id)).rcount = 0 ∧
      ((s.tile m.dst).eyelet (eyIndex id)).freeSlot = some slot) ∧
    (∃ (s : State) (i : Nat) (m : Msg) (key : Key) (id : Word) (cls pkt : Bool) (words : List Word) (seq : BitVec 32), Arrives s i m ∧
      m.body = .eyelet key id cls pkt words seq ∧ s.isHeld m.dst m = false ∧ ((s.tile m.dst).eyelet (eyIndex id)).freeSlot = none ∧
      ((s.tile m.dst).eyelet (eyIndex id)).live = true ∧ ((s.tile m.dst).eyelet (eyIndex id)).gen = eyGen id ∧
      ((s.tile m.dst).eyelet (eyIndex id)).owner.asid = eyAsid id ∧ ((s.tile m.dst).eyelet (eyIndex id)).arriving = none ∧
      ((s.tile m.dst).eyelet (eyIndex id)).ringN ≤ ((s.tile m.dst).eyelet (eyIndex id)).rcount) ∧
    (∃ (s s1 s2 : State) (tile : BitVec 10) (idx : Fin 64) (slot v : Nat) (x : Xl), ((s.tile tile.toNat).eyelet idx.val).live = true ∧
      ((s.tile tile.toNat).eyelet idx.val).rcount ≠ 0 ∧ s.pumpHeld tile.toNat idx.val = false ∧ ((s.tile tile.toNat).eyelet idx.val).freeSlot = some slot ∧
      s.ringXl tile.toNat ((s.tile tile.toNat).eyelet idx.val) ((s.tile tile.toNat).eyelet idx.val).rhead false = .ok (x, s1) ∧
      s1.ringRead tile.toNat ((s.tile tile.toNat).eyelet idx.val) x = .ok (v, s2)) ∧
    (∃ (s : State) (i : Nat) (m : Msg) (w : List Word), Arrives s i m ∧ m.body = .record w ∧ (s.tile m.dst).cobq.length < 64) ∧
    (∃ (s : State) (tile : BitVec 10) (w : List Word) (r : List (List Word)), (s.tile tile.toNat).cobq = w :: r ∧ w.length = 7 ∧
      (∀ j < 8, (s.tile tile.toNat).isFull (recordSlot (s.tile tile.toNat).placed.toNat + 8 * j) = false) ∧ (s.tile tile.toNat).feq = []) ∧
    (∃ (s : State) (tile : BitVec 10), isCobbler tile.toNat = true ∧ (s.tile tile.toNat).isFull (replySlot (s.tile tile.toNat).reply) = true ∧
      (s.tile tile.toNat).isFull (replySlot (s.tile tile.toNat).reply + 8) = true ∧ (s.tile tile.toNat).feq = [] ∧
      (s.tile tile.toNat).scrBad (replySlot (s.tile tile.toNat).reply) 16 = false) ∧
    (∃ (i : Instr) (s s1 : State) (n : Nat) (act : Action) (m : Msg) (w0 w1 : Word), replyOf i = some (n, act) ∧ Arrives s n m ∧
      m.body = .reply w0 w1 ∧ replyAction w0 = act ∧ s.strandReply m.dst w0 w1 false = some s1) ∧
    (∃ (i : Instr) (s s1 : State) (n : Nat) (act : Action) (m : Msg) (w0 w1 : Word), replyOf i = some (n, act) ∧ Arrives s n m ∧
      m.body = .reply w0 w1 ∧ replyAction w0 = act ∧ s.strandReply m.dst w0 w1 false = none ∧ s1 = s.itemReply m.dst w0 w1) ∧
    ∃ (t : Strand) (code : BitVec 16), code ≠ 0 ∧ t.tvec ≠ 0 ∧ t.tcause = 0 ∧ t.intrap = false := by
  let ey := msg .msg0 0 5 (.eyelet u0.key 0x100010005 false false [7] 0)
  have id : eyIndex 0x100010005 = 0 := by decide
  have arr (s : State) (m : Msg) (h : s.msgs[0]? = some m) (hs : m.st = .sent) (hw : s.lostOn m.trip = none) (ho : (s.windowed 0 m && s.inOrder 0 m) = true) : Arrives s 0 m :=
    arrives 0 h hs hw ho
  refine ⟨?_, ?_, ?_, ?_, ?_, ?_, ?_, ?_, ?_, ?_, ?_⟩
  · exact ⟨net [ey], 0, ey, _, _, _, _, _, _, arr _ _ rfl rfl (by decide +kernel) (by decide +kernel), rfl, by decide +kernel, by decide +kernel⟩
  · let forged := msg .msg0 0 5 (.eyelet u0.key 0x100020005 false false [7] 0)
    exact ⟨posted (net [forged]) 0 0, 0, forged, _, _, _, _, _, _, arr _ _ rfl rfl (by decide +kernel) (by decide +kernel), rfl, by decide +kernel, by decide +kernel,
      by decide +kernel⟩
  · exact ⟨posted (net [ey]) 0 0x7FFFFFFF, 0, ey, _, _, _, _, _, _, 31, arr _ _ rfl rfl (by decide +kernel) (by decide +kernel), rfl, by decide +kernel,
      by decide +kernel, by decide +kernel, by decide +kernel, by decide +kernel, by decide +kernel, by decide +kernel⟩
  · exact ⟨posted (net [ey]) 32 0xFFFFFFFF, 0, ey, _, _, _, _, _, _, arr _ _ rfl rfl (by decide +kernel) (by decide +kernel), rfl, by decide +kernel,
      by decide +kernel, by decide +kernel, by decide +kernel, by decide +kernel, by decide +kernel, by decide +kernel⟩
  · let s := posted (pagedAt 5 (net [])) 1 1
    have h : (s.ringXl 5 ((s.tile 5).eyelet 0) ((s.tile 5).eyelet 0).rhead false).isOk = true := by decide +kernel
    cases e : s.ringXl 5 ((s.tile 5).eyelet 0) ((s.tile 5).eyelet 0).rhead false with
    | error _ => rw [e] at h; cases h
    | ok x =>
      have h2 : (match s.ringXl 5 ((s.tile 5).eyelet 0) ((s.tile 5).eyelet 0).rhead false with
        | .ok x => (x.2.ringRead 5 ((s.tile 5).eyelet 0) x.1).isOk
        | .error _ => false) = true := by decide +kernel
      rw [e] at h2
      dsimp only at h2
      cases e2 : x.2.ringRead 5 ((s.tile 5).eyelet 0) x.1 with
      | error _ => rw [e2] at h2; cases h2
      | ok y => exact ⟨s, x.2, y.2, 5, 0, 1, y.1, x.1, by decide +kernel, by decide +kernel, by decide +kernel, by decide +kernel, e, e2⟩
  · let m := msg .enq 0 63 (.record [1, 2, 3, 4, 5, 6, 7])
    exact ⟨net [m], 0, m, _, arr _ _ rfl rfl (by decide +kernel) (by decide +kernel), rfl, by decide +kernel⟩
  · exact ⟨(net []).modTile 63 fun t => { t with cobq := [[1, 2, 3, 4, 5, 6, 7]] }, 63, [1, 2, 3, 4, 5, 6, 7], [], by decide +kernel, rfl, by decide +kernel,
      by decide +kernel⟩
  · exact ⟨(net []).modTile 63 fun t => (t.setFull (replySlot 0) false).setFull (replySlot 0 + 8) false, 63, by decide +kernel, by decide +kernel, by decide +kernel,
      by decide +kernel, by decide +kernel⟩
  · let m := msg .enq 63 0 (.reply 0x4000200000000001 0x10000000D)
    let s : State := { net [m] with strands := [{ u0 with tokens := [(1, 2)], pend := 1, state := 3 }] }
    have h : (s.strandReply m.dst 0x4000200000000001 0x10000000D false).isSome = true := by decide +kernel
    obtain ⟨s2, h2⟩ := Option.isSome_iff_exists.mp h
    exact ⟨.replyDeliver 0, s, s2, 0, .deliver, m, _, _, rfl, arr _ _ rfl rfl (by decide +kernel) (by decide +kernel), rfl, by decide, h2⟩
  · let m := msg .enq 63 0 (.reply 0x8000200000000009 0x100000000)
    let s : State := net [m]
    exact ⟨.replyKill 0, s, _, 0, .kill, m, _, _, rfl, arr _ _ rfl rfl (by decide +kernel) (by decide +kernel), rfl, by decide, rfl, rfl⟩
  · exact ⟨{ u0 with tvec := 8 }, 13, by decide, by decide, rfl, rfl⟩

def okE {ε α : Type} (r : Except ε α) : Bool := r.isOk
def valE {ε α : Type} (d : α) (r : Except ε α) : α := match r with
  | .ok a => a
  | .error _ => d

theorem ranE {ε α β : Type} {r : Except ε (α × β)} (d : α × β) (h : okE r = true) : r = .ok ((valE d r).1, (valE d r).2) := by
  cases r with
  | error => cases h
  | ok a => rfl

theorem ranR {ε : Type} {r : EStateM.Result ε State Unit} (h : okM r = true) : r = .ok () (stM r) := by
  cases r <;> simp_all [okM, stM]

theorem pairB {o : State × Bool} {b : Bool} (h : o.2 = b) : o = (o.1, b) := by cases o; cases h; rfl

/-- The line of an address, held by a clamp on its bank. -/
def clampedAt (s : State) (pa : Nat) : State := match s.place pa with
  | some (st, loc) => { s with cores := [(16 * st, { Core.reset with clamps := [s.bank st loc] })] }
  | none => s

theorem witness_BarriersStealsAndInvalidations :
    (∃ (s : State) (i : Nat) (m : Msg) (key : Key) (a : Arrival) (t : Strand), Arrives s i m ∧ m.body = .arrival key a ∧
      s.theStrand? key = some t ∧ t.arrival = some a) ∧
    (∃ (s : State) (i : Nat) (m : Msg) (key : Key) (a : Arrival) (dom : Word), Arrives s i m ∧ m.body = .combined key a dom) ∧
    (∃ (s : State) (i : Nat) (m : Msg) (key : Key) (b : Arrival) (dom r : Word) (a : Arrival) (t : Strand), Arrives s i m ∧
      m.body = .completion key b dom r ∧ s.theStrand? key = some t ∧ t.arrival = some a ∧ a.kind = b.kind ∧ a.stage = 2) ∧
    (∃ (s : State) (tile : BitVec 10), s.isIdle tile.toNat = true ∧ (s.tile tile.toNat).idle.cycles = 64 ∧ (s.tile tile.toNat).idle.on = false) ∧
    (∃ (s : State) (tile : BitVec 10), (s.tile tile.toNat).idle.on = true ∧ (s.tile tile.toNat).idle.dir = 6 ∧ (s.tile tile.toNat).idle.wait = 0 ∧
      s.isIdle tile.toNat = true) ∧
    (∃ (s : State) (tile : BitVec 10), (s.tile tile.toNat).idle.on = true ∧ (s.tile tile.toNat).idle.dir = 6 ∧ (s.tile tile.toNat).idle.wait = 0 ∧
      s.isIdle tile.toNat = false) ∧
    (∃ (s : State) (i : Nat) (m : Msg) (dir : Nat), Arrives s i m ∧ m.body = .probe dir ∧ s.surrendered m.dst = none) ∧
    (∃ (s : State) (i : Nat) (m : Msg) (dir : Nat) (r : Rec), Arrives s i m ∧ m.body = .probe dir ∧ s.surrendered m.dst = some r ∧
      (s.tile m.dst).credit m.src < 2) ∧
    (∃ (s : State) (i : Nat) (n : BitVec 11) (v : Invl), s.invls[i]? = some v ∧ n.toNat < 1024 ∧ v.left.getLsbD n.toNat = true ∧
      (s.invlTile n.toNat v).2 = true) ∧
    (∃ (s : State) (i : Nat) (n : BitVec 11) (v : Invl), s.invls[i]? = some v ∧ n.toNat = 1024 ∧ v.left.getLsbD n.toNat = true) ∧
    (∃ (s : State) (i : Nat) (n : BitVec 11) (v : Invl), s.invls[i]? = some v ∧ n.toNat = 1025 ∧ v.left.getLsbD n.toNat = true ∧ (s.invlWelt v).2 = true) ∧
    (∃ (s : State) (tile : Nat) (v : Invl), s.unserved tile = false ∧ (s.invlDrop tile v).invlHeld tile v = false ∧
      ∀ e ∈ (s.tile tile).l1, v.hitsAsid e.asid = true → e.dirty ≠ 0 → ∀ n, s.win (e.addr * 128) ≠ .remote n) ∧
    (∃ (s : State) (i : Nat) (v : Invl) (key : Key), s.invls[i]? = some v ∧ v.left = 0 ∧ v.who = .strand key) ∧
    (∃ (s : State) (i : Nat) (v : Invl) (c : CmdRef), s.invls[i]? = some v ∧ v.left = 0 ∧ v.who = .command c) ∧
    (∃ (s s2 : State) (i : Nat) (v : Invl) (g : Migration), s.invls[i]? = some v ∧ v.left = 0 ∧ v.who = .migrateBusy ∧ s.migrating = some g ∧
      ({ s with invls := dropAt i s.invls } : State).migrateCopy g = (s2, true)) ∧
    (∃ (s s2 : State) (i : Nat) (v : Invl) (g : Migration), s.invls[i]? = some v ∧ v.left = 0 ∧ v.who = .migrateBusy ∧ s.migrating = some g ∧
      ({ s with invls := dropAt i s.invls } : State).migrateCopy g = (s2, false)) ∧
    (∃ (s : State) (i : Nat) (v : Invl), s.invls[i]? = some v ∧ v.left = 0 ∧ v.who = .migrateFlip) ∧
    (∃ (s : State) (i : Nat) (v : Invl), s.invls[i]? = some v ∧ v.left = 0 ∧ v.who = .migrateUndo) ∧
    ∃ (s : State) (g : Migration), s.migrating = some g ∧ g.status ≠ 0 ∧ g.drain = 0 ∧ s.heldAtHome g.done.toNat = false := by
  have arr (s : State) (m : Msg) (h : s.msgs[0]? = some m) (hs : m.st = .sent) (hw : s.lostOn m.trip = none) (ho : (s.windowed 0 m && s.inOrder 0 m) = true) : Arrives s 0 m :=
    arrives 0 h hs hw ho
  let idle (on : Bool) (cycles dir : Nat) : State := (net []).modTile 5 fun t => { t with idle := { on := on, cycles := cycles, dir := dir, wait := 0 } }
  let inv (who : InvlFor) (left : BitVec 1026) : Invl := { form := 2, asid := 0, va := 0, len := 0, who := who, left := left }
  let invs (who : InvlFor) (left : BitVec 1026) : State := { net [] with invls := [inv who left] }
  let g : Migration := { va := 0, asid := 1, newpa := 0x10000, done := 0, who := ⟨0, 0⟩, leafpa := 0x40, size := 0, oldpa := 0, next := 1023, drain := 0, status := 1 }
  let e0 : CLine := { addr := 2, va := 0x100, asid := 1, data := 7, valid := true, dirty := 1, priv := false, mt := 0, bad := 0 }
  refine ⟨?_, ?_, ?_, ⟨idle false 64 0, 5, by decide +kernel, by decide +kernel, by decide +kernel⟩,
    ⟨idle true 64 6, 5, by decide +kernel, by decide +kernel, by decide +kernel, by decide +kernel⟩,
    ⟨(idle true 64 6).modTile 5 fun t => { t with out := true }, 5, by decide +kernel, by decide +kernel, by decide +kernel, by decide +kernel⟩, ?_, ?_,
    ⟨invs .migrateFlip (BitVec.allOnes 1026), 0, 1023, _, rfl, by decide, by decide +kernel, by decide +kernel⟩,
    ⟨invs .migrateFlip (BitVec.allOnes 1026), 0, 1024, _, rfl, by decide, by decide +kernel⟩,
    ⟨invs .migrateFlip (BitVec.allOnes 1026), 0, 1025, _, rfl, by decide, by decide +kernel, by decide +kernel⟩,
    ⟨(net []).modTile 5 fun t => { t with l1 := [e0] }, 5, inv .migrateFlip 0, by decide +kernel, by decide +kernel, fun e he _ _ n => by
      have h : e = e0 := List.mem_singleton.mp he
      subst h
      rw [show ((net []).modTile 5 fun t => { t with l1 := [e0] }).win (e0.addr * 128) = .inter by decide +kernel]
      exact nofun⟩,
    ⟨invs (.strand u0.key) 0, 0, _, _, rfl, rfl, rfl⟩, ⟨invs (.command ⟨0, 0⟩) 0, 0, _, _, rfl, rfl, rfl⟩, ?_, ?_,
    ⟨invs .migrateFlip 0, 0, _, rfl, rfl, rfl⟩, ⟨invs .migrateUndo 0, 0, _, rfl, rfl, rfl⟩, ⟨{ net [] with migrating := some g }, g, rfl, by decide, rfl, by decide +kernel⟩⟩
  · let a : Arrival := { kind := 1, level := .user, val := 3 }
    let m := msg .sync 0 1024 (.arrival u0.key a)
    exact ⟨{ net [m] with strands := [{ u0 with arrival := some a }] }, 0, m, _, _, { u0 with arrival := some a }, arr _ _ rfl rfl (by decide +kernel) (by decide +kernel),
      rfl, by decide +kernel, rfl⟩
  · let m := msg .sync 8 0 (.combined u0.key { kind := 1, level := .cube, val := 3 } 0)
    exact ⟨net [m], 0, m, _, _, _, arr _ _ rfl rfl (by decide +kernel) (by decide +kernel), rfl⟩
  · let a : Arrival := { kind := 1, level := .user, val := 3, stage := 2 }
    let m := msg .sync 0 0 (.completion u0.key a 0 3)
    exact ⟨{ net [m] with strands := [{ u0 with arrival := some a }] }, 0, m, _, _, _, _, a, { u0 with arrival := some a },
      arr _ _ rfl rfl (by decide +kernel) (by decide +kernel), rfl, by decide +kernel, rfl, rfl, rfl⟩
  · let m := msg .sync 1 0 (.probe 1)
    exact ⟨net [m], 0, m, _, arr _ _ rfl rfl (by decide +kernel) (by decide +kernel), rfl, by decide +kernel⟩
  · let m := msg .sync 1 0 (.probe 1)
    let r := rec0 (3 * 2 ^ 254)
    exact ⟨(net [m]).modTile 0 fun t => { t with deque := [r] }, 0, m, _, r, arr _ _ rfl rfl (by decide +kernel) (by decide +kernel), rfl, by decide +kernel,
      by decide +kernel⟩
  · let s : State := { invs .migrateBusy 0 with migrating := some { g with status := 0 } }
    have h : (({ s with invls := dropAt 0 s.invls } : State).migrateCopy { g with status := 0 }).2 = true := by decide +kernel
    exact ⟨s, _, 0, inv .migrateBusy 0, { g with status := 0 }, rfl, rfl, rfl, rfl, pairB h⟩
  · let s : State := clampedAt { invs .migrateBusy 0 with migrating := some { g with status := 0 } } 0x40
    have h : (({ s with invls := dropAt 0 s.invls } : State).migrateCopy { g with status := 0 }).2 = false := by decide +kernel
    exact ⟨s, _, 0, inv .migrateBusy 0, { g with status := 0 }, by decide +kernel, rfl, rfl, by decide +kernel, pairB h⟩


/-! ### Witnesses: scheduling and engines -/

theorem witness_DispatchAndSlots :
    (∃ (s s1 s2 : State) (tile : BitVec 10) (slot : Fin 16) (r : Rec) (t t1 u : Strand), (s.tile tile.toNat).out = false ∧ s.freeSlot tile.toNat = some slot ∧
      bestRec (s.tile tile.toNat).d (s.eligible tile.toNat) (s.tile tile.toNat).deque = some r ∧ r.spill = none ∧ r.resume = true ∧
      let s0 := if r.hold = 3 then s.modTile tile.toNat (·.unhold r) else s
      s0.strand? r.key = some t ∧ s0.fetchLines t 1 32 = .ok (s1, t1) ∧ s1.fetchLines t1 (if t1.qheld = 0 then 0 else lineBit 24) 32 = .ok (s2, u)) ∧
    (∃ (s s1 s2 : State) (tile : BitVec 10) (slot : Fin 16) (r : Rec) (x y : Line), (s.tile tile.toNat).out = false ∧ s.freeSlot tile.toNat = some slot ∧
      bestRec (s.tile tile.toNat).d (s.eligible tile.toNat) (s.tile tile.toNat).deque = some r ∧ r.spill = none ∧ r.resume = false ∧
      s.teamFits tile.toNat r = true ∧ r.preset = true ∧
      let sw := (if r.hold = 3 then s.modTile tile.toNat (·.unhold r) else s).waysFor tile.toNat r.key
      sw.hasWays tile.toNat r.key = true ∧ frameRead sw (newStrand r.key tile.toNat) 0 = .ok (x, s1) ∧ (x.extractLsb' 64 3 : BitVec 3) = 4 ∧
      sw.strand? r.key = none ∧ frameRead s1 (newStrand r.key tile.toNat) 1 = .ok (y, s2)) ∧
    (∃ (s s1 s2 s5 : State) (tile : BitVec 10) (slot : Fin 16) (r : Rec) (p x : Xl) (frame : Word) (low : Bool), (s.tile tile.toNat).out = false ∧
      s.freeSlot tile.toNat = some slot ∧ bestRec (s.tile tile.toNat).d (s.eligible tile.toNat) (s.tile tile.toNat).deque = some r ∧ r.spill = none ∧
      r.resume = false ∧ s.teamFits tile.toNat r = true ∧ r.preset = false ∧
      let n := tile.toNat
      let who := agentWho r.asid n (itemSupv r.asid n) true 1
      let e := chgEntry s1 r.asid r.cgrp
      agentXl (if r.hold = 3 then s.modTile n (·.unhold r) else s) who (frameVA r.key) = .ok (p, s1) ∧ s1.badIn p.pa 64 = false ∧ s1.hasHome p.pa = true ∧
      s1.barred n p.pa = false ∧ s1.homeRead p.pa 8 ≠ 0 ∧
      (chgOn s1 = true → s1.barred n e = false ∧ s1.badIn e 16 = false ∧ chgUsed s1 e + 1 ≤ chgLimit s1 e) ∧ popFrame s1 who p = .ok (frame, low, s2) ∧
      let s3 := if chgOn s2 then s2.setUsed e (chgUsed s2 e + 1) else s2
      let s4 := if low then (s3.sendItem n 5 { asid := r.asid, pc := r.entry, addr := frameVA r.key }).1 else s3
      let key : Key := { asid := r.asid, handle := BitVec.ofNat 45 (frame.toNat / 2 ^ 12) }
      frameXl s4 (newStrand key n) (frameVA key) 3 = .ok (x, s5) ∧ (s5.waysFor n key).hasWays n key = true) ∧
    (∃ (s : State) (tile : BitVec 10) (r : Rec) (j : Nat), (s.tile tile.toNat).inHw.length < 192 ∧ (s.tile tile.toNat).out = false ∧
      ((s.tile tile.toNat).deque.find? fun r => r.spill.isSome && s.resident r.asid) = some r ∧ r.spill = some j ∧
      s.areaFault ((s.tile tile.toNat).ovfBase + 128 * j) = none ∧ s.barred tile.toNat ((s.tile tile.toNat).ovfBase + 128 * j) = false) ∧
    (∃ (s : State) (key : Key) (t : Strand) (w : Wait), s.theStrand? key = some t ∧ t.state = 1 ∧ t.wait = some w ∧ w.blocking = true ∧ t.blocked = 256 ∧
      t.late = [] ∧ t.pieces = [] ∧ t.inSecond = false) ∧
    ∃ (s : State) (key : Key) (t : Strand) (r : Rec), s.theStrand? key = some t ∧ t.state = 1 ∧ t.wait = none ∧ t.slotCycles = 65536 ∧ t.errs = [] ∧ t.late = [] ∧
      t.pieces = [] ∧ t.inSecond = false ∧ t.killed = false ∧ s.resident key.asid = true ∧ t.pkst.getLsbD 63 = false ∧ r ∈ (s.tile t.tile.toNat).deque ∧ s.eligible t.tile.toNat r = true ∧
      t.prio.toNat ≤ r.level (s.tile t.tile.toNat).d := by
  let q (s : State) (r : Rec) : State := s.modTile 0 fun t => { t with deque := [r] }
  have best (s : State) (r : Rec) (h : decide (bestRec (s.tile 0).d (s.eligible 0) (s.tile 0).deque = some r) = true) :
      bestRec (s.tile 0).d (s.eligible 0) (s.tile 0).deque = some r := of_decide_eq_true h
  let l0 : Line × State := (0, s0)
  let x0 : Xl × State := ({ pa := 0, mt := 0, size := 0, leaf := 0 }, s0)
  refine ⟨?_, ?_, ?_, ?_, ?_, ?_⟩
  · let r := rec0 (2 ^ 250 + 2 ^ 156)
    let t : Strand := { u0 with state := 0, slot := none }
    let s : State := q { net [] with strands := [t] } r
    exact ⟨s, _, _, 0, 0, r, t, _, _, by decide +kernel, by decide +kernel, best s r (by decide +kernel), rfl, by decide +kernel, by decide +kernel,
      ranE (s0, u0) (by decide +kernel), ranE (s0, u0) (by decide +kernel)⟩
  · let r := rec0 (2 ^ 251 + 2 ^ 156)
    let s : State := withMem (q (pagedAt 0 { net [] with strands := [] }) r) [(0x1008, 4)]
    exact ⟨s, _, _, 0, 0, r, _, _, by decide +kernel, by decide +kernel, best s r (by decide +kernel), rfl, by decide +kernel, by decide +kernel, by decide +kernel,
      by decide +kernel, ranE l0 (by decide +kernel), by decide +kernel, by decide +kernel, ranE l0 (by decide +kernel)⟩
  · let r := rec0 (2 ^ 156)
    let s : State := withMem (q (pagedAt 0 { net [] with strands := [] }) r) [(0x1000, 0x3000), (0x1008, 5), (0x1010, 4)]
    exact ⟨s, _, _, _, 0, 0, r, _, _, _, _, by decide +kernel, by decide +kernel, best s r (by decide +kernel), rfl, by decide +kernel, by decide +kernel,
      by decide +kernel, ranE x0 (by decide +kernel), by decide +kernel, by decide +kernel, by decide +kernel, by decide +kernel, by decide +kernel,
      ranE (0, false, s0) (by decide +kernel), ranE x0 (by decide +kernel), by decide +kernel⟩
  · let r := { rec0 0 with spill := some 2 }
    exact ⟨q (net []) r, 0, r, 2, by decide +kernel, by decide +kernel, by decide +kernel, rfl, by decide +kernel, by decide +kernel⟩
  · let t : Strand := { u0 with wait := some .barrier, blocked := 256 }
    exact ⟨{ net [] with strands := [t] }, u0.key, t, .barrier, by decide +kernel, rfl, rfl, rfl, rfl, rfl, rfl, rfl⟩
  · let t : Strand := { u0 with slotCycles := 65536 }
    let r := rec0 0
    exact ⟨q { net [] with strands := [t] } r, u0.key, t, r, by decide +kernel, rfl, rfl, rfl, rfl, rfl, rfl, rfl, rfl, by decide +kernel, by decide +kernel, by decide +kernel,
      by decide +kernel, by decide +kernel⟩

/-- The load's data came without an error. -/
abbrev Returned (r : EStateM.Result Stop State (List Nat × Option Word)) : Prop := (okM r = true) ∧ (valM ([], none) r).2 = none

theorem returned {r : EStateM.Result Stop State (List Nat × Option Word)} (h : Returned r) : r = .ok ((valM ([], none) r).1, none) (stM r) := by
  obtain ⟨h, e⟩ := h
  cases r with
  | error => cases h
  | ok a s => exact congrArg (fun x => EStateM.Result.ok x s) (Prod.ext rfl e)

def lineOf (r : Reach) : Option (HomeOp × Line × State) := match r with
  | .got op (.data x 0) s => some (op, x, s)
  | _ => none

theorem ranLine {r : Reach} (h : (lineOf r).isSome = true) : ∃ op x s, r = .got op (.data x 0) s := by
  unfold lineOf at h; split at h
  · exact ⟨_, _, _, rfl⟩
  · cases h

/-- A send to another tile was answered: done, or refused. -/
def sentOf (r : Reach) : Option (HomeOp × Option Nat × State) := match r with
  | .got op .done s => some (op, none, s)
  | .got op (.refused g) s => some (op, some g, s)
  | _ => none

theorem ranOf {ε α : Type} {r : EStateM.Result ε State α} (d : α) (h : okM r = true) : r = .ok (valM d r) (stM r) := by
  cases r <;> simp_all [okM, valM, stM]

theorem noneOf {l : List (BitVec 16 × Key × Word)} {q : BitVec 16} (h : l = []) : ∀ e ∈ l, e.1 ≠ q := by simp [h]

theorem ranSent {r : Reach} {g : Option Nat} (h : (sentOf r).map (fun x => x.2.1) = some g) :
    ∃ op s, sentOf r = some (op, g, s) ∧ r = .got op (match g with | none => .done | some g => .refused g) s := by
  unfold sentOf at h ⊢
  split at h
  · cases h; exact ⟨_, _, rfl, rfl⟩
  · cases h; exact ⟨_, _, rfl, rfl⟩
  · cases h

theorem witness_WaitsAreServed :
    (∃ (s : State) (key : Key) (t : Strand) (w : Wait), s.theStrand? key = some t ∧ t.state = 2 ∧ t.wait = some w ∧ w.blocking = true ∧
      (s.load t).myTile.wdogt ≠ 0 ∧ (s.load t).myTile.wdogt.toNat = t.blocked ∧ t.noticed = false) ∧
    (∃ (s s1 : State) (key : Key) (t : Strand) (va x : Word) (p : Word → Bool), s.theStrand? key = some t ∧ t.state = 2 ∧ t.watched = [(va, p)] ∧
      waitRead va (s.load t) = .ok x s1 ∧ p x = false) ∧
    (∃ (s s1 : State) (key : Key) (t : Strand) (va x : Word) (p : Word → Bool), s.theStrand? key = some t ∧ t.state = 2 ∧ t.watched = [(va, p)] ∧
      waitRead va (s.load t) = .ok x s1 ∧ p x = true) ∧
    (∃ (t : Strand) (va old : Word), t.wait = some (.word va old)) ∧ (∃ (t : Strand) (va : Word), t.wait = some (.cell va)) ∧
    (∃ (s : State) (key : Key) (t : Strand) (r : GReg) (h : Held), s.theStrand? key = some t ∧ t.late = [] ∧ t.held = [h] ∧ h.left = 0 ∧ h.dst = .g r ∧ r.val ≠ 0) ∧
    (∃ (s s1 : State) (key : Key) (t : Strand) (l : Late) (r : List Late) (xs : List Nat), s.theStrand? key = some t ∧ t.late = l :: r ∧ l.gone = false ∧
      s.onBehalf { t with late := r } (do loadLanes (← get).whoLoad l.pieces) = .ok (xs, none) s1) ∧
    (∃ (s : State) (key : Key) (t : Strand) (a pair : Word), s.theStrand? key = some t ∧ t.state = 1 ∧ t.wait = none ∧ t.errs = [(a, pair)] ∧ t.late = []) ∧
    (∃ (s s1 s2 : State) (key : Key) (t u : Strand) (w0 w1 : BitVec 32) (p : Pair), s.theStrand? key = some t ∧ t.state = 1 ∧ t.wait = some .line ∧
      (s.load t).fetch = (.words w0 w1, s1) ∧ decodePair w0 w1 = .ok p ∧ s1.fetchLines s1.me (Pair.lines p) 32 = .ok (s2, u)) ∧
    (∃ (s s1 : State) (tile : BitVec 10) (key : Key) (line : Nat) (op : HomeOp) (x : Line),
      ((s.strands.filter fun t => t.tile = tile && t.state = 1 && t.wait = some .line).findSome? s.missing) = some (key, line) ∧
      s.ask key tile.toNat 1024 (.read (line * 128) 128) = .got op (.data x 0) s1) ∧
    (∃ (s s1 s2 : State) (tile : BitVec 10) (line : BitVec 14) (m : Stash) (x : Xl),
      let n := line.toNat * 128
      let who := agentWho m.asid tile.toNat (itemSupv m.asid tile.toNat) true 1
      ((s.tile tile.toNat).stashes.map (·.2)).find? (fun m => decide (m.off ≤ n) && decide (n < m.off + m.len)) = some m ∧
      agentXl s who (m.base + BitVec.ofNat 64 (n - m.off)) = .ok (x, s1) ∧ (chgOn s = true → x.leaf.getLsbD 5 = true) ∧
      s.onBehalf { newStrand (agentKey m.asid 0) tile.toNat with supv := itemSupv m.asid tile.toNat } (stashLineOut who m line.toNat) = .ok () s2) ∧
    (∀ goes : Bool, ∃ (s s1 : State) (key : Key) (t : Strand) (i v : Nat) (q : QReg), s.theStrand? key = some t ∧ t.state = 1 ∧
      (s.load t).myTile.toRestore key = some (i, q) ∧
      (s.load t).onBehalf t (areaRead (agentWho key.asid (s.load t).here t.supv false 5) (t.area q.val)) = .ok v s1 ∧
      let s2 := s1.modMyTile fun w => w.setAcc i { w.acc i with elems := elemsOf v, restoring := false }
      ((s2.me.wait = some .line ∧ s2.myTile.toRestore key = none) ↔ goes = true)) ∧
    ∃ (s : State) (key : Key) (t : Strand), s.theStrand? key = some t ∧ s.resident key.asid = false ∧ t.pkst.getLsbD 63 = true ∧ t.wait ≠ some .answer ∧
      t.state ≠ 4 ∧ t.pktCycles = 16384 := by
  let one (t : Strand) : State := pagedAt 0 { net [] with strands := [t] }
  let x0 : Xl × State := ({ pa := 0, mt := 0, size := 0, leaf := 0 }, s0)
  refine ⟨?_, ?_, ?_, ⟨{ u0 with wait := some (.word 0 0) }, 0, 0, rfl⟩, ⟨{ u0 with wait := some (.cell 0) }, 0, rfl⟩, ?_, ?_, ?_, ?_, ?_, ?_, ?_, ?_⟩
  · let t : Strand := { u0 with state := 2, slot := none, wait := some .barrier, blocked := 0x1000000 }
    exact ⟨one t, u0.key, t, .barrier, by decide +kernel, rfl, rfl, rfl, by decide +kernel, by decide +kernel, rfl⟩
  · let t : Strand := { u0 with state := 2, slot := none, wait := some (.word 0x1000 0) }
    exact ⟨one t, _, u0.key, t, _, _, _, by decide +kernel, rfl, rfl, ran 1 (by decide +kernel), by decide +kernel⟩
  · let t : Strand := { u0 with state := 2, slot := none, wait := some (.word 0x1000 9) }
    exact ⟨one t, _, u0.key, t, _, _, _, by decide +kernel, rfl, rfl, ran 1 (by decide +kernel), by decide +kernel⟩
  · let h : Held := { dst := .g 31, left := 0, val := 5, tag := .raw }
    let t : Strand := { u0 with held := [h] }
    exact ⟨one t, u0.key, t, 31, h, by decide +kernel, rfl, rfl, rfl, rfl, by decide⟩
  · let l : Late := { i := .ld 5 6 (.fld 1) .d64 3, dst := .g 5, bit := 0, pc := 0, left := 0, gone := false
                      pieces := [(0x1040, [{ va := 0x1040, len := 8, place := .mem { pa := 0x1040, mt := 0, size := 2, leaf := leaf 0 0 } }])] }
    let t : Strand := { u0 with late := [l] }
    have h : Returned ((one t).onBehalf { t with late := [] } (do loadLanes (← get).whoLoad l.pieces)) := by decide +kernel
    exact ⟨one t, _, u0.key, t, l, [], _, by decide +kernel, rfl, rfl, returned h⟩
  · let t : Strand := { u0 with errs := [(0x40, 8)] }
    exact ⟨one t, u0.key, t, 0x40, 8, by decide +kernel, rfl, rfl, rfl, rfl⟩
  · let t : Strand := { u0 with wait := some .line }
    let s : State := (one t).modTile 0 fun u => { u with icache := [(0, 0x0032141070000000)] }
    have h : (s.load t).fetch.1 = .words 0x70000000 0x00321410 := by decide +kernel
    exact ⟨s, _, _, u0.key, t, _, _, _, _, by decide +kernel, rfl, rfl, Prod.ext h rfl, rfl, ranE (s0, u0) (by decide +kernel)⟩
  · let t : Strand := { u0 with wait := some .line, pc := 0x1000 }
    obtain ⟨op, x, s1, h⟩ := ranLine (r := (one t).ask u0.key 0 1024 (.read (32 * 128) 128)) (by decide +kernel)
    exact ⟨one t, s1, 0, u0.key, 32, op, x, by decide +kernel, h⟩
  · let m0 : Stash := { asid := 1, base := 0x2000, off := 0x100, len := 256 }
    let s : State := (one u0).modTile 0 fun t => { t with
      stashes := [(3, m0)], slines := [{ addr := 3, va := 0x2080, asid := 1, data := 7, valid := true, dirty := 1, priv := false, mt := 0, bad := 0 }] }
    exact ⟨s, _, _, 0, 3, m0, _, by decide +kernel, ranE x0 (by decide +kernel), by decide +kernel, ranR (by decide +kernel)⟩
  · intro goes
    let t : Strand := { u0 with qheld := 2, save := u0.save.set 1 0x2003, wait := if goes then some .line else none }
    let s : State := (one t).modTile 0 fun u => u.setAcc 4 { Accum.reset with bind := some (u0.key, 1), anchor := 3, restoring := true }
    let r := (s.load t).onBehalf t (areaRead (agentWho u0.key.asid (s.load t).here t.supv false 5) (t.area 1))
    have hr : okM r = true := by cases goes <;> decide +kernel
    exact ⟨s, stM r, u0.key, t, 4, valM 0 r, 1, by cases goes <;> decide +kernel, rfl, by cases goes <;> decide +kernel,
      ranOf 0 hr, by cases goes <;> decide +kernel⟩
  · let t : Strand := { u0 with pkst := 0x8000000000000000, pktCycles := 16384 }
    exact ⟨{ one t with absent := [1] }, u0.key, t, by decide +kernel, by decide +kernel, by decide, by decide, by decide, rfl⟩

def okT (r : Try) : Bool := match r with
  | .ok _ => true
  | _ => false
def stT (r : Try) : State := match r with
  | .ok s | .wait s | .fail _ s => s

theorem ranT {r : Try} (h : okT r = true) : r = .ok (stT r) := by cases r <;> simp_all [okT, stT]

/-- What a prefetch came to: 0 all its lines, 1 a wait, 2 an uncorrectable line. -/
def numF (r : Filled) : Nat := match r with
  | .all _ => 0 | .held _ _ => 1 | .bad _ _ => 2
def stF (r : Filled) : State := match r with
  | .all s | .held _ s | .bad _ s => s

/-- What EnginesComplete assumes of a prefetch at the head of its tile's queue. -/
def filledBy (s : State) (n : Nat) (p : Prefetch) : Filled :=
  s.prefetch (engineKey p.asid p.seq) (agentWho p.asid n p.supv false 7) (p.va - BitVec.ofNat 64 (p.va.toNat % 128))
    ((p.va.toNat % 128 + p.len + 127) / 128 - p.done) p.done
abbrev upTo (s : State) (n : Nat) (p : Prefetch) (rest : List Prefetch) (k : Nat) (stop : Option (Byte × BitVec 32)) : State :=
  s.modTile n fun t => { t with prefetches := { p with done := k, stop := stop } :: rest }

theorem witness_EnginesComplete :
    (∃ (s s1 : State) (tile : BitVec 10) (o : MatOp) (f : MmaForm) (rest : List MatOp) (i : Nat), (s.tile tile.toNat).mat = o :: rest ∧ o.form = some f ∧
      (s.tile tile.toNat).boundTo o.key o.q = some i ∧ ((s.tile tile.toNat).acc i).bad = false ∧
      (∀ g ∈ mmaGranules (mmaRow f) o.a o.b, (s.tile tile.toNat).granuleBad o g = false) ∧ (∀ e ∈ (s.tile tile.toNat).exports, e.1 ≠ o.seq) ∧
      s.putHandle tile.toNat o.key o.kreg (doneWord 2 false o.seq 0 0) = .ok s1) ∧
    (∃ (t : Tile) (o : MatOp) (f : MmaForm) (i : Nat), t.boundTo o.key o.q = some i ∧ (t.acc i).bad = false ∧
      ∀ g ∈ mmaGranules (mmaRow f) o.a o.b, t.granuleBad o g = false) ∧
    (∃ o : MatOp, o.got = []) ∧
    (∃ (s s1 : State) (tile : BitVec 10) (o : MatOp) (rest : List MatOp) (i : Nat), (s.tile tile.toNat).mat = o :: rest ∧ o.form = none ∧
      (s.tile tile.toNat).boundTo o.key o.q = some i ∧ ((s.tile tile.toNat).acc i).bad = false ∧ o.b.toNat % 2 ^ 10 = tile.toNat ∧ o.got = [] ∧
      (s.tile tile.toNat).refuses tile.toNat o.key.asid o.a.toNat 8512 = none ∧ (∀ e ∈ (s.tile tile.toNat).exports, e.1 ≠ o.seq) ∧
      s.putHandle tile.toNat o.key o.kreg (doneWord 2 false o.seq 0 0) = .ok s1) ∧
    (∀ refused : Bool, ∃ (s s' s1 : State) (tile : BitVec 10) (o : MatOp) (rest : List MatOp) (i : Nat) (op : HomeOp) (a : HomeAns) (status : Byte) (info : BitVec 32),
      (s.tile tile.toNat).mat = o :: rest ∧ o.form = none ∧ (s.tile tile.toNat).boundTo o.key o.q = some i ∧ ((s.tile tile.toNat).acc i).bad = false ∧
      o.b.toNat % 2 ^ 10 ≠ tile.toNat ∧ o.sent = none ∧ o.got = [] ∧
      s.ask (engineKey o.key.asid o.seq) tile.toNat (o.b.toNat % 2 ^ 10) (.put o.a.toNat 8512 ((s.tile tile.toNat).acc i).imageBytes (some o.key.asid) [] []) =
        .got op a s' ∧
      (if refused then ∃ g, a = .refused g ∧ status = 3 ∧ info = BitVec.ofNat 32 g else status = 0 ∧ info = 0 ∧ a = .done) ∧
      (s'.tile tile.toNat).mat = o :: rest ∧ (∀ e ∈ (s'.tile tile.toNat).exports, e.1 ≠ o.seq) ∧
      (s'.modTile tile.toNat fun t => { t with mat := { o with sent := some (status, info) } :: rest }).putHandle tile.toNat o.key o.kreg
        (doneWord 2 true o.seq status info) = .ok s1) ∧
    (∃ (s : State) (dst off n : Nat) (a : BitVec 12), (s.tile dst).refuses dst a off n = none) ∧
    (∃ (s s1 : State) (tile : BitVec 10) (c : Copy) (i r off len : Nat) (w : CopyWrite),
      firstIdx (fun c => c.stop.isNone || !c.pend.isEmpty) (s.tile tile.toNat).copies = some i ∧ (s.tile tile.toNat).copies[i]? = some c ∧ c.stop = none ∧ c.pend = [] ∧
      (c.next = 0 → s.copyRefused tile.toNat c = false) ∧ c.piece c.next = some (r, off, len) ∧
      s.agent tile.toNat (engineKey c.asid c.seq) c.cgrp c.supv (copyRead c tile.toNat r off len) = .ok w s1 ∧ w.n = c.next ∧
      (((((s1.after s).modTile tile.toNat fun t =>
        t.setCopy i { c with next := c.next + 1, pend := [w], stop := if (c.piece (c.next + 1)).isNone then some (0, 0) else none }).tile tile.toNat).copies[i]?).map
          (·.pend) = some [w])) ∧
    (∃ (s : State) (tile : BitVec 10) (c : Copy) (i : Nat) (w : CopyWrite) (rest : List CopyWrite),
      firstIdx (fun c => c.stop.isNone || !c.pend.isEmpty) (s.tile tile.toNat).copies = some i ∧ (s.tile tile.toNat).copies[i]? = some c ∧ c.pend = w :: rest) ∧
    (∃ (s s1 : State) (n i : Nat) (c : Copy) (w : CopyWrite) (rest : List CopyWrite), (s.tile n).copies[i]? = some c ∧ c.pend = w :: rest ∧
      c.pend.any w.after = false ∧ s.agent n (engineKey c.asid c.seq) c.cgrp c.supv (copyWritten c n w) = .ok () s1) ∧
    (∃ (c : Copy) (w : CopyWrite), c.remote = false ∧ isScratch w.dst.toNat = true) ∧
    (∃ (s s1 : State) (tile : BitVec 10) (c : Copy) (i : Nat) (status : Byte) (info : BitVec 32),
      firstIdx (fun c => c.stop.isSome && c.pend.isEmpty) (s.tile tile.toNat).copies = some i ∧
      (s.tile tile.toNat).copies[i]? = some c ∧ c.stop = some (status, info) ∧ (∀ e ∈ (s.tile tile.toNat).exports, e.1 ≠ c.seq) ∧
      s.putHandle tile.toNat c.key c.kreg (doneWord 1 c.remote c.seq status info) = .ok s1) ∧
    (∃ (s s1 s2 : State) (tile : BitVec 10) (p : Prefetch) (rest : List Prefetch), (s.tile tile.toNat).prefetches = p :: rest ∧ p.stop = none ∧
      filledBy s tile.toNat p = .all s1 ∧ (∀ e ∈ (s1.tile tile.toNat).exports, e.1 ≠ p.seq) ∧
      (upTo s1 tile.toNat p rest ((p.va.toNat % 128 + p.len + 127) / 128) (some (0, 0))).putHandle tile.toNat p.key p.kreg (doneWord 3 false p.seq 0 0) = .ok s2) ∧
    (∃ (s s1 : State) (tile : BitVec 10) (p : Prefetch) (rest : List Prefetch) (k : Nat), (s.tile tile.toNat).prefetches = p :: rest ∧ p.stop = none ∧
      filledBy s tile.toNat p = .held k s1) ∧
    (∃ (s s1 s2 : State) (tile : BitVec 10) (p : Prefetch) (rest : List Prefetch) (b : Nat), (s.tile tile.toNat).prefetches = p :: rest ∧ p.stop = none ∧
      filledBy s tile.toNat p = .bad b s1 ∧ (∀ e ∈ (s1.tile tile.toNat).exports, e.1 ≠ p.seq) ∧
      (upTo s1 tile.toNat p rest b (some (5, BitVec.ofNat 32 b))).putHandle tile.toNat p.key p.kreg (doneWord 3 false p.seq 5 (BitVec.ofNat 32 b)) = .ok s2) ∧
    (∃ (s s1 s2 : State) (key : Key) (w : Who) (va : Word) (i : Nat) (x : Xl) (op : HomeOp) (d : Line),
      agentXl s w (va + BitVec.ofNat 64 (128 * i)) = .ok (x, s1) ∧ x.leaf.getLsbD 5 = true ∧ HoldsMemory s1 x.pa ∧
      s1.ask key w.tile 1024 (.read (x.pa / 128 * 128) 128) = .got op (.data d 0) s2) ∧
    (∃ (s : State) (key : Key) (k : KReg) (t : Strand), s.theStrand? key = some t ∧ hPending t.k[k] = false) ∧
    (∃ (s s1 : State) (key : Key) (k : KReg) (w : Word) (t t1 : Strand), s.theStrand? key = some t ∧ hPending t.k[k] = true ∧ seqOf t.k[k] = seqOf w ∧
      hKind t.k[k] ≠ 5 ∧ s.isOut key.asid = false ∧ s.resident key.asid = true ∧ s.fetchLine t 4 = .ok (s1, t1)) ∧
    ∃ kind : Nat, kind < 8 := by
  let one : State := pagedAt 0 (net [])
  let x0 : Xl × State := ({ pa := 0, mt := 0, size := 0, leaf := 0 }, s0)
  let acc (s : State) : State := s.modTile 0 fun u => u.setAcc 4 { Accum.reset with bind := some (u0.key, 1) }
  let o : MatOp := { key := u0.key, kreg := 2, seq := 7, q := 1, form := some .e4m3, a := 0, b := 0, ctab := 0, uses := 0, got := [] }
  let c : Copy := { key := u0.key, kreg := 2, seq := 7, asid := 1, cgrp := 0, supv := true, src := 0x1000, dst := sw 0x40, rowlen := 64, rows := 1,
                    sstride := 0, dstride := 0, remote := false, dtile := 0, next := 0, pend := [], stop := none }
  let p : Prefetch := { key := u0.key, kreg := 2, seq := 7, asid := 1, supv := true, va := 0x107F, len := 2, done := 0, stop := none }
  let pre (s : State) : State := s.modTile 0 fun u => { u with prefetches := [p] }
  let filled (s : State) : Filled := filledBy s 0 p
  let cw : CopyWrite := { n := 0, dst := sw 0x40, len := 64, pieces := [], hold := [], val := 5 }
  refine ⟨?_, ?_, ⟨o, rfl⟩, ?_, ?_, ⟨(acc one).modTile 1 fun u => { u with scrasid := u.scrasid.set 0 0x1001 }, 1, 0, 8512, 1, by decide +kernel⟩,
    ?_, ⟨one.modTile 0 fun u => { u with copies := [{ c with pend := [cw] }] }, 0, { c with pend := [cw] }, 0, cw, [], by decide +kernel, by decide +kernel, rfl⟩,
    ?_, ⟨c, cw, rfl, by decide⟩, ?_, ?_, ?_, ?_, ?_, ⟨one, u0.key, 0, u0, by decide +kernel, by decide +kernel⟩, ?_, ⟨7, by decide⟩⟩
  · exact ⟨(acc one).modTile 0 fun u => { u with mat := [o] }, _, 0, o, .e4m3, [], 4, by decide +kernel, rfl, by decide +kernel, by decide +kernel, by decide +kernel,
      by decide +kernel, ranT (by decide +kernel)⟩
  · exact ⟨(acc one).tile 0, o, .e4m3, 4, by decide +kernel, by decide +kernel, by decide +kernel⟩
  · let q : MatOp := { o with form := none }
    exact ⟨(acc one).modTile 0 fun u => { u with mat := [q], scrasid := u.scrasid.set 0 0x1001 }, _, 0, q, [], 4, by decide +kernel, rfl, by decide +kernel,
      by decide +kernel, rfl, rfl, by decide +kernel, by decide +kernel, ranT (by decide +kernel)⟩
  · intro refused
    let q : MatOp := { o with form := none, b := 1 }
    let s (a : BitVec 13) : State := ((acc one).modTile 0 fun u => { u with mat := [q] }).modTile 1 fun u => { u with scrasid := u.scrasid.set 0 a }
    let r (a : BitVec 13) : Reach :=
      (s a).ask (engineKey q.key.asid q.seq) 0 1 (.put q.a.toNat 8512 (((s a).tile 0).acc 4).imageBytes (some q.key.asid) [] [])
    let w (x : Byte × BitVec 32) : MatOp := { q with sent := some x }
    let then_ (a : BitVec 13) (x : Byte × BitVec 32) : Bool := match sentOf (r a) with
      | some (_, _, s') => decide ((s'.tile 0).mat = [q]) && (s'.tile 0).exports.isEmpty && okT ((s'.modTile 0 fun t => { t with mat := [w x] }).putHandle 0 q.key q.kreg
          (doneWord 2 true q.seq x.1 x.2))
      | none => false
    cases refused with
    | false =>
      obtain ⟨op, s', h, e⟩ := ranSent (r := r 0x1001) (g := none) (by decide +kernel)
      have t : then_ 0x1001 (0, 0) = true := by decide +kernel
      simp only [then_, h, Bool.and_eq_true, decide_eq_true_eq, List.isEmpty_iff] at t
      exact ⟨s 0x1001, s', _, 0, q, [], 4, op, _, 0, 0, by decide +kernel, rfl, by decide +kernel, by decide +kernel, by decide, rfl, rfl, e, ⟨rfl, rfl, rfl⟩, t.1.1,
        noneOf t.1.2, ranT t.2⟩
    | true =>
      obtain ⟨op, s', h, e⟩ := ranSent (r := r 2) (g := some 0) (by decide +kernel)
      have t : then_ 2 (3, 0) = true := by decide +kernel
      simp only [then_, h, Bool.and_eq_true, decide_eq_true_eq, List.isEmpty_iff] at t
      exact ⟨s 2, s', _, 0, q, [], 4, op, _, 3, 0, by decide +kernel, rfl, by decide +kernel, by decide +kernel, by decide, rfl, rfl, e, ⟨0, rfl, rfl, rfl⟩, t.1.1,
        noneOf t.1.2, ranT t.2⟩
  · let s : State := one.modTile 0 fun u => { u with copies := [c] }
    let r := s.agent 0 (engineKey c.asid c.seq) c.cgrp c.supv (copyRead c 0 0 0 64)
    exact ⟨s, stM r, 0, c, 0, 0, 0, 64, valM cw r, by decide +kernel, by decide +kernel, rfl, rfl, by decide +kernel, by decide +kernel, ran cw (by decide +kernel),
      by decide +kernel, by decide +kernel⟩
  · exact ⟨one.modTile 0 fun u => { u with copies := [{ c with pend := [cw] }] }, _, 0, 0, { c with pend := [cw] }, cw, [], by decide +kernel, rfl, by decide,
      ranU (by decide +kernel)⟩
  · let d : Copy := { c with stop := some (0, 0) }
    exact ⟨one.modTile 0 fun u => { u with copies := [d] }, _, 0, d, 0, 0, 0, by decide +kernel, by decide +kernel, rfl, by decide +kernel, ranT (by decide +kernel)⟩
  · have h : numF (filled (pre one)) = 0 := by decide +kernel
    have hx : (stF (filled (pre one))).tiles.all (fun e => e.2.exports.isEmpty) = true ∧ okT ((upTo (stF (filled (pre one))) 0 p [] ((p.va.toNat % 128 + p.len + 127) / 128) (some (0, 0))).putHandle 0 p.key p.kreg (doneWord 3 false p.seq 0 0)) = true := by
      decide +kernel
    have he : ∀ e ∈ ((stF (filled (pre one))).tile 0).exports, e.1 ≠ p.seq := by decide +kernel
    cases e : filled (pre one) with
    | all s1 => rw [e] at hx he; exact ⟨pre one, s1, _, 0, p, [], by decide +kernel, rfl, e, he, ranT hx.2⟩
    | held _ _ => rw [e] at h; cases h
    | bad _ _ => rw [e] at h; cases h
  · have h : numF (filled (pre (clampedAt one 0x1000))) = 1 := by decide +kernel
    cases e : filled (pre (clampedAt one 0x1000)) with
    | held k s1 => exact ⟨pre (clampedAt one 0x1000), s1, 0, p, [], k, by decide +kernel, rfl, e⟩
    | all _ => rw [e] at h; cases h
    | bad _ _ => rw [e] at h; cases h
  · let s : State := { pre one with bad := [0x1080 / 8] }
    have h : numF (filled s) = 2 := by decide +kernel
    have he : ∀ e ∈ ((stF (filled s)).tile 0).exports, e.1 ≠ p.seq := by decide +kernel
    have hx : okT ((upTo (stF (filled s)) 0 p [] 1 (some (5, 1))).putHandle 0 p.key p.kreg (doneWord 3 false p.seq 5 1)) = true := by decide +kernel
    have hb : (match filled s with | .bad n _ => n | _ => 0) = 1 := by decide +kernel
    cases e : filled s with
    | bad n s1 =>
      rw [e] at hb he hx
      dsimp only at hb
      subst hb
      exact ⟨s, s1, _, 0, p, [], 1, by decide +kernel, rfl, e, he, ranT hx⟩
    | all _ => rw [e] at h; cases h
    | held _ _ => rw [e] at h; cases h
  · let w : Who := agentWho 1 0 true false 7
    let s : State := pagedAt 0 (net [])
    have hx : okE (agentXl s w 0x1000) = true := by decide +kernel
    let x := valE x0 (agentXl s w 0x1000)
    obtain ⟨op, d, s2, h⟩ := ranLine (r := x.2.ask u0.key 0 1024 (.read (x.1.pa / 128 * 128) 128)) (by decide +kernel)
    exact ⟨s, x.2, s2, u0.key, w, 0x1000, 0, x.1, op, d, ranE x0 hx, by decide +kernel, .inl (by decide +kernel), h⟩
  · let t : Strand := { u0 with k := u0.k.set 1 (newHandle 2 false 7) }
    exact ⟨{ one with strands := [t] }, _, u0.key, 1, doneWord 2 false 7 0 0, t, _, by decide +kernel, by decide +kernel, by decide +kernel, by decide +kernel,
      by decide +kernel, by decide +kernel, ranE (s0, u0) (by decide +kernel)⟩

/-! ### Witnesses: welt kernels -/

/-- A cube with one welt kernel's image, of one instruction, at the start of stack 0's near memory. -/
def welt (l : List Msg) : State := withMem (net l) [(Config.nearBase, 0x442550001)]

/-- Stack 0 with these changes. -/
def onStack (s : State) (f : Stack → Stack) : State := s.setStack 0 (f (s.stack 0))

def tried : Try → Nat
  | .ok _ => 0
  | .wait _ => 1
  | .fail .. => 2

theorem triedOk {o : Try} (h : tried o = 0) : ∃ s, o = .ok s := by
  cases o <;> simp_all [tried]

theorem triedWait {o : Try} (h : tried o = 1) : ∃ s, o = .wait s := by
  cases o <;> simp_all [tried]

def imageFields (r : Except Nat Image) : List Nat := match r with
  | .ok g => [g.code, g.data, g.entry]
  | .error n => [n]

theorem imageOk {r : Except Nat Image} {a b c : Nat} (h : imageFields r = [a, b, c]) : r = .ok ⟨a, b, c⟩ := by
  cases r <;> simp_all [imageFields]
  cases h.1; cases h.2.1; cases h.2.2; rfl

theorem imageError {r : Except Nat Image} {n : Nat} (h : imageFields r = [n]) : r = .error n := by
  cases r <;> simp_all [imageFields]

theorem witness_WeltEvents :
    (∃ (s : State) (i : Nat) (m : Msg) (k : Kernel), Arrives s i m ∧ m.body = .launch k ∧ k.cancel = false) ∧
    (∃ (s : State) (st : Fin 12) (c i : Nat) (k : Kernel) (why : Nat), (s.stack st.val).service ≠ 0 ∧ (∀ v ∈ (s.stack st.val).restores, s.restorable v = false) ∧
      s.idleCore st.val = some c ∧ firstIdx (fun k => s.resident k.asid) (s.stack st.val).queue = some i ∧ (s.stack st.val).queue[i]? = some k ∧
      let u := s.setStack st.val { s.stack st.val with queue := dropAt i (s.stack st.val).queue }
      u.imageWaits k.image 64 = false ∧ u.imageBad k.image 64 = false ∧ u.image k = .error why) ∧
    (∃ (s : State) (st : Fin 12) (c i : Nat) (k : Kernel) (g : Image), (s.stack st.val).service ≠ 0 ∧ (∀ v ∈ (s.stack st.val).restores, s.restorable v = false) ∧
      s.idleCore st.val = some c ∧ firstIdx (fun k => s.resident k.asid) (s.stack st.val).queue = some i ∧ (s.stack st.val).queue[i]? = some k ∧
      let u := s.setStack st.val { s.stack st.val with queue := dropAt i (s.stack st.val).queue }
      u.imageWaits k.image 64 = false ∧ u.imageBad k.image 64 = false ∧ u.image k = .ok g ∧
      u.imageWaits k.image (64 + g.code + g.data) = false ∧ u.imageBad k.image (64 + g.code + g.data) = false) ∧
    (∃ (s : State) (st : Fin 12) (k : Kernel) (r : List Kernel), (s.stack st.val).service = 0 ∧ (s.stack st.val).queue = k :: r) ∧
    (∃ (s : State) (st : Fin 12) (c i : Nat) (v : Saved), s.idleCore st.val = some c ∧ firstIdx s.restorable (s.stack st.val).restores = some i ∧
      (s.stack st.val).restores[i]? = some v) ∧
    (∃ (s s1 : State) (i : Nat) (m : Msg) (k : Kernel) (status : Byte) (info : BitVec 32), s.msgs[i]? = some m ∧ m.st = .sent ∧
      m.body = .weltEnd k status info ∧ s.lostOn m.trip = none ∧ (s.dropMsg i).complete k status info = .ok s1) ∧
    (∃ (s s1 : State) (i : Nat) (m : Msg) (k : Kernel) (status : Byte) (info : BitVec 32), s.msgs[i]? = some m ∧ m.st = .sent ∧
      m.body = .weltEnd k status info ∧ s.lostOn m.trip = none ∧ (s.dropMsg i).complete k status info = .wait s1) ∧
    (∃ (s s1 : State) (k : Kernel) (status : Byte) (info : BitVec 32), (∀ e ∈ s.l2, k.declares e.addr = false) ∧
      (∀ e ∈ (s.tile k.tile.toNat).exports, e.1 ≠ k.seq) ∧
      (s.modTile k.tile.toNat fun t => { t with launches := t.launches - 1 }).putHandle k.tile.toNat k.key k.kreg (doneWord 4 false k.seq status info) = .ok s1) ∧
    (∃ (s : State) (st : Fin 12) (i c : Nat) (banks : List (Nat × Nat)), i < (s.stack st.val).clampq.length ∧
      canGrant s st.val (s.stack st.val).clampq i = true ∧ (∀ j < i, canGrant s st.val (s.stack st.val).clampq j = false) ∧
      (s.stack st.val).clampq[i]? = some (c, banks)) ∧
    (∃ (s : State) (st : Fin 12) (n : Fin 16), (s.coreOf (st.val * 16 + n.val)).kern.isSome = true ∧ (s.coreOf (st.val * 16 + n.val)).clamps ≠ [] ∧
      (s.coreOf (st.val * 16 + n.val)).ends = none) ∧
    ∃ (s : State) (p : Posted) (r : List Posted), s.core.posted = p :: r ∧ s.clampedByOther (s.coreAt / 16) p.loc = false ∧ s.core.ends = none := by
  let c0 : Core := { Core.reset with kern := some kern0, clamps := [(1, 2)] }
  refine ⟨?_, ?_, ?_, ⟨onStack (net []) fun y => { y with service := 0, queue := [kern0] }, 0, kern0, [], by decide +kernel, by decide +kernel⟩,
    ⟨onStack (net []) fun y => { y with restores := [⟨3, c0⟩] }, 0, 0, 0, ⟨3, c0⟩, by decide +kernel, by decide +kernel, by decide +kernel⟩, ?_, ?_, ?_,
    ⟨(onStack (net []) fun y => { y with clampq := [(2, [(1, 2)]), (3, [(1, 3)])] }).setCore 0 c0, 0, 1, 3, [(1, 3)], by decide +kernel, by decide +kernel,
      by decide +kernel, by decide +kernel⟩,
    ⟨(net []).setCore 0 c0, 0, 0, by decide +kernel, by decide +kernel, by decide +kernel⟩,
    ⟨{ net [] with core := { c0 with posted := [.write (2 ^ 35) 8 7] } }, _, [], rfl, by decide +kernel, rfl⟩⟩
  · let m := msg .req 0 1024 (.launch kern0)
    exact ⟨net [m], 0, m, kern0, arrives 0 rfl rfl (by decide +kernel) (by decide +kernel), rfl, rfl⟩
  · let s := onStack (net []) fun y => { y with queue := [kern0] }
    exact ⟨s, 0, 0, 0, kern0, 1, by decide +kernel, by decide +kernel, by decide +kernel, by decide +kernel, by decide +kernel, by decide +kernel, by decide +kernel, imageError (by decide +kernel)⟩
  · let s := onStack (welt []) fun y => { y with queue := [kern0] }
    exact ⟨s, 0, 0, 0, kern0, ⟨4, 0, 0⟩, by decide +kernel, by decide +kernel, by decide +kernel, by decide +kernel, by decide +kernel, by decide +kernel,
      by decide +kernel, imageOk (by decide +kernel), by decide +kernel, by decide +kernel⟩
  · let m := msg .rsp 1024 0 (.weltEnd kern0 0 0)
    obtain ⟨s1, h1⟩ := triedOk (o := ((net [m]).dropMsg 0).complete kern0 0 0) (by decide +kernel)
    exact ⟨net [m], s1, 0, m, kern0, 0, 0, rfl, rfl, rfl, by decide +kernel, h1⟩
  · let m := msg .rsp 1024 0 (.weltEnd kern0 0 0)
    let s : State := { clampedAt (net [m]) Config.nearBase with l2 := [{ addr := Config.nearBase / 128, dirty := 1, data := 7 }] }
    obtain ⟨s1, h1⟩ := triedWait (o := (s.dropMsg 0).complete kern0 0 0) (by decide +kernel)
    exact ⟨s, s1, 0, m, kern0, 0, 0, by decide +kernel, rfl, rfl, by decide +kernel, h1⟩
  · obtain ⟨s1, h1⟩ := triedOk (o := ((net []).modTile kern0.tile.toNat fun t => { t with launches := t.launches - 1 }).putHandle kern0.tile.toNat kern0.key kern0.kreg (doneWord 4 false kern0.seq 0 0)) (by decide +kernel)
    exact ⟨net [], s1, kern0, 0, 0, by decide +kernel, by decide +kernel, h1⟩

/-! ### Witnesses: the host -/

/-- A space 1 whose table maps the first 512 MiB of addresses onto physical address 0. -/
def tabled (s : State) : State := withMem s [(0x10, 0x10001), (0x10000, 0x20001), (0x20000, 0x30001), (0x30000, 0x2F)]

/-- Queue 0 holds one command, with these words by byte offset. -/
def asks (s : State) (l : List (Nat × Nat)) : State :=
  { withMem s (l.map fun e => (Config.hostBase + e.1, e.2)) with queues := s.queues.set 0 { base := 0, size := 4, head := 0, tail := 1, busy := false } }

/-- The command at the head of queue 0. -/
def cmdOf (s : State) : Cmd := { queue := 0, raw := s.homeRead (s.hostPa (s.queues[(0 : Fin 4)].base.toNat + 128 * (s.queues[(0 : Fin 4)].head.toNat % s.queues[(0 : Fin 4)].size.toNat))) 128 }

theorem commandOf {s : State} (h : decide (s.phase = .running ∧ s.queues[(0 : Fin 4)].size ≠ 0 ∧ s.queues[(0 : Fin 4)].head ≠ s.queues[(0 : Fin 4)].tail) = true) :
    s.command 0 = some (cmdOf s) := by
  have := of_decide_eq_true h
  unfold State.command cmdOf
  simp [this.1]
  exact ⟨by simpa using this.2.1, by simpa using this.2.2⟩

theorem atHead {s : State} {code : Nat} (h : decide (s.queues[(0 : Fin 4)].busy = false ∧ (s.phase = .running ∧ s.queues[(0 : Fin 4)].size ≠ 0 ∧
      s.queues[(0 : Fin 4)].head ≠ s.queues[(0 : Fin 4)].tail) ∧ (cmdOf s).code = code ∧ (code ≠ 2 → (cmdOf s).known = true)) = true) : AtHead s 0 (cmdOf s) code := by
  have := of_decide_eq_true h
  exact ⟨this.1, commandOf (decide_eq_true this.2.1), this.2.2.1, this.2.2.2⟩

/-- A page that bars a deferred launch (R334). -/
abbrev Bars (c : Cmd) (entry dst : Nat) (leaf : Word) : Prop :=
  leaf.getLsbD 2 = false ∨ leaf.getLsbD 4 = true ∧ itemSupv c.record.asid (if c.record.mode = 1 ∨ c.record.mode = 2 then entry else dst) = false

theorem witness_HostCommands :
    (∃ (s : State) (q : Fin 4) (c : Cmd) (entry dst : Nat), AtHead s q c 1 ∧ badRec c.record.body = none ∧ c.record.dom &&& ~~~ domMask = 0 ∧
      s.launchDest c c.record = some (entry, dst) ∧ c.record.depc = 0 ∧ (s.tile entry).credit dst < 2) ∧
    (∃ (s : State) (q : Fin 4) (c : Cmd) (entry dst size leafpa : Nat) (leaf : Word), AtHead s q c 1 ∧ badRec c.record.body = none ∧
      c.record.dom &&& ~~~ domMask = 0 ∧ s.launchDest c c.record = some (entry, dst) ∧ c.record.depc ≠ 0 ∧
      s.soleWalk c.record.asid c.record.depcVA = some (size, leaf, leafpa) ∧ Bars c entry dst leaf) ∧
    (∃ (s : State) (q : Fin 4) (c : Cmd) (entry dst size leafpa : Nat) (leaf : Word), AtHead s q c 1 ∧ badRec c.record.body = none ∧
      c.record.dom &&& ~~~ domMask = 0 ∧ s.launchDest c c.record = some (entry, dst) ∧ c.record.depc ≠ 0 ∧
      s.soleWalk c.record.asid c.record.depcVA = some (size, leaf, leafpa) ∧ ¬ Bars c entry dst leaf ∧ leaf.getLsbD 58 = true) ∧
    (∃ (s : State) (q : Fin 4) (c : Cmd) (entry dst size i leafpa : Nat) (leaf : Word), AtHead s q c 1 ∧ badRec c.record.body = none ∧
      c.record.dom &&& ~~~ domMask = 0 ∧ s.launchDest c c.record = some (entry, dst) ∧ c.record.depc ≠ 0 ∧
      s.soleWalk c.record.asid c.record.depcVA = some (size, leaf, leafpa) ∧ ¬ Bars c entry dst leaf ∧ leaf.getLsbD 58 = false ∧
      HoldsMemory s (leafPa size leaf c.record.depcVA) ∧
      let n := if c.record.mode = 1 ∨ c.record.mode = 2 then entry else dst
      let area := (s.tile n).dfrBase + 128 * i
      (s.tile n).dfrBase ≠ 0 ∧ (s.tile n).freeDefer = some i ∧ s.areaFault area = none ∧ s.barred n area = false) ∧
    (∃ (s : State) (q : Fin 4) (c : Cmd), AtHead s q c 1 ∧ badRec c.record.body ≠ none) ∧
    (∃ (s : State) (q : Fin 4) (c : Cmd), AtHead s q c 1 ∧ c.record.dom &&& ~~~ domMask ≠ 0) ∧
    (∃ (i : Instr) (s : State) (q : Fin 4) (c : Cmd) (form : Nat), invlCommandOf i = some (q, form) ∧ AtHead s q c 2 ∧ c.form = form ∧ form = 0 ∧ c.len = 0) ∧
    (∃ (i : Instr) (s : State) (q : Fin 4) (c : Cmd) (form : Nat), invlCommandOf i = some (q, form) ∧ AtHead s q c 2 ∧ c.form = form ∧ ¬ (form = 0 ∧ c.len = 0)) ∧
    (∃ (s : State) (q : Fin 4) (c : Cmd), AtHead s q c 3 ∧ s.preemptOf q = none ∧ c.asid = 0) ∧
    (∃ (s : State) (q : Fin 4) (c : Cmd), AtHead s q c 3 ∧ s.preemptOf q = none ∧ c.asid ≠ 0 ∧ s.absent.contains c.asid = true) ∧
    (∃ (s : State) (q : Fin 4) (c : Cmd), AtHead s q c 3 ∧ s.preemptOf q = none ∧ c.asid ≠ 0 ∧ s.absent.contains c.asid = false ∧ ∀ p ∈ s.preempts, p.asid ≠ c.asid) ∧
    (∃ (s : State) (q : Fin 4) (p : Preempt), s.preemptOf q = some p) ∧
    (∃ (s : State) (p : Preempt), s.retainedAccs p.asid = 0 ∧ s.retainedLines p.asid = 0 ∧ (∀ r ∈ s.resumes, r.1 ≠ p.asid) ∧ p.who = []) ∧
    (∃ (s s1 : State) (q : Fin 4) (c : Cmd), AtHead s q c 4 ∧ s.absent.contains c.asid = true ∧ s.resumes = [] ∧
      ({ s.setBusy q with resumes := [(c.asid, c.ref)] } : State).resumeSpace c.asid = (s1, true)) ∧
    (∃ (s : State) (q : Fin 4) (c : Cmd), AtHead s q c 4 ∧ s.absent.contains c.asid = false ∧ ∀ p ∈ s.preempts, p.asid ≠ c.asid) ∧
    (∃ (s : State) (q : Fin 4) (c : Cmd) (size leafpa : Nat) (leaf : Word), AtHead s q c 5 ∧ s.migrating = none ∧ c.at 72 73 < 2 ^ 12 ∧ c.at 74 79 = 0 ∧
      c.at 96 127 = 0 ∧ s.soleWalk (BitVec.ofNat 12 (c.at 72 73)) (BitVec.ofNat 64 (c.at 64 71)) = some (size, leaf, leafpa) ∧
      va57 (BitVec.ofNat 64 (c.at 64 71)) % 2 ^ sizeShift size = 0 ∧ c.at 80 87 % 2 ^ sizeShift size = 0 ∧ HoldsMemory s (c.at 80 87) ∧
      s.declared (BitVec.ofNat 12 (c.at 72 73)) (va57 (BitVec.ofNat 64 (c.at 64 71))) (2 ^ sizeShift size) = false) ∧
    (∃ (s : State) (q : Fin 4) (c : Cmd), AtHead s q c 5 ∧ s.migrating = none ∧ c.at 72 73 < 2 ^ 12 ∧ c.at 74 79 = 0 ∧ c.at 96 127 = 0 ∧
      s.soleBusy (BitVec.ofNat 12 (c.at 72 73)) (BitVec.ofNat 64 (c.at 64 71)) = false ∧
      s.soleWalk (BitVec.ofNat 12 (c.at 72 73)) (BitVec.ofNat 64 (c.at 64 71)) = none) ∧
    ∃ (i : Instr) (s : State) (q : Fin 4) (c : Cmd), (i = .launch q ∨ i = .resume q ∨ i = .migrate q ∨ ∃ form, invlCommandOf i = some (q, form)) ∧
      s.queues[q].busy = false ∧ s.command q = some c ∧ c.known = false := by
  let ask (l : List (Nat × Nat)) : State := asks (net []) l
  let dep (leaf : Nat) : State := (withMem (asks (tabled (net [])) [(0, 0x0005000000010001), (64, 2 ^ 54)]) [(0x30000, leaf)]).modTile 5 fun t => { t with dfr := 0x40000 }
  refine ⟨?_, ?_, ?_, ?_, ?_, ?_, ?_, ?_, ?_, ?_, ?_, ?_, ?_, ?_, ?_, ?_, ?_, ?_⟩
  · let s := ask [(0, 0x0005000000010001)]
    exact ⟨s, 0, cmdOf s, 5, 5, atHead (by decide +kernel), by decide +kernel, by decide +kernel, by decide +kernel, by decide +kernel, by decide +kernel⟩
  · let s := dep 0x3F
    exact ⟨s, 0, cmdOf s, 5, 5, 2, 0x30000, 0x3F, atHead (by decide +kernel), by decide +kernel, by decide +kernel, by decide +kernel, by decide +kernel,
      by decide +kernel, by decide +kernel⟩
  · let s := dep 0x40000000000002F
    exact ⟨s, 0, cmdOf s, 5, 5, 2, 0x30000, 0x40000000000002F, atHead (by decide +kernel), by decide +kernel, by decide +kernel, by decide +kernel, by decide +kernel,
      by decide +kernel, by decide +kernel, by decide⟩
  · let s := dep 0x2F
    exact ⟨s, 0, cmdOf s, 5, 5, 2, 0, 0x30000, 0x2F, atHead (by decide +kernel), by decide +kernel, by decide +kernel, by decide +kernel, by decide +kernel,
      by decide +kernel, by decide +kernel, by decide, .inl (by decide +kernel), by decide +kernel, by decide +kernel, by decide +kernel, by decide +kernel⟩
  · let s := ask [(0, 0x0005000000010001), (88, 2 ^ 58)]
    exact ⟨s, 0, cmdOf s, atHead (by decide +kernel), by decide +kernel⟩
  · let s := ask [(0, 0x0005000000010001), (32, 2 ^ 20)]
    exact ⟨s, 0, cmdOf s, atHead (by decide +kernel), by decide +kernel⟩
  · let s := ask [(0, 0x0000000000010002), (16, 0x1000)]
    exact ⟨.invlCommandRange 0, s, 0, cmdOf s, 0, rfl, atHead (by decide +kernel), by decide +kernel, rfl, by decide +kernel⟩
  · let s := ask [(0, 0x0000020000000002)]
    exact ⟨.invlCommandAll 0, s, 0, cmdOf s, 2, rfl, atHead (by decide +kernel), by decide +kernel, by decide⟩
  · let s := ask [(0, 3)]
    exact ⟨s, 0, cmdOf s, atHead (by decide +kernel), by decide +kernel, by decide +kernel⟩
  · let s : State := { ask [(0, 0x10003)] with absent := [1] }
    exact ⟨s, 0, cmdOf s, atHead (by decide +kernel), by decide +kernel, by decide +kernel, by decide +kernel⟩
  · let s := ask [(0, 0x10003)]
    exact ⟨s, 0, cmdOf s, atHead (by decide +kernel), by decide +kernel, by decide +kernel, by decide +kernel, by decide +kernel⟩
  · let p : Preempt := { asid := 1, step := 1, who := [⟨0, 0⟩] }
    exact ⟨{ ask [(0, 0x10003)] with preempts := [p] }, 0, p, by decide +kernel⟩
  · exact ⟨net [], { asid := 1, step := 6, who := [] }, by decide +kernel, by decide +kernel, by decide, rfl⟩
  · let s : State := { ask [(0, 0x10004)] with absent := [1] }
    exact ⟨s, _, 0, cmdOf s, atHead (by decide +kernel), by decide +kernel, rfl, pairB (by decide +kernel)⟩
  · let s := ask [(0, 0x10004)]
    exact ⟨s, 0, cmdOf s, atHead (by decide +kernel), by decide +kernel, by decide +kernel⟩
  · let s := asks (tabled (net [])) [(0, 5), (72, 1), (80, 0x20000000)]
    exact ⟨s, 0, cmdOf s, 2, 0x30000, 0x2F, atHead (by decide +kernel), rfl, by decide +kernel, by decide +kernel, by decide +kernel, by decide +kernel,
      by decide +kernel, by decide +kernel, .inl (by decide +kernel), by decide +kernel⟩
  · let s := ask [(0, 5), (72, 1)]
    exact ⟨s, 0, cmdOf s, atHead (by decide +kernel), rfl, by decide +kernel, by decide +kernel, by decide +kernel, by decide +kernel, by decide +kernel⟩
  · let s := ask [(0, 6)]
    exact ⟨.resume 0, s, 0, cmdOf s, .inr (.inl rfl), by decide +kernel, commandOf (by decide +kernel), by decide +kernel⟩

theorem witness_HostWrites :
    (∃ (s : State) (w1 : Word), s.phase = .recovery ∧ badReply s.hreply w1 = false) ∧
    (∃ (s : State) (tile : BitVec 10) (r : Fin 32) (w : Word), s.phase = .running ∧ BitVec.ofNat 13 w.toNat = (s.tile tile.toNat).scrasid[r]) ∧
    (∃ (s : State) (tile : BitVec 10) (r : Fin 32) (w : Word), s.phase = .running ∧ BitVec.ofNat 13 w.toNat ≠ (s.tile tile.toNat).scrasid[r] ∧
      (s.tile tile.toNat).regionUsed r.val = false ∧ s.regionBusy tile.toNat r.val = true) ∧
    (∃ (s : State) (tile : BitVec 10) (r : Fin 32) (w : Word), s.phase = .running ∧ BitVec.ofNat 13 w.toNat ≠ (s.tile tile.toNat).scrasid[r] ∧
      (s.tile tile.toNat).regionUsed r.val = false ∧ s.regionBusy tile.toNat r.val = false) ∧
    (∃ (s : State) (w : Word), s.phase = .running ∧ w.getLsbD 3 = true) ∧
    (∃ (s : State) (off : BitVec 30), s.phase = .recovery ∧ off.toNat % 8 = 0) ∧
    (∃ (s : State) (pa : BitVec 52) (wr : List Byte), s.phase = .running ∧ s.win pa.toNat = .inter ∧ pa.toNat % 64 + wr.length ≤ 64 ∧
      s.heldAtHome pa.toNat = false ∧ wr = []) ∧
    (∃ (s : State) (pa : BitVec 52) (wr : List Byte), s.phase = .running ∧ (∃ st o, s.win pa.toNat = .near st o) ∧ pa.toNat % 64 + wr.length = 64 ∧
      s.heldAtHome pa.toNat = false ∧ wr ≠ []) ∧
    (∃ (s : State) (pa n : Nat), s.bad = [] ∧ s.outAt (pa / 128 * 128) = false ∧ n ≠ 0 ∧ pa % 128 + n = 128) ∧
    (∃ (s : State) (pa n : Nat), s.bad ≠ [] ∧ s.outAt (pa / 128 * 128) = false ∧ n ≠ 0 ∧ pa % 128 + n ≤ 128 ∧
      ∀ w ∈ s.bad, w / 16 = pa / 128 → pa ≤ 8 * w ∧ 8 * w + 8 ≤ pa + n) ∧
    ∃ (s : State) (pa : BitVec 52) (wr : List Byte), s.phase = .running ∧ s.win pa.toNat = .host ∧ pa.toNat % 64 + wr.length ≤ 64 :=
  ⟨⟨{ net [] with phase := .recovery }, 0, rfl, by decide +kernel⟩, ⟨net [], 0, 31, 0, rfl, by decide +kernel⟩,
    ⟨(net []).modTile 0 fun t => { t with mat := [{ key := u0.key, kreg := 0, seq := 0, q := 0, form := none, a := 0, b := 0, ctab := 0, uses := 0x80000000, got := [] }] }, 0, 31, 0x1001, rfl, by decide +kernel, by decide +kernel, by decide +kernel⟩,
    ⟨net [], 0, 31, 0x1001, rfl, by decide +kernel, by decide +kernel, by decide +kernel⟩, ⟨net [], 8, rfl, by decide⟩, ⟨{ net [] with phase := .recovery }, 0x10, rfl, by decide⟩,
    ⟨net [], 0x1000, [], rfl, by decide +kernel, by decide +kernel, by decide +kernel, rfl⟩,
    ⟨net [], BitVec.ofNat 52 (Config.nearBase + 63), [7], rfl, ⟨0, 63, by decide +kernel⟩, by decide +kernel, by decide +kernel, by decide⟩,
    ⟨net [], 0x1040, 64, rfl, by decide +kernel, by decide, by decide⟩,
    ⟨{ net [] with bad := [0x1040 / 8, 7] }, 0x1040, 8, by decide +kernel, by decide +kernel, by decide, by decide, by decide +kernel⟩,
    ⟨net [], BitVec.ofNat 52 Config.hostBase, [], rfl, by decide +kernel, by decide +kernel⟩⟩

/-! ### Witnesses: links and ports -/

/-- A header of a request of package 1 to package 0 of this TYPE, for 8 bytes at near address 0x40. -/
def hdr (type : Nat) : BitVec 128 := BitVec.ofNat 128 (type * 2 ^ 124 + 2 ^ 121 + 7 * 2 ^ 112 + Config.nearBase + 0x40)

/-- What LinksAndPorts assumes of a message whose timer runs out. -/
def TimerDue (s : State) (i : Nat) (m : Msg) : Prop := s.msgs[i]? = some m ∧ s.windowed i m = true ∧ s.clampHolds i m = false ∧ m.holds = 0

theorem witness_LinksAndPorts :
    (∃ (s : State) (i : Nat) (m : Msg) (key : Key) (op : HomeOp), TimerDue s i m ∧ m.cls ≠ .enq ∧ m.cls ≠ .sync ∧
      m.cls ≠ .rsp ∧ m.attempt = 4 ∧ m.body = .access key op none ∧ (s.theStrand? key).isSome = true) ∧
    (∃ (s : State) (i : Nat) (m : Msg), TimerDue s i m ∧ m.cls = .enq ∧ (m.attempt + 1) % 5 ≠ 0) ∧
    (∃ (s : State) (i : Nat) (m : Msg), TimerDue s i m ∧ m.cls = .rsp ∧ (m.attempt + 1) % 5 = 0) ∧
    (∃ (s : State) (i : Nat) (m : Msg), TimerDue s i m ∧ m.cls ≠ .enq ∧ m.cls ≠ .sync ∧ m.cls ≠ .rsp ∧ m.attempt = 3) ∧
    (∃ (s : State) (i : Nat) (m : Msg) (key : Key) (pa op : Nat) (wide : Bool) (v : Word), TimerDue s i m ∧ m.cls ≠ .enq ∧ m.cls ≠ .sync ∧
      m.cls ≠ .rsp ∧ m.attempt = 4 ∧ m.body = .redn key pa op wide v) ∧
    (∃ m : Msg, m.st = .lost) ∧
    (∃ (s : State) (i pa : Nat) (m : Msg), Arrives s i m ∧ m.cls = .req ∧ m.body.pa? = some pa ∧ ∃ st o, s.win pa = .near st o) ∧
    (∃ (s : State) (h : Hops) (m : Msg), s.msgs[h.msg]? = some m ∧ m.st = .sent ∧ m.esc = false) ∧
    (∃ (s : State) (h : Hops) (m : Msg) (a : Ans), s.msgs[h.msg]? = some m ∧ m.st = .answered a ∧ m.backEsc = false) ∧
    (∃ (t : Trip) (n : Nat), t.tree = none ∧ t.switch = some n) ∧
    (∃ (s : State) (h : Hops) (m : Msg) (hop : Hop), s.msgs[h.msg]? = some m ∧ m.st = .sent ∧ (s.course m.trip)[h.made]? = some hop) ∧
    (∃ (s : State) (h : Hops) (m : Msg) (hop : Hop) (a : Ans), s.msgs[h.msg]? = some m ∧ m.st = .answered a ∧ (s.course m.tripBack)[h.made]? = some hop) ∧
    (∃ (s : State) (tile : BitVec 10) (p : Port), (s.tile tile.toNat).crcCount p = 65) ∧
    (∃ (s : State) (tile : BitVec 10) (p : Port) (side farSide : Fin 4), p ≠ .sole ∧ p ∈ (s.tile tile.toNat).failed ∧ (s.tile tile.toNat).patched p = false ∧
      (s.tile tile.toNat).patch.length < 4 ∧ (s.tile (farEnd tile.toNat p).1).patch.length < 4 ∧ s.sideOk tile.toNat p side.val = true ∧
      s.sideOk (farEnd tile.toNat p).1 (farEnd tile.toNat p).2 farSide.val = true) ∧
    (∃ (h : BitVec 128) (d : List Byte) (crc : BitVec 32), crc ≠ portCrc h d) ∧
    (∃ (s : State) (h : BitVec 128), s.phase = .running ∧ hdrType h = 3 ∧ hdrDpkg h = s.pkgid.toNat) ∧
    (∃ (s : State) (h : BitVec 128), s.phase = .running ∧ hdrType h = 8 ∧ hdrSpkg h = s.pkgid.toNat) ∧
    (∃ (s : State) (h : BitVec 128), s.phase = .running ∧ hdrType h = 11 ∧ hdrSpkg h = s.pkgid.toNat) ∧
    ∃ (s : State) (h : BitVec 128) (st o p : Nat), s.phase = .running ∧ hdrType h = 0 ∧ hdrDpkg h = s.pkgid.toNat ∧
      s.win (s.pkgid.toNat * 2 ^ Config.pkgShift + hdrOff h) = .near st o ∧ s.heldAtHome (s.pkgid.toNat * 2 ^ Config.pkgShift + hdrOff h) = false ∧
      s.badIn (s.pkgid.toNat * 2 ^ Config.pkgShift + hdrOff h) (hdrBytes h) = false ∧
      (s.homeFill ((s.pkgid.toNat * 2 ^ Config.pkgShift + hdrOff h) / 128)).portFor (hdrSpkg h) (hdrOff h) = some p := by
  let m := msg .enq 0 5 (.enq (rec0 0) false)
  let r := msg .req 0 1024 (.redn u0.key (Config.nearBase + 0x40) 1 true 5)
  let acc := msg .req 0 1024 (.access u0.key (.read Config.nearBase 128) none)
  let back : Msg := { m with st := .answered .accepted }
  have due (m : Msg) (h : decide ((net [m]).windowed 0 m = true ∧ (net [m]).clampHolds 0 m = false ∧ m.holds = 0) = true) : TimerDue (net [m]) 0 m :=
    ⟨rfl, of_decide_eq_true h⟩
  refine ⟨⟨net [{ acc with attempt := 4 }], 0, { acc with attempt := 4 }, _, _, due _ (by decide +kernel), by decide, by decide, by decide, rfl, rfl, by decide +kernel⟩,
    ⟨net [{ m with attempt := 8 }], 0, { m with attempt := 8 }, due _ (by decide +kernel), rfl, by decide⟩,
    ⟨net [{ m with cls := .rsp, attempt := 4 }], 0, { m with cls := .rsp, attempt := 4 }, due _ (by decide +kernel), rfl, by decide⟩,
    ⟨net [{ r with attempt := 3 }], 0, { r with attempt := 3 }, due _ (by decide +kernel), by decide, by decide, by decide, rfl⟩,
    ⟨net [{ r with attempt := 4 }], 0, { r with attempt := 4 }, _, _, _, _, _, due _ (by decide +kernel), by decide, by decide, by decide, rfl, rfl⟩,
    ⟨{ m with st := .lost }, rfl⟩,
    ⟨net [r], 0, Config.nearBase + 0x40, r, arrives 0 rfl rfl (by decide +kernel) (by decide +kernel), rfl, rfl, 0, 0x40, by decide +kernel⟩,
    ⟨net [m], ⟨0, 1⟩, m, rfl, rfl, rfl⟩, ⟨net [back], ⟨0, 1⟩, back, _, rfl, rfl, rfl⟩,
    ⟨({ m with esc := true, escAt := 1 } : Msg).trip, 1, rfl, rfl⟩, ?_, ?_,
    ⟨(net []).modTile 0 fun t => t.setCrc .xp (List.replicate 65 0), 0, .xp, by decide +kernel⟩, ?_,
    ⟨hdr 0, [], ~~~ (portCrc (hdr 0) []), by decide +kernel⟩,
    ⟨net [], hdr 3, rfl, by decide +kernel, by decide +kernel⟩,
    ⟨{ net [] with pkgid := 1 }, hdr 8, rfl, by decide +kernel, by decide +kernel⟩, ⟨{ net [] with pkgid := 1 }, hdr 11, rfl, by decide +kernel, by decide +kernel⟩,
    ⟨{ net [] with optmap := (net []).optmap.set 3 9 }, hdr 0, 0, 0x40, 3, rfl, by decide +kernel, by decide +kernel, by decide +kernel, by decide +kernel,
      by decide +kernel, by decide +kernel⟩⟩
  · obtain ⟨hop, h⟩ := Option.isSome_iff_exists.mp (show (((net [m]).course m.trip)[0]?).isSome = true by decide +kernel)
    exact ⟨net [m], ⟨0, 0⟩, m, hop, rfl, rfl, h⟩
  · obtain ⟨hop, h⟩ := Option.isSome_iff_exists.mp (show (((net [back]).course back.tripBack)[0]?).isSome = true by decide +kernel)
    exact ⟨net [back], ⟨0, 0⟩, back, hop, _, rfl, rfl, h⟩
  · exact ⟨(net []).failLink 0 .xp, 0, .xp, 3, 2, by decide, by decide +kernel, by decide +kernel, by decide +kernel, by decide +kernel, by decide +kernel, by decide +kernel⟩

/-! ### Witnesses: start, heat, failures, the invariant -/

theorem witness_StartAndPower :
    (∃ s : State, s.phase = .off ∧ (∀ n < 12, (s.unpowered.stack n).banksOk = true) ∧ s.brokenLinks = [] ∧ ∀ i : Fin 11, recFailed s.record[i] = false) ∧
    (∃ (s : State) (step : Fin 11), s.phase = .starting step ∧ recMode s.record[step] = 0 ∧ hasAlternate (step.val + 1) = false) ∧
    (∃ s : State, s.phase = .recovery) :=
  ⟨⟨State.reset, rfl, by decide +kernel, by decide +kernel, by decide +kernel⟩,
    ⟨{ State.reset with phase := .starting 8 }, 8, rfl, by decide +kernel, by decide⟩, { State.reset with phase := .recovery }, rfl⟩

theorem witness_HeatAndFailures :
    (∃ (s : State) (z : Fin 16), (s.layer z.val).zeros = 3 ∧ (s.layer z.val).lowered + 900 = (s.layer z.val).req.toNat) ∧
    (∃ (s : State) (z : Fin 16), (s.layer z.val).highs = 15) ∧
    (∃ t : Byte, t.toNat = 115) ∧ (∃ t : Byte, t.toNat = 114) ∧ (∃ t : Byte, t.toNat = 41) ∧ (∃ t : Byte, t.toNat = 40) ∧
    (∃ (s : State) (z : Fin 16), (s.layer z.val).temp.toNat = 115) ∧ (∃ (s : State) (z : Fin 16), (s.layer z.val).temp.toNat = 114) ∧
    (∃ mhz : BitVec 16, mhz.toNat = 800) ∧ (∃ mhz : BitVec 16, mhz.toNat = 2200) ∧
    (∃ y : Layer, y.lowered = 0 ∧ y.lim95 = false ∧ y.lim105 = false) ∧
    (∃ (s : State) (st : Fin 12) (ch : Fin 32) (bank : Fin 36), s.wornBank st.val ch.val bank.val = true ∧ ((s.stack st.val).live ch.val).getLsbD bank.val = true ∧ 32 < liveCount ((s.stack st.val).live ch.val) ∧
      ∀ e ∈ s.cores, e.1 / 16 = st.val → e.2.clamps = []) ∧
    ∃ (s : State) (tile : BitVec 10), (s.tile tile.toNat).out = false := by
  let lay (f : Layer → Layer) : State := (net []).setLayer 5 (f ((net []).layer 5))
  exact ⟨⟨lay fun y => { y with zeros := 3, req := 2200, lowered := 1300 }, 5, by decide +kernel, by decide +kernel⟩, ⟨lay fun y => { y with highs := 15 }, 5, by decide +kernel⟩,
    ⟨115, rfl⟩, ⟨114, rfl⟩, ⟨41, rfl⟩, ⟨40, rfl⟩,
    ⟨lay fun y => { y with temp := 115 }, 5, by decide +kernel⟩, ⟨lay fun y => { y with temp := 114 }, 5, by decide +kernel⟩, ⟨800, rfl⟩, ⟨2200, rfl⟩,
    ⟨{ (net []).layer 5 with lowered := 0, lim95 := false, lim105 := false }, rfl, rfl, rfl⟩, ⟨(net []).setStack 11 { (net []).stack 11 with corr := [((31, 35), 4096)] }, 11, 31, 35, by decide +kernel, by decide +kernel, by decide +kernel, by decide +kernel⟩,
    net [], 1023, by decide +kernel⟩

theorem witness_StepKeepsInvariant : ∃ s t : State, State.Inv s ∧ step s = .next t := by
  let s : State := { s0 with schedule := [.event (.tallowRefresh 3 100 70)] }
  have h : goes (step s) (fun _ => true) = true := by decide +kernel
  cases e : step s with
  | next t => exact ⟨s, t, by unfold State.Inv Core.Inv; decide +kernel, e⟩
  | fault f => rw [e] at h; cases h
  | refused r => rw [e] at h; cases h

/-! ### Single steps from the manual's worked examples -/

/-- Vector registers with their lanes of f32 codes. -/
def lanes32 (s : State) (l : List (VReg × Tag × List Nat)) : State :=
  { s with me := { s.me with
      v := l.foldl (fun v e => v.set e.1 (ofLanes 32 e.2.2)) s.me.v
      vtag := l.foldl (fun v e => v.set e.1 e.2.1) s.me.vtag } }

-- The pair examples of chapters 7 and 9: `lea` in two pairs; `lhi` keeps the low half only.
theorem test_lhi : goes (exec (.lhi 5 5 (.lit 0x100)) (give s0 [(5, 0xFFFFFFFF80002040)])) (fun t => t.g 5 = 0x0000010080002040) = true := by decide +kernel
theorem test_addi_literal_extends : goes (exec (.addi 5 0 (.lit 0x80002040)) s0) (fun t => t.g 5 = 0xFFFFFFFF80002040) = true := by decide +kernel

-- R172: a division by 0 gives all ones and the dividend; R171: the quotient truncates toward zero.
theorem test_div_truncates : goes (exec (.div 1 2 3 0) (give s0 [(2, -7), (3, 2)])) (fun t => t.g 1 = -3) = true := by decide +kernel
theorem test_divu_by_zero : goes (exec (.divu 1 2 3 0) (give s0 [(2, 9)])) (fun t => t.g 1 = 0xFFFFFFFFFFFFFFFF) = true := by decide +kernel
theorem test_rem_by_zero : goes (exec (.rem 1 2 3 0) (give s0 [(2, -9)])) (fun t => t.g 1 = -9) = true := by decide +kernel

-- The table of conversions of 70,000.0 and −2.5 in chapter 7.
theorem test_cvt_overflows : goes (exec (.cvt 5 6 .f16 .f32 .rne false) (give s0 [(6, 0x4788B800)])) (fun t => t.g 5 = 0x7C00) = true := by decide +kernel
theorem test_cvt_rtz_saturates : goes (exec (.cvt 5 6 .f16 .f32 .rtz false) (give s0 [(6, 0x4788B800)])) (fun t => t.g 5 = 0x7BFF) = true := by decide +kernel
theorem test_cvt_to_integer : goes (exec (.cvt 5 6 .i32 .f32 .rne false) (give s0 [(6, 0xC0200000)])) (fun t => t.g 5 = -2) = true := by decide +kernel

-- The fused multiply-add example of chapter 9: −2^−46 exactly.
theorem test_vfma_fused :
    goes (exec (.vfma 5 6 7 0 .rne) (lanes32 s0 [(5, .f32, [0xBF800000]), (6, .f32, [0x3F800001]), (7, .f32, [0x3F7FFFFE])]))
      (fun t => laneAt (t.v 5) 32 0 = 0xA8800000) = true := by decide +kernel

-- R85's example: the tree's sum of 2^24, 1, 1, −2^24 is 1.
theorem test_vredadd_tree :
    goes (exec (.vredadd 1 2 0 .rne) (lanes32 s0 [(2, .f32, [0x4B800000, 0x3F800000, 0x3F800000, 0xCB800000] ++ List.replicate 28 0)])) (fun t => t.g 1 = 0x3F800000) = true := by
  decide +kernel

-- The block example of chapter 9.
theorem test_vbq_scales :
    goes (exec (.vbq 4 0 .e4m3 .rne) (lanes32 s0 [(0, .f32, List.replicate 24 0x3F800000 ++ List.replicate 8 0),
        (1, .f32, List.replicate 16 0 ++ List.replicate 12 0x40000000 ++ [0x7FC00000] ++ List.replicate 3 0x40000000),
        (2, .f32, List.replicate 8 0x40000000 ++ (List.replicate 12 [0x40400000, 0xC0400000]).flatten)]))
      (fun t => laneAt (t.v 4) 32 24 = 0x78FF0077 ∧ laneAt (t.v 4) 8 0 = 0x78 ∧ laneAt (t.v 4) 8 72 = 0x7C ∧ laneAt (t.v 4) 8 73 = 0xFC ∧ t.tag 4 = .e4m3) = true := by
  decide +kernel
theorem test_vbdq_values :
    goes (exec (.vbdq 8 4 .e4m3 .rne) (lanes32 s0 [(4, .e4m3, List.replicate 6 0x78787878 ++ List.replicate 12 0 ++ List.replicate 6 0xFC7CFC7C ++ [0x78FF0077])]))
      (fun t => laneAt (t.v 8) 32 23 = 0x3F800000 ∧ laneAt (t.v 9) 32 16 = 0x7FC00000 ∧ laneAt (t.v 10) 32 8 = 0x40400000 ∧ laneAt (t.v 10) 32 9 = 0xC0400000) = true := by
  decide +kernel

-- R79's example: 100.0 and −3.3 in e4m3.
theorem test_block_codes :
    (let q := quantBlock fmtE4m3 .rne 0 [.fin false 100 0, .fin true 13841203 (-22)]
     (q.1, q.2.1) = (0x7D, [0x7C, 0xD5])) := by decide +kernel

-- R82's example: the sum at an element of an accumulator of ANCHOR −3 is −61, and its readout in bf16 is 0xC0F4.
theorem test_mma_sum :
    (let t := (((Tile.reset.scrWrite 0 96 (0x3A + 0x01 * 2 ^ 192 + 0x81 * 2 ^ 192 * 2 ^ 192)).scrWrite 96 96 (0xC4 + 0x38 * 2 ^ 192 + 0x38 * 2 ^ 192 * 2 ^ 192)).scrWrite
        192 4 0x7F7F7F7E).scrWrite 196 4 0x7F7F7F81
     ((mmaSum (-3) (Sum.ofElem 0 0) (mmaVals t 0 (mmaRow .e4m3) .e4m3 false 0 192 false) (mmaVals t 0 (mmaRow .e4m3) .e4m3 false 96 196 false)).close).1) = -61 := by
  decide +kernel
theorem test_qread_rounds :
    goes (exec (.qread 4 1 0 .bf16 .rne) (accs.modMyTile fun t => t.setAcc 1 { t.acc 1 with anchor := -3, elems := [⟨-61, 0⟩] }))
      (fun t => laneAt (t.v 4) 16 0 = 0xC0F4 ∧ laneAt (t.v 4) 16 1 = 0) = true := by decide +kernel

-- R113's and R114's example: slice, stack, channel and bank of an offset.
theorem test_device_address :
    (let s : State := { s0.setStack 8 { Stack.reset with bavail := [(20, 0xFFFFFFF7F)] } with nearsz := 16 }
     (slice 0x2345678000, s.place 0x2345678000, s.bank 8 (3082036 * 4096))) = (36, some (8, 3082036 * 4096), (20, 26)) := by decide +kernel

-- R321's example: 7 hops in +z, 3 in +x, 2 in −y.
theorem test_route : (route 4 (9 * 64 + 3 * 8 + 2) (8 + 5)).map (·.2) = List.replicate 7 .zp ++ List.replicate 3 .xp ++ List.replicate 2 .ym := by decide +kernel

-- R54's example: the level of a record of PRIO 0 stamped 50,000.
theorem test_level : ([50000, 51024, 52048, 53072].map fun d => ({ rec0 0 with stamp := 50000 } : Rec).level (BitVec.ofNat 64 d)) = [0, 1, 2, 3] := by decide +kernel

/-- Space 7 with a page of 64 KiB at 0x0000_0700_0012_0000, not yet charged, under group 9's limit of 2,048 units with 2,040 used. -/
def quotaState : State :=
  give { withMem s0 [(0x70, 0x10001), (0x10000, 0x20001), (0x20070, 0x30001), (0x30000, 0x40001), (0x40000, 0x50001), (0x50090, 0x10007),
      (0x20007090, 2040), (0x20007098, 2048)] with
    chgbase := 0x20000001, me := { u0 with key := ⟨7, 1⟩, supv := false, cgrp := 9, tvec := 0x1000 } } [(2, 0x0000070000120040)]

-- The QUOTA example of chapter 17: nothing is charged, the leaf keeps CH = 0, and the handler has TINFO and TADDR.
theorem test_quota :
    goes (exec (.st 1 2 (.fld 0) .b64) quotaState) (fun t => t.me.tcause = 20 ∧ t.me.tinfo = 0x0009000000000010 ∧ t.me.taddr = 0x0000070000120040 ∧
      t.me.npc = 0x1000 ∧ t.homeRead 0x20007090 8 = 2040 ∧ t.homeRead 0x50090 8 = 0x10007) = true := by decide +kernel
-- With the limit at 4,096 and 1,992 used, the store's walk charges the page: USED = 2,008, CH = 1, CHG = 9.
theorem test_charge :
    goes (exec (.st 1 2 (.fld 0) .b64) (withMem quotaState [(0x20007090, 1992), (0x20007098, 4096)]))
      (fun t => t.me.tcause = 0 ∧ t.homeRead 0x20007090 8 = 2008 ∧ t.homeRead 0x50090 8 = 0x10927) = true := by decide +kernel

-- The fault record example of chapter 15: a load whose page is not present at level 4.
theorem test_data_record :
    goes (exec (.ld 5 6 (.fld 0) .d64 0) (give ({ withMem s0 [(0x70, 0x10001)] with
        me := { u0 with key := ⟨7, 0x30000041⟩, supv := false, tile := 0x11A, pc := 0x10040 } }.modTile 0x11A fun t => { t with recordCount := 0x12 })
        [(6, 0x0000050000000000)]))
      (fun t => t.me.pend = 1 ∧ t.me.trappc = 0x10040 ∧ t.me.taddr = 0x0000050000000000 ∧ t.me.tcause = 0 ∧ t.me.g[5] = 0 ∧
        (t.msgs.map fun m => match m.body with | .record w => (w.take 4, w[5]?) | _ => ([], none)) =
          [([0x02000012011A0020, 0x0000E00030000041, 0x10040, 0x0000050000000000], some 0x400)]) = true := by decide +kernel

-- R370, R375: a load of an uncorrectable scratchpad word writes nothing and leaves a data error; a store of the whole word mends it.
theorem test_soft_word :
    (let s := (give s0 [(6, 0x00FFFFFFFFE00040)]).soft (.scratch 0 8)
     goes (exec (.ld 5 6 (.fld 0) .d64 0) s) (fun t => t.me.g[5] = s.me.g[5] ∧ t.me.errs = [(0x00FFFFFFFFE00040, s.me.pc)]) ∧
     goes (exec (.st 5 6 (.fld 0) .b64) s) (fun t => t.myTile.badw = []) ∧ goes (exec (.st 5 6 (.fld 4) .b32) s) (fun t => t.myTile.badw = [8])) = true := by
  decide +kernel
-- R376: the 256th corrected error of a unit is logged (no log ring: it counts as lost).
theorem test_corrected_count :
    (let s := s0.setStack 8 { Stack.reset with corr := [((20, 7), 254)] }
     ((s.soft (.bank 8 20 7)).loglost, ((s.soft (.bank 8 20 7)).soft (.bank 8 20 7)).loglost)) = (0, 1) := by decide +kernel
-- R375: a dirty register line that is uncorrectable parks its strand with REASON 1; a clean one is only dropped.
theorem test_soft_line :
    (let s (d : BitVec 32) : State := { net [] with strands := [{ u0 with present := 0xFF, dirty := d }] }
     (((s 0x20).soft (.regLine u0.key 5)).strands.map fun t => (t.state, t.reason, t.present.getLsbD 5),
      ((s 0).soft (.regLine u0.key 5)).strands.map fun t => (t.state, t.present.getLsbD 5))) = ([(3, 1, false)], [(u0.state, false)]) := by decide +kernel

/-! ### Pairs and outstanding loads (R142, R149, R152) -/

/-- A strand whose g6 addresses a line of a clamped bank, as in R152's example. -/
def late0 : State := give (clampedAt (pagedAt 0 { s0 with nearsz := 32 }) 0x1040) [(5, 10), (6, 0x1038)]

/-- The outstanding load of that example, its window over, and its bank free again. -/
def late1 : State :=
  let t : Strand := { u0 with late := [{ i := .ld 5 6 (.fld 1) .d64 3, dst := .g 5, bit := 0, pc := 0, left := 0, gone := false
                                         pieces := [(0x1040, [{ va := 0x1040, len := 8, place := .mem { pa := 0x1040, mt := 0, size := 2, leaf := leaf 0 0 } }])] }] }
  withMem { net [] with strands := [t] } [(0x1040, 100)]

def outcome (o : Host.Outcome State Fault Refusal) : State := match o with
  | .next s => s
  | _ => s0

theorem outcome_next {o : Host.Outcome State Fault Refusal} (h : goes o (fun _ => true) = true) : o = .next (outcome o) := by
  cases o <;> simp_all [goes, outcome]

theorem witness_PairRunsBothSlots :
    (∃ (s s1 : State) (i : Instr), exec i s.beginC = .next s1 ∧ s1.ended = .ok) ∧
    (∃ (s s1 s2 : State) (c a : Instr), exec c s.beginC = .next s1 ∧ s1.ended = .ok ∧ exec a (s.beginA s1) = .next s2 ∧ s2.ended = .ok) ∧
    (∃ s : State, s.me.leaving = none) ∧
    (∃ (s s1 : State) (c : Instr) (e : Cond), exec c s.beginC = .next s1 ∧ s1.ended = .cond e) ∧
    (∃ (s s1 s2 : State) (c a : Instr) (e : Cond), exec c s.beginC = .next s1 ∧ s1.ended = .ok ∧ exec a (s.beginA s1) = .next s2 ∧ s2.ended = .cond e) ∧
    (∃ (s s1 : State) (c : Instr) (w : Wait), exec c s.beginC = .next s1 ∧ s1.ended = .wait w ∧ s1.passed = false ∧ s.me.begun = false ∧
      s.beginC.lateOf s1 c w = none) ∧
    (∃ (s s1 s2 : State) (c a : Instr) (w : Wait) (e : Cond), exec c s.beginC = .next s1 ∧ s1.ended = .wait w ∧ s1.passed = true ∧ s.me.begun = false ∧
      s.beginC.lateOf s1 c w = none ∧ exec a s.beginAlone = .next s2 ∧ s2.ended = .cond e) ∧
    (∃ (s s1 s2 : State) (c a : Instr) (w : Wait), exec c s.beginC = .next s1 ∧ s1.ended = .ok ∧ exec a (s.beginA s1) = .next s2 ∧ s2.ended = .wait w ∧
      w.blocking = false ∧ s2.passed = true) ∧
    (∃ (s s1 : State) (v : Strand) (a : Instr), exec a { s with view := some v, passed := false, pieceNo := 0 } = .next s1 ∧ s1.ended = .ok) ∧
    (∃ (s s1 s2 : State) (c a : Instr) (w : Wait) (l : Late), exec c s.beginC = .next s1 ∧ s1.ended = .wait w ∧ s.beginC.lateOf s1 c w = some l ∧
      exec a (s.beginA (s1.putLate l)) = .next s2 ∧ s2.ended = .ok) ∧
    ∃ (s : State) (l : Late) (i : Instr), l ∈ s.me.late ∧ l.gone = false ∧ l.left = 0 ∧ Instr.touches i l.dst = true := by
  let ld (la : La) : Instr := .ld 5 6 (.fld 1) .d64 la
  let l0 : Late := { i := .cnop, dst := .g 0, pieces := [], bit := 0, pc := 0, left := 0, gone := false }
  have some_of (o : Option Late) (h : o.isSome = true) : o = some (o.getD l0) := by cases o <;> simp_all
  refine ⟨⟨s0, _, .add 1 2 3, rfl, rfl⟩, ⟨s0, _, _, .cnop, .add 1 2 3, rfl, rfl, rfl, rfl⟩, ⟨s0, rfl⟩, ⟨s0, _, .trap 31, _, rfl, rfl⟩,
    ⟨s0, _, _, .cnop, .vadd 1 2 3 0 .rne, _, rfl, rfl, rfl, rfl⟩, ?_, ?_, ?_, ⟨s0, _, u0, .add 1 2 3, rfl, rfl⟩, ?_, ?_⟩
  · exact ⟨give late0 [(6, 0x1040)], _, .ctabld 6, .unit, outcome_next (by decide +kernel), by decide +kernel, by decide +kernel, rfl, by decide +kernel⟩
  · exact ⟨{ s0 with me := { u0 with k := u0.k.set 3 (newHandle 2 false 7) } }, _, _, .hwait 3, .vadd 1 2 3 0 .rne, .handle 8, _, outcome_next (by decide +kernel),
      by decide +kernel, by decide +kernel, rfl, by decide +kernel, rfl, rfl⟩
  · exact ⟨give late0 [(6, 0x1040)], _, _, .cnop, .amoadd 4 6 5 .w64 .none .c, .unit, rfl, rfl, outcome_next (by decide +kernel), by decide +kernel, rfl, by decide +kernel⟩
  · exact ⟨late0, _, _, ld 3, .addi 7 5 (.fld 1), .unit, _, outcome_next (by decide +kernel), by decide +kernel, some_of _ (by decide +kernel),
      outcome_next (by decide +kernel), by decide +kernel⟩
  · exact ⟨late1.load (late1.strands.headD u0), _, .addi 10 5 (.fld 0), List.mem_cons_self, rfl, rfl, by decide +kernel⟩

-- R152's example: a load of a clamped bank is outstanding; its A slot reads g5 = 10 and the strand goes on with two window words left.
theorem test_load_outstanding :
    goes (late0.runPair (.two (.ld 5 6 (.fld 1) .d64 3) (.addi 7 5 (.fld 1))))
      (fun t => t.me.g[7] = 11 ∧ t.me.g[5] = 10 ∧ t.me.pc = 8 ∧ t.me.wait = none ∧ t.me.late.map (·.left) = [2]) = true := by decide +kernel
-- Its data returns after the window: g5 = 100.
theorem test_load_returns :
    goes (exec (.loadDataReturn u0.key) late1) (fun t => t.strands.map (fun t => (t.g[5], t.late)) = [(100, [])]) = true := by decide +kernel
-- R283's example row: `hwait k3 | qread.bf16 v4, q2, 0` in one pair takes ACCBUSY with the MMA's register and sequence number.
theorem test_wait_beside_readout :
    goes ((({ accs with me := { accs.me with k := u0.k.set 3 (newHandle 2 false 7) } } : State).modMyTile fun t =>
        { t with mat := [{ key := u0.key, kreg := 3, seq := 7, q := 2, form := some .e4m3, a := 0, b := 0, ctab := 0, uses := 0, got := [] }] }).runPair
        (.two (.hwait 3) (.qread 4 2 0 .bf16 .rne)))
      (fun t => match t.ended with | .cond c => (c.code, c.reg, c.tinfo) = (16, 2, 7) | _ => false) = true := by decide +kernel

end Sys2Proof.Tests
end

section
/-!
SUPPORT and the proof of heat and failures (R20, R208, R427–R436): what the log and a write at a home leave alone, a layer's clock, the
retirement of a bank, and that nothing which a tile does as it leaves service brings it back.
-/

namespace Sys2Proof.Machine

/-! ### Folds -/

/-- What every step of a fold leaves alone, the fold leaves alone. -/
theorem foldl_keeps {α β γ : Type} (g : β → γ) {f : β → α → β} (h : ∀ b a, g (f b a) = g b) (l : List α) (b : β) :
    g (l.foldl f b) = g b := by
  induction l generalizing b with
  | nil => rfl
  | cons a l ih => rw [List.foldl_cons, ih, h]

/-! ### What logs and writes at a home leave alone -/

@[simp] theorem State.homeFill_layers (s : State) (n : Nat) : (s.homeFill n).layers = s.layers := by unfold State.homeFill; split <;> rfl
@[simp] theorem State.homeWriteLine_layers (s : State) (n : Nat) (m : MaskV) (x : Line) : (s.homeWriteLine n m x).layers = s.layers := by
  simp [State.homeWriteLine]
@[simp] theorem State.homeWrite_layers (s : State) (pa n v : Nat) : (s.homeWrite pa n v).layers = s.layers := by
  unfold State.homeWrite; split <;> simp

/-- An entry of the log is counted as lost, or written at its home (R377). -/
theorem State.logEntry_cases (s : State) (kind source : Nat) (l : List Word) :
    s.logEntry kind source l = { s with loglost := s.loglost + 1 } ∨
    ∃ pa v tail n, s.logEntry kind source l = { s.homeWrite pa 64 v with logtail := tail, msix := n } := by
  simp only [State.logEntry]
  generalize (s.logtail.toNat + 1) % (if s.logsize.toNat = 0 then 1 else s.logsize.toNat) = next
  split
  · exact .inl rfl
  · exact .inr ⟨_, _, _, _, rfl⟩

@[simp] theorem State.logEntry_me (s : State) (kind source : Nat) (l : List Word) : (s.logEntry kind source l).me = s.me := by
  obtain h | ⟨_, _, _, _, h⟩ := s.logEntry_cases kind source l <;> simp [h]
@[simp] theorem State.logEntry_strands (s : State) (kind source : Nat) (l : List Word) : (s.logEntry kind source l).strands = s.strands := by
  obtain h | ⟨_, _, _, _, h⟩ := s.logEntry_cases kind source l <;> simp [h]
@[simp] theorem State.logEntry_tiles (s : State) (kind source : Nat) (l : List Word) : (s.logEntry kind source l).tiles = s.tiles := by
  obtain h | ⟨_, _, _, _, h⟩ := s.logEntry_cases kind source l <;> simp [h]
@[simp] theorem State.logEntry_layers (s : State) (kind source : Nat) (l : List Word) : (s.logEntry kind source l).layers = s.layers := by
  obtain h | ⟨_, _, _, _, h⟩ := s.logEntry_cases kind source l <;> simp [h]
@[simp] theorem State.logEntry_stks (s : State) (kind source : Nat) (l : List Word) : (s.logEntry kind source l).stks = s.stks := by
  obtain h | ⟨_, _, _, _, h⟩ := s.logEntry_cases kind source l <;> simp [h]
@[simp] theorem State.layer_logEntry (s : State) (kind source : Nat) (l : List Word) (z : Nat) :
    (s.logEntry kind source l).layer z = s.layer z := by simp [State.layer]
@[simp] theorem State.stack_logEntry (s : State) (kind source : Nat) (l : List Word) (n : Nat) :
    (s.logEntry kind source l).stack n = s.stack n := by simp [State.stack]
@[simp] theorem State.setLayer_tiles (s : State) (z : Nat) (y : Layer) : (s.setLayer z y).tiles = s.tiles := rfl

theorem SameStrands.refl (s : State) : SameStrands s s := ⟨rfl, rfl⟩
theorem SameStrands.trans {s t u : State} (h : SameStrands s t) (k : SameStrands t u) : SameStrands s u := ⟨k.1.trans h.1, k.2.trans h.2⟩
theorem sameStrands_setLayer (s : State) (z : Nat) (y : Layer) : SameStrands s (s.setLayer z y) := ⟨rfl, rfl⟩
theorem sameStrands_setStack (s : State) (n : Nat) (y : Stack) : SameStrands s (s.setStack n y) := ⟨rfl, rfl⟩
theorem sameStrands_logEntry (s : State) (kind source : Nat) (l : List Word) : SameStrands s (s.logEntry kind source l) := ⟨by simp, by simp⟩

/-! ### A layer's clock (R208, R431) -/

@[simp] theorem Layer.setClock_allow (y : Layer) : y.setClock.allow = y.allow := rfl
@[simp] theorem Layer.setClock_temp (y : Layer) : y.setClock.temp = y.temp := rfl
@[simp] theorem Layer.setClock_lowered (y : Layer) : y.setClock.lowered = y.lowered := rfl

/-- The lower of a layer's two limits, in MHz. -/
def Layer.limit (y : Layer) : Nat := if y.lim105 then 800 else if y.lim95 then 1600 else 65535

theorem Layer.setClock_clk_toNat (y : Layer) : y.setClock.clk.toNat = max 800 (min (y.req.toNat - y.lowered) y.limit) := by
  have hr := y.req.isLt
  simp only [Layer.setClock, Layer.limit, BitVec.toNat_ofNat]
  split <;> split <;> omega

/-- A layer with no limit and nothing lowered runs at the point requested. -/
theorem Layer.setClock_clk_of_free {y : Layer} (h0 : y.lowered = 0) (h95 : y.lim95 = false) (h105 : y.lim105 = false) (h : 800 ≤ y.req.toNat) :
    y.setClock.clk = y.req := by
  have hr := y.req.isLt
  apply BitVec.eq_of_toNat_eq
  simp only [Layer.setClock_clk_toNat, Layer.limit, h0, h95, h105]
  simp only [Bool.false_eq_true, if_false]
  omega

/-! ### A THERM entry, or none -/

theorem sameStrands_ite_logTherm (s : State) (c : Prop) [Decidable c] (l : List Nat) : SameStrands s (if c then s.logTherm l else s) := by
  split
  · exact sameStrands_logEntry ..
  · exact .refl s
@[simp] theorem layer_ite_logTherm (s : State) (c : Prop) [Decidable c] (l : List Nat) (z : Nat) :
    (if c then s.logTherm l else s).layer z = s.layer z := by
  split
  · exact State.layer_logEntry ..
  · rfl

/-! ### TALLOW (R20, R208, R431) -/

/-- The allowance as it is written. -/
def capAllow (allow : BitVec 16) : BitVec 16 := BitVec.ofNat 16 (min allow.toNat allowMax)

theorem capAllow_toNat (allow : BitVec 16) : (capAllow allow).toNat = min allow.toNat 1680 := by
  have hlt : min allow.toNat allowMax < 2 ^ 16 := Nat.lt_of_le_of_lt (Nat.min_le_left ..) allow.isLt
  rw [capAllow, BitVec.toNat_ofNat, Nat.mod_eq_of_lt hlt]
  rfl
theorem capAllow_eq_zero (allow : BitVec 16) : capAllow allow = 0 ↔ allow = 0 := by
  rw [BitVec.toNat_eq, BitVec.toNat_eq, capAllow_toNat]
  show min allow.toNat 1680 = 0 ↔ allow.toNat = 0
  omega

/-- A layer after a refresh of its TALLOW, before its clock is set again: the counts of refreshes in a row, and what a full count changes. -/
def Layer.refreshed (y : Layer) (allow : BitVec 16) (temp : Byte) : Layer :=
  let zeros := if capAllow allow = 0 then y.zeros + 1 else 0
  let highs := if 168 ≤ (capAllow allow).toNat then y.highs + 1 else 0
  let y1 : Layer := { y with allow := capAllow allow, temp := temp }
  if zeros = 4 then
    { y1 with zeros := 0, highs := 0, lowered := if y.req.toNat < y.lowered + 900 then y.lowered else y.lowered + 100 }
  else if highs = 16 then { y1 with zeros := 0, highs := 0, lowered := y.lowered - 100 }
  else { y1 with zeros := zeros, highs := highs }

theorem completes_tallowRefresh (s : State) (z : Fin 16) (allow : BitVec 16) (temp : Byte) :
    ∃ t, Completes (.tallowRefresh z allow temp) s t ∧ SameStrands s t ∧ t.layer z.val = ((s.layer z.val).refreshed allow temp).setClock := by
  show ∃ t, execTallowRefresh z allow temp s = done t ∧ _
  unfold execTallowRefresh
  extract_lets a y zeros highs lowered s1
  split
  case isTrue h4 =>
    refine ⟨_, rfl, (sameStrands_setLayer ..).trans (sameStrands_ite_logTherm ..), ?_⟩
    rw [layer_ite_logTherm, State.layer_setLayer]
    exact congrArg Layer.setClock (if_pos h4).symm
  case isFalse h4 =>
    split
    case isTrue h16 =>
      refine ⟨_, rfl, sameStrands_setLayer .., ?_⟩
      rw [State.layer_setLayer]
      exact congrArg Layer.setClock ((if_neg h4).trans (if_pos h16)).symm
    case isFalse h16 =>
      refine ⟨_, rfl, sameStrands_setLayer .., ?_⟩
      rw [State.layer_setLayer]
      exact congrArg Layer.setClock ((if_neg h4).trans (if_neg h16)).symm

theorem Layer.refreshed_allow_temp (y : Layer) (allow : BitVec 16) (temp : Byte) :
    (y.refreshed allow temp).allow = capAllow allow ∧ (y.refreshed allow temp).temp = temp := by
  unfold Layer.refreshed
  extract_lets
  split
  · exact ⟨rfl, rfl⟩
  · split <;> exact ⟨rfl, rfl⟩

/-- The fourth refresh in a row with no power left, while that leaves 800 MHz. -/
theorem Layer.refreshed_lowered_of_zero {y : Layer} (temp : Byte) (hz : y.zeros = 3) (hr : y.lowered + 900 ≤ y.req.toNat) :
    (y.refreshed 0 temp).lowered = y.lowered + 100 := by
  have h0 : capAllow 0 = 0 := (capAllow_eq_zero 0).mpr rfl
  simp only [Layer.refreshed, h0, hz, Nat.not_lt.mpr hr, if_true, if_false]

/-- The sixteenth refresh in a row with 42 W to spare. -/
theorem Layer.refreshed_lowered_of_high {y : Layer} {allow : BitVec 16} (temp : Byte) (ha : 168 ≤ allow.toNat) (hh : y.highs = 15) :
    (y.refreshed allow temp).lowered = y.lowered - 100 := by
  have hm : 168 ≤ (capAllow allow).toNat := by
    rw [capAllow_toNat]
    omega
  have hc : capAllow allow ≠ 0 := fun h => absurd (h ▸ hm) (by decide)
  simp only [Layer.refreshed, hc, hm, hh, if_true, if_false, Nat.reduceAdd, Nat.reduceEqDiff]

/-- A refresh between the two. -/
theorem Layer.refreshed_lowered_of_mid {y : Layer} {allow : BitVec 16} (temp : Byte) (h0 : allow ≠ 0) (ha : allow.toNat < 168) :
    (y.refreshed allow temp).lowered = y.lowered := by
  have hc : capAllow allow ≠ 0 := mt (capAllow_eq_zero allow).mp h0
  have hm : ¬ 168 ≤ (capAllow allow).toNat := by
    rw [capAllow_toNat]
    omega
  simp only [Layer.refreshed, hc, hm, if_false, Nat.reduceEqDiff]

/-! ### Thresholds (R430, R431) -/

theorem completes_requestedPointChange (s : State) (z : Fin 16) {mhz : BitVec 16} (h1 : 800 ≤ mhz.toNat) (h2 : mhz.toNat ≤ 2200) :
    Completes (.requestedPointChange z mhz) s (s.setLayer z.val { s.layer z.val with req := mhz }.setClock) := by
  show execRequestedPointChange z mhz s = done _
  simp [execRequestedPointChange, h1, h2]

/-- A layer under the limits that its temperature sets and clears, before its clock is set again. -/
def Layer.limited (y : Layer) : Layer :=
  { y with
    lim95 := if 95 ≤ y.temp.toNat then true else if y.temp.toNat < 90 then false else y.lim95
    lim105 := if 105 ≤ y.temp.toNat then true else if y.temp.toNat < 100 then false else y.lim105 }

theorem State.layer_limitLayer (s : State) (z : Nat) : (s.limitLayer z).layer z = (s.layer z).limited.setClock := by
  simp only [State.limitLayer, layer_ite_logTherm, State.layer_setLayer]
  rfl
theorem sameStrands_limitLayer (s : State) (z : Nat) : SameStrands s (s.limitLayer z) :=
  ((sameStrands_setLayer ..).trans (sameStrands_ite_logTherm ..)).trans (sameStrands_ite_logTherm ..)

theorem Layer.clk_setClock_ge (y : Layer) : 800 ≤ y.setClock.clk.toNat := by
  rw [Layer.setClock_clk_toNat]
  exact Nat.le_max_left ..
theorem Layer.limited_clk_of_95 {y : Layer} (h : 95 ≤ y.temp.toNat) : y.limited.setClock.clk.toNat ≤ 1600 := by
  have hl : y.limited.limit ≤ 1600 := by
    have h95 : y.limited.lim95 = true := if_pos h
    cases h105 : y.limited.lim105 <;> simp [Layer.limit, h95, h105]
  rw [Layer.setClock_clk_toNat]
  omega
theorem Layer.limited_clk_of_105 {y : Layer} (h : 105 ≤ y.temp.toNat) : y.limited.setClock.clk = 800 := by
  have hl : y.limited.limit = 800 := by simp only [Layer.limit, Layer.limited, h, if_true]
  apply BitVec.eq_of_toNat_eq
  rw [Layer.setClock_clk_toNat, hl]
  exact Nat.max_eq_left (Nat.min_le_right ..)

theorem completes_thermalThreshold {r : Sensor} {s t : State} : Completes (.thermalThreshold r) s t ↔ execThermalThreshold r s = done t := .rfl

theorem completes_layerThreshold_trip {s : State} {z : Fin 16} (h : 115 ≤ (s.layer z.val).temp.toNat) :
    Completes (.thermalThreshold (.layer z)) s (s.trip z.val (s.layer z.val).temp.toNat) := by
  simp only [completes_thermalThreshold, execThermalThreshold, h, if_true]
theorem completes_layerThreshold {s : State} {z : Fin 16} (h : (s.layer z.val).temp.toNat < 115) :
    Completes (.thermalThreshold (.layer z)) s (s.limitLayer z.val) := by
  simp only [completes_thermalThreshold, execThermalThreshold, Nat.not_le.mpr h, if_false]
theorem completes_soleThreshold_trip (s : State) {temp : Byte} (h : 115 ≤ temp.toNat) :
    Completes (.thermalThreshold (.sole temp)) s (s.trip 16 temp.toNat) := by
  simp only [completes_thermalThreshold, execThermalThreshold, h, if_true]
theorem completes_soleThreshold (s : State) {temp : Byte} (h : temp.toNat < 115) : Completes (.thermalThreshold (.sole temp)) s s := by
  simp only [completes_thermalThreshold, execThermalThreshold, Nat.not_le.mpr h, if_false]
theorem completes_inletThreshold_log (s : State) {temp : Byte} (h : 40 < temp.toNat) :
    Completes (.thermalThreshold (.inlet temp)) s (s.logTherm [17, temp.toNat, 6]) := by
  simp only [completes_thermalThreshold, execThermalThreshold, h, if_true]
theorem completes_inletThreshold (s : State) {temp : Byte} (h : temp.toNat ≤ 40) : Completes (.thermalThreshold (.inlet temp)) s s := by
  simp only [completes_thermalThreshold, execThermalThreshold, Nat.not_lt.mpr h, if_false]

/-- Whether a stack refreshes fast at a temperature, from whether it did. -/
def fastAt (temp : Nat) (was : Bool) : Bool := if 85 < temp then true else if temp < 80 then false else was

theorem completes_refreshRateChange (s : State) (st : Fin 12) (temp : Byte) :
    ∃ t, Completes (.refreshRateChange st temp) s t ∧ SameStrands s t ∧ (t.stack st.val).fast = fastAt temp.toNat (s.stack st.val).fast := by
  show ∃ t, execRefreshRateChange st temp s = done t ∧ _
  have hset (z : Stack) (l : List Nat) : SameStrands s ((s.setStack st.val z).logTherm l) ∧ ((s.setStack st.val z).logTherm l).stack st.val = z :=
    ⟨(sameStrands_setStack ..).trans (sameStrands_logEntry ..), by rw [State.logTherm, State.stack_logEntry, State.stack_setStack]⟩
  unfold execRefreshRateChange fastAt
  extract_lets n y t
  refine ⟨_, rfl, ?_⟩
  split
  case isTrue h =>
    have ht : 85 < t := by simp_all
    obtain ⟨hs, hy⟩ := hset { y with fast := true } [n, t, 4]
    exact ⟨hs, by rw [hy, if_pos ht]⟩
  case isFalse h =>
    split
    case isTrue h' =>
      have ht : t < 80 := by simp_all
      obtain ⟨hs, hy⟩ := hset { y with fast := false } [n, t, 5]
      exact ⟨hs, by rw [hy, if_neg (by omega), if_pos ht]⟩
    case isFalse h' =>
      refine ⟨.refl s, ?_⟩
      cases hf : (s.stack st.val).fast <;> simp_all [n, t, y]

/-! ### Bank retirement (R427, R428) -/

theorem sameStrands_logMoved (s : State) (n ch j : Nat) : SameStrands s (s.logMoved n ch j) :=
  ⟨foldl_keeps State.me (fun _ _ => State.logEntry_me ..) _ _, foldl_keeps State.strands (fun _ _ => State.logEntry_strands ..) _ _⟩

theorem completes_bankRetirement {s : State} {st : Fin 12} {ch : Fin 32} {bank : Fin 36} (hw : s.wornBank st.val ch.val bank.val = true)
    (hl : ((s.stack st.val).live ch.val).getLsbD bank.val = true) (hn : 32 < liveCount ((s.stack st.val).live ch.val))
    (hc : ∀ e ∈ s.cores, e.1 / 16 = st.val → e.2.clamps = []) :
    ∃ t, Completes (.bankRetirement st ch bank) s t ∧ SameStrands s t ∧
      (t.stack st.val).bavail = put ch.val ((s.stack st.val).live ch.val &&& ~~~ (BitVec.ofNat 36 (2 ^ bank.val))) (s.stack st.val).bavail := by
  show ∃ t, execBankRetirement st ch bank s = done t ∧ _
  unfold execBankRetirement
  extract_lets n y live live' j touched move y' count
  have hgo : (!s.wornBank n ch.val bank.val || !live.getLsbD bank.val || decide (liveCount live ≤ 32)) = false := by
    simp [n, live, y, hw, hl, hn]
  have hfree : (s.cores.any fun e => e.1 / 16 = n && e.2.clamps.any touched) = false := by
    simp only [List.any_eq_false, Bool.and_eq_true, decide_eq_true_eq, not_and]
    intro e he hst
    simp [hc e he hst]
  simp only [hgo, hfree, Bool.false_eq_true, if_false]
  exact ⟨_, rfl, ((sameStrands_logMoved ..).trans (sameStrands_setStack ..)).trans (sameStrands_logEntry ..), by
    rw [State.stack_logEntry, State.stack_setStack]⟩

theorem Stack.live_of_bavail {y z : Stack} {ch : Nat} {l : BitVec 36} (h : z.bavail = put ch l y.bavail) :
    z.live ch = l ∧ ∀ c, c ≠ ch → z.live c = y.live c := by
  simp only [Stack.live, h, look_put_same]
  exact ⟨rfl, fun c hc => by rw [look_put_other hc]⟩

/-! ### Which tiles are out of service (R436) -/

/-- Whether each tile of a table is out of service. -/
def outIn (l : List (Nat × Tile)) (n : Nat) : Bool := ((look n l).getD Tile.reset).out

theorem State.out_eq_outIn (s : State) (n : Nat) : (s.tile n).out = outIn s.tiles n := rfl

theorem outIn_setTile {s : State} {n : Nat} {x : Tile} (h : x.out = (s.tile n).out) : outIn (s.setTile n x).tiles = outIn s.tiles := by
  funext k
  show ((s.setTile n x).tile k).out = (s.tile k).out
  by_cases hk : k = n
  · subst hk
    rw [State.tile_setTile, h]
  · rw [State.tile_setTile_other hk]
/-- The rule for a change of one tile that leaves it in service or out of it, after what leaves every tile so. -/
theorem outIn_modTile_of {s0 s : State} {n : Nat} {f : Tile → Tile} (hs : outIn s.tiles = outIn s0.tiles) (h : ∀ t, (f t).out = t.out) :
    outIn (s.modTile n f).tiles = outIn s0.tiles := (outIn_setTile (h _)).trans hs
theorem outIn_modTile {s : State} {n : Nat} {f : Tile → Tile} (h : ∀ t, (f t).out = t.out) : outIn (s.modTile n f).tiles = outIn s.tiles :=
  outIn_modTile_of rfl h

/-! #### Operations that change no tile -/

@[simp] theorem State.putStrand_tiles (s : State) (t : Strand) : (s.putStrand t).tiles = s.tiles := by unfold State.putStrand; split <;> rfl
@[simp] theorem State.modStrand_tiles (s : State) (key : Key) (f : Strand → Strand) : (s.modStrand key f).tiles = s.tiles := by
  unfold State.modStrand
  split
  · rfl
  · split <;> simp
@[simp] theorem State.dropStrand_tiles (s : State) (key : Key) : (s.dropStrand key).tiles = s.tiles := rfl
@[simp] theorem State.send_tiles (s : State) (c : Cls) (src dst : Nat) (b : Body) : (s.send c src dst b).tiles = s.tiles := rfl
@[simp] theorem State.logUncorr_tiles (s : State) (source pa store : Nat) (m : MaskV) : (s.logUncorr source pa store m).tiles = s.tiles :=
  State.logEntry_tiles ..
@[simp] theorem State.logDrop_tiles (s : State) (tile : Nat) (a : Word) : (s.logDrop tile a).tiles = s.tiles := State.logEntry_tiles ..
@[simp] theorem State.logNet_tiles (s : State) (source : Nat) (l : List Nat) : (s.logNet source l).tiles = s.tiles := State.logEntry_tiles ..
@[simp] theorem State.logOut_tiles (s : State) (source pa n : Nat) : (s.logOut source pa n).tiles = s.tiles := by
  unfold State.logOut; split <;> simp
@[simp] theorem State.leaveBad_tiles (s : State) (tile store : Nat) (e : CLine) : (s.leaveBad tile store e).1.tiles = s.tiles := by
  unfold State.leaveBad
  split
  · rfl
  · split <;> simp
@[simp] theorem State.homeMerge_tiles (s : State) (source line : Nat) (m : MaskV) (x : Line) : (s.homeMerge source line m x).tiles = s.tiles := by
  unfold State.homeMerge
  extract_lets lost s1
  have h : s1.tiles = s.tiles := by simp only [s1]; split <;> simp
  split <;> simp [h]
@[simp] theorem State.homeStore_tiles (s : State) (source pa n v : Nat) : (s.homeStore source pa n v).tiles = s.tiles := by
  unfold State.homeStore
  extract_lets whole s1 a
  have h : s1.tiles = s.tiles := by simp only [s1]; split <;> rfl
  split <;> simp [h]
@[simp] theorem State.setUsed_tiles (s : State) (pa used : Nat) : (s.setUsed pa used).tiles = s.tiles := State.homeWrite_tiles ..
@[simp] theorem State.uncharge_tiles (s : State) (source : Nat) (asid : BitVec 12) (group : Byte) (n : Nat) :
    (s.uncharge source asid group n).tiles = s.tiles := by
  unfold State.uncharge
  extract_lets pa
  split
  · rfl
  · split <;> simp
@[simp] theorem State.spillTo_tiles (s : State) (tile : Nat) (r : Rec) (i : Nat) : (s.spillTo tile r i).1.tiles = s.tiles := State.homeWrite_tiles ..
@[simp] theorem State.retireColumn_tiles (s : State) (t : Nat) : (s.retireColumn t).tiles = s.tiles := by unfold State.retireColumn; split <;> rfl

/-- Combining at a router moves arrivals of strands and sends messages (R326). -/
@[simp] theorem State.tryComplete_tiles (s : State) (t : Strand) : (s.tryComplete t).tiles = s.tiles := by
  unfold State.tryComplete
  split
  · rfl
  · extract_lets below here r move
    have hmove (stage : Nat) (s : State) (u : Strand) : (move stage s u).tiles = s.tiles := State.modStrand_tiles ..
    split
    · rfl
    · split
      · rfl
      · split
        · exact foldl_keeps State.tiles (hmove 3) _ _
        · refine foldl_keeps State.tiles (fun s u => ?_) _ _
          exact hmove 2 s u
@[simp] theorem State.evalBarriers_tiles (s : State) : s.evalBarriers.tiles = s.tiles :=
  foldl_keeps State.tiles (fun s t => by split <;> simp) _ _

theorem chargeLeaf_tiles {s t : State} {w : Who} {size : Nat} {leaf x : Word} {leafpa : Nat} (h : chargeLeaf s w size leaf leafpa = .ok (x, t)) :
    t.tiles = s.tiles := by
  unfold chargeLeaf at h
  split at h
  · cases h; rfl
  · extract_lets pa leaf' at h
    split at h
    · cases h; rfl
    · split at h
      · cases h
      · split at h
        · cases h
        · split at h
          · cases h
          · obtain ⟨-, rfl⟩ := Prod.mk.inj (Except.ok.inj h)
            simp

/-! #### Translation (R87–R100) -/

@[simp] theorem State.fillTlb_out (s : State) (tile : Nat) (e : Tlb) : outIn (s.fillTlb tile e).tiles = outIn s.tiles := by
  rw [State.fillTlb, State.setLayer_tiles]
  exact outIn_modTile fun _ => rfl
theorem State.cachedLeaf_out {s t : State} {tile : Nat} {asid : BitVec 12} {va : Nat} {e : Tlb} (h : s.cachedLeaf tile asid va = some (e, t)) :
    outIn t.tiles = outIn s.tiles := by
  unfold State.cachedLeaf at h
  extract_lets u at h
  split at h
  · cases h; exact outIn_setTile rfl
  · split at h
    · cases h; exact outIn_setTile rfl
    · split at h <;> cases h
      simp
theorem translate_out {s t : State} {w : Who} {va : Nat} {x : Xl} (h : translate s w va = .ok (x, t)) : outIn t.tiles = outIn s.tiles := by
  unfold translate at h
  extract_lets ans fresh at h
  have hfresh (h : fresh = .ok (x, t)) : outIn t.tiles = outIn s.tiles := by
    simp only [fresh] at h
    split at h
    · cases h
    · split at h
      · cases h
      · split at h
        · cases h
        · split at h
          · cases h
          next hc =>
            cases h
            rw [State.fillTlb_out, chargeLeaf_tiles hc]
  split at h
  next hc =>
    split at h
    · cases h; exact State.cachedLeaf_out hc
    · exact hfresh h
  · exact hfresh h
@[simp] theorem State.denied_out (s : State) (w : Who) (va : Nat) : outIn (s.denied w va).tiles = outIn s.tiles := by
  unfold State.denied
  split
  · split
    · rfl
    · exact State.fillTlb_out ..
  · rfl
theorem agentXl_ok_out {s t : State} {w : Who} {a : Word} {x : Xl} (h : agentXl s w a = .ok (x, t)) : outIn t.tiles = outIn s.tiles := by
  unfold agentXl at h
  split at h
  · cases h
  · split at h
    · cases h
    next hx =>
      split at h <;> cases h
      exact translate_out hx
theorem agentXl_error_out {s t : State} {w : Who} {a : Word} {e : XErr} (h : agentXl s w a = .error (e, t)) : outIn t.tiles = outIn s.tiles := by
  unfold agentXl at h
  split at h
  · cases h; rfl
  · split at h
    · cases h; exact State.denied_out ..
    next hx =>
      split at h <;> cases h
      exact translate_out hx

/-! #### Ports and messages (R323, R329, R421) -/

@[simp] theorem State.countLost_out (s : State) (r : Nat) : outIn (s.countLost r).tiles = outIn s.tiles := outIn_modTile fun _ => rfl
@[simp] theorem State.leavePort_out (s : State) (tile off port : Nat) (hdr : BitVec 128) (data : List Byte) (s1 : State) :
    outIn (s.leavePort tile off port hdr data s1).tiles = outIn s1.tiles := by
  unfold State.leavePort
  split
  · exact State.countLost_out ..
  · rfl
@[simp] theorem State.sendPacket_out (s : State) (key : Key) (port : Nat) (hdr : BitVec 128) (data : List Byte) (va : Word) :
    outIn (s.sendPacket key port hdr data va).tiles = outIn s.tiles := State.leavePort_out ..
@[simp] theorem State.postLine_out (s : State) (key : Key) (tile pkg line : Nat) (m : MaskV) (x : Line) (va : Word) :
    outIn (s.postLine key tile pkg line m x va).tiles = outIn s.tiles := by
  unfold State.postLine
  split
  · rfl
  · exact foldl_keeps (fun s : State => outIn s.tiles) (fun s r => by split <;> simp) _ _
@[simp] theorem State.sendRequest_out (s : State) (key : Key) (src dst : Nat) (op : HomeOp) :
    outIn (s.sendRequest key src dst op).tiles = outIn s.tiles := by
  unfold State.sendRequest
  split
  · rfl
  · exact State.countLost_out ..

/-! #### Waiters on scratchpad words and engines' writes (R104, R138, R218) -/

@[simp] theorem Tile.engineWrite_out (t : Tile) (off n v : Nat) (scopeC : Bool) (more : Nat → Bool) :
    (t.engineWrite off n v scopeC more).out = t.out := by
  unfold Tile.engineWrite
  extract_lets u
  split
  · rfl
  · exact foldl_keeps Tile.out (fun t i => by split <;> rfl) _ _
@[simp] theorem Tile.stashFill_out (t : Tile) (n : Nat) (x : Line) (valid : Bool) : (t.stashFill n x valid).out = t.out := by
  unfold Tile.stashFill
  extract_lets e data kept t1
  split <;> rfl

@[simp] theorem State.serveOne_out (s : State) (tile : Nat) (key : Key) (a : Ans) : outIn (s.serveOne tile key a).tiles = outIn s.tiles := by
  rw [State.serveOne, State.modStrand_tiles]
  exact outIn_modTile fun _ => rfl
@[simp] theorem State.serveN_out (n tile w : Nat) (s : State) : outIn (State.serveN n tile w s).tiles = outIn s.tiles := by
  induction n generalizing s with
  | zero => rfl
  | succ n ih =>
    unfold State.serveN
    extract_lets t off a
    split
    · split
      · rw [ih, State.serveOne_out]
      · rw [ih]
        exact outIn_modTile_of (State.serveOne_out ..) fun _ => rfl
      · rfl
    · split
      · rfl
      · split
        · rw [ih]
          exact outIn_modTile_of (State.serveOne_out ..) fun _ => rfl
        · rfl
@[simp] theorem State.serve_out (s : State) (tile off n : Nat) : outIn (s.serve tile off n).tiles = outIn s.tiles := by
  unfold State.serve
  split
  · rfl
  · exact foldl_keeps (fun s : State => outIn s.tiles) (fun s i => State.serveN_out ..) _ _
@[simp] theorem State.engineWrite_out (s : State) (tile off n v : Nat) (scopeC : Bool) (more : Nat → Bool) :
    outIn (s.engineWrite tile off n v scopeC more).tiles = outIn s.tiles := by
  rw [State.engineWrite, State.serve_out]
  exact outIn_modTile fun _ => Tile.engineWrite_out ..
@[simp] theorem State.putGranule_out (s : State) (tile off n v : Nat) (scopeC : Bool) (hold : List Nat) (i : Nat) :
    outIn (s.putGranule tile off n v scopeC hold i).tiles = outIn s.tiles := by
  rw [State.putGranule]
  exact State.engineWrite_out ..
@[simp] theorem State.putGranules_out (s : State) (tile off n v : Nat) (scopeC : Bool) (hold skip : List Nat) :
    outIn (s.putGranules tile off n v scopeC hold skip).tiles = outIn s.tiles := by
  rw [State.putGranules]
  exact foldl_keeps (fun s : State => outIn s.tiles) (fun s i => by split <;> simp) _ _

/-! #### Requests at a home (R141, R323) -/

theorem State.served_out {s t : State} {src dst : Nat} {op : HomeOp} {a : HomeAns} (h : s.served src dst op = some (a, t)) :
    outIn t.tiles = outIn s.tiles := by
  unfold State.served at h
  split at h
  · cases h
  · split at h
    · cases h; simp
    · cases h; simp
    · cases h; simp
    · split at h
      · cases h; simp
      · cases h
        split <;> simp
    · split at h <;> cases h
      · rfl
      · simp

/-- The state in which a request leaves its strand. -/
def Reach.state : Reach → State
  | .got _ _ s | .failed s | .waits _ s => s

theorem State.ask_out (s : State) (key : Key) (src dst : Nat) (op : HomeOp) : outIn (s.ask key src dst op).state.tiles = outIn s.tiles := by
  unfold State.ask
  split
  · extract_lets s1
    split <;> rfl
  · rfl
  · extract_lets m
    split
    · rfl
    · split
      · exact State.sendRequest_out ..
      · split
        next hs => exact State.served_out hs
        · rfl

/-! ### What a meaning keeps, whatever it ends in -/

/-- The state in which a meaning ends, done or stopped. -/
def endState {α : Type} : EStateM.Result Stop State α → State
  | .ok _ s | .error _ s => s

/-- A meaning keeps a property of the state, whether it is done or stops. -/
structure M.Keeps {α : Type} (P : State → Prop) (m : M α) : Prop where
  keep : ∀ s, P s → P (endState (m s))

section
variable {α β : Type} {P : State → Prop}

theorem M.Keeps.pure (a : α) : M.Keeps P (pure a : M α) := ⟨fun _ h => h⟩
theorem M.Keeps.throw (e : Stop) : M.Keeps P (throw e : M α) := ⟨fun _ h => h⟩
theorem M.Keeps.set {t : State} (h : P t) : M.Keeps P (set t : M Unit) := ⟨fun _ _ => h⟩
theorem M.Keeps.modify {f : State → State} (h : ∀ s, P s → P (f s)) : M.Keeps P (modify f : M Unit) := ⟨h⟩
theorem M.Keeps.bind {m : M α} {f : α → M β} (hm : M.Keeps P m) (hf : ∀ a, M.Keeps P (f a)) : M.Keeps P (m >>= f) := by
  refine ⟨fun s hs => ?_⟩
  have h := hm.keep s hs
  cases hr : m s with
  | ok a t =>
    rw [M.bind_ok hr]
    rw [hr] at h
    exact (hf a).keep t h
  | error e t =>
    rw [M.bind_error hr]
    rw [hr] at h
    exact h
/-- What is read of the state satisfies what is kept. -/
theorem M.Keeps.get_bind {f : State → M β} (hf : ∀ s, P s → M.Keeps P (f s)) : M.Keeps P (get >>= f) :=
  ⟨fun s hs => (hf s hs).keep s hs⟩
theorem M.Keeps.trapIf (b : Bool) (c : Cond) : M.Keeps P (trapIf b c) := by
  cases b
  · exact .pure _
  · exact .throw _
theorem M.Keeps.waitIf (b : Bool) (w : Wait) : M.Keeps P (waitIf b w) := by
  cases b
  · exact .pure _
  · exact .throw _

end

/-! ### Releases take no tile out of service and bring none back (R110, R111) -/

/-- The tiles out of service are those of `o`. -/
def OutIs (o : Nat → Bool) (s : State) : Prop := outIn s.tiles = o

theorem OutIs.of_eq {o : Nat → Bool} {s t : State} (hs : OutIs o s) (h : outIn t.tiles = outIn s.tiles) : OutIs o t := h.trans hs

section
variable (o : Nat → Bool)

theorem keepsOut_modTile (tile : Nat) {f : Tile → Tile} (h : ∀ t, (f t).out = t.out) :
    M.Keeps (OutIs o) (modify fun s => s.modTile tile f : M Unit) := .modify fun _ hs => hs.of_eq (outIn_modTile h)

theorem keepsOut_xlate (w : Who) (a : Word) : M.Keeps (OutIs o) (xlate w a) := by
  refine .get_bind fun s hs => ?_
  extract_lets s1
  refine .bind (.set hs) fun _ => ?_
  split
  next h => exact .bind (.set (OutIs.of_eq (s := s1) hs (translate_out h))) fun _ => .pure _
  · exact .bind (.set (OutIs.of_eq (s := s1) hs (State.denied_out ..))) fun _ => .throw _

theorem keepsOut_asked (op : HomeOp) : M.Keeps (OutIs o) (asked op) := by
  refine .get_bind fun s hs => ?_
  have h := State.ask_out s s.me.key s.here 1024 op
  split
  next e => rw [e] at h; exact .bind (.set (hs.of_eq h)) fun _ => .pure _
  next e => rw [e] at h; exact .bind (.set (hs.of_eq h)) fun _ => .pure _
  next e => rw [e] at h; exact .bind (.set (hs.of_eq h)) fun _ => .throw _

theorem keepsOut_lineHomeNow (tile : Nat) (e : CLine) (store : Nat) : M.Keeps (OutIs o) (lineHomeNow tile e store) := by
  refine .get_bind fun s hs => ?_
  have hbad : OutIs o (s.leaveBad tile store e).1 := hs.of_eq (State.leaveBad_tiles s tile store e ▸ rfl)
  generalize s.leaveBad tile store e = r at hbad ⊢
  obtain ⟨s1, m⟩ := r
  split
  · split
    · refine .bind (.trapIf _ _) fun _ => ?_
      split
      · exact .bind (.set hbad) fun _ => .pure _
      · exact .bind (.waitIf _ _) fun _ => .bind (.set (hbad.of_eq (State.postLine_out ..))) fun _ => .throw _
    · refine .bind (.waitIf _ _) fun _ => .bind (.set hs) fun _ => ?_
      split
      · exact .throw _
      · exact .pure _
  · dsimp only
    split
    · exact .bind (.set hbad) fun _ => .pure _
    · refine .bind (keepsOut_asked ..) fun a => ?_
      split
      · exact .bind (.modify fun t ht => ht.of_eq (State.leaveBad_tiles t tile store e ▸ rfl)) fun _ => .pure _
      · exact .get_bind fun _ _ => .throw _

theorem keepsOut_remote (w : Who) (a : Word) (type pa n op sc sem : Nat) (data : List Byte) (posted : Bool) :
    M.Keeps (OutIs o) (remote w a type pa n op sc sem data posted) := by
  refine .get_bind fun s hs => ?_
  extract_lets pkg off match_
  split
  · exact .throw _
  · split
    · split
      · exact .throw _
      · refine .bind (.set hs) fun _ => ?_
        extract_lets bad
        split
        · exact .throw _
        · exact .pure _
    · split
      · exact .throw _
      · refine .bind (.set (hs.of_eq (State.sendPacket_out ..))) fun _ => ?_
        split
        · exact .pure _
        · exact .throw _

theorem keepsOut_homeGet (pa n : Nat) : M.Keeps (OutIs o) (homeGet pa n) := by
  refine .bind (keepsOut_asked ..) fun a => ?_
  split <;> exact .pure _

theorem keepsOut_anyLine (w : Who) (a : Word) (line : Nat) : M.Keeps (OutIs o) (anyLine w a line) := by
  refine .get_bind fun s _ => ?_
  split
  · exact .bind (keepsOut_remote ..) fun _ => .bind (keepsOut_remote ..) fun _ => .pure _
  · exact .bind (keepsOut_homeGet ..) fun _ => .pure _

theorem keepsOut_stashLineOut (w : Who) (m : Stash) (n : Nat) (fill : Bool) : M.Keeps (OutIs o) (stashLineOut w m n fill) := by
  refine .get_bind fun s _ => ?_
  split
  · exact .pure _
  · extract_lets va
    refine .bind (keepsOut_xlate ..) fun x => .get_bind fun s1 _ => .bind (.trapIf _ _) fun _ => .bind (.trapIf _ _) fun _ => ?_
    extract_lets jp
    have hjp (u : Unit) : M.Keeps (OutIs o) (jp u) :=
      .get_bind fun _ _ => .bind (keepsOut_lineHomeNow ..) fun _ => .bind (keepsOut_modTile _ _ fun _ => rfl) fun _ => .waitIf _ _
    split
    · refine .bind (keepsOut_anyLine ..) fun r => ?_
      dsimp only
      split
      · exact .bind (keepsOut_modTile _ _ fun t => Tile.stashFill_out ..) hjp
      · exact hjp ()
    · exact hjp ()

theorem keepsOut_stashLinesOut (w : Who) (m : Stash) (fill : Bool) (l : List Nat) : M.Keeps (OutIs o) (stashLinesOut w m fill l) := by
  induction l with
  | nil => exact .pure _
  | cons n l ih => exact .bind (keepsOut_stashLineOut ..) fun _ => ih

theorem keepsOut_stashesOut (w : Who) (l : List Stash) : M.Keeps (OutIs o) (stashesOut w l) := by
  induction l with
  | nil => exact .pure _
  | cons m l ih => exact .bind (.get_bind fun _ _ => keepsOut_stashLinesOut ..) fun _ => ih

theorem keepsOut_l1LinesOut (tile : Nat) (l : List CLine) : M.Keeps (OutIs o) (l1LinesOut tile l) := by
  induction l with
  | nil => exact .pure _
  | cons e l ih =>
    exact .bind (keepsOut_lineHomeNow ..) fun _ => .bind (keepsOut_modTile _ _ fun _ => rfl) fun _ => .bind (.waitIf _ _) fun _ => ih

theorem keepsOut_release (sc : Scope) : M.Keeps (OutIs o) (release sc) := by
  unfold release
  split
  · exact .pure _
  · refine .get_bind fun s _ => .bind (keepsOut_stashesOut ..) fun _ => .get_bind fun s1 _ => .bind (keepsOut_l1LinesOut ..) fun _ =>
      .get_bind fun s2 h2 => .bind (.waitIf _ _) fun _ => ?_
    extract_lets ours mine done jp
    have hjp (u : Unit) : M.Keeps (OutIs o) (jp u) := by
      refine .bind (.waitIf _ _) fun _ => .bind (.set h2) fun _ => ?_
      split
      · exact .throw _
      · exact .pure _
    split
    · exact .bind (.set h2) fun _ => .bind (.throw _) hjp
    · exact hjp ()

end

/-! ### The end of a killed strand takes no tile out of service and brings none back (R369) -/

theorem State.onBehalf_out {α : Type} {m : M α} (hm : ∀ o, M.Keeps (OutIs o) m) (s : State) (t : Strand) :
    outIn (endState (s.onBehalf t m)).tiles = outIn s.tiles := by
  unfold State.onBehalf
  extract_lets back
  have h := (hm (outIn s.tiles)).keep { s with me := { t with parts := [], begun := false, pieces := [] }, view := none, part := none } rfl
  split
  next e => rw [e] at h; exact h
  next e => rw [e] at h; exact h

theorem State.sendDecrement_out {s t : State} {tile : Nat} {asid : BitVec 12} {supv : Bool} {cell : Word}
    (h : s.sendDecrement tile asid supv cell = some t) : outIn t.tiles = outIn s.tiles := by
  unfold State.sendDecrement at h
  split at h
  · cases h; rfl
  · split at h
    · cases h
    next e => cases h; rw [State.logDrop_tiles, agentXl_error_out e]
    next e =>
      split at h <;> cases h
      · rw [State.logDrop_tiles, agentXl_ok_out e]
      · rw [State.send_tiles, agentXl_ok_out e]

@[simp] theorem State.dropFrame_out (s : State) (t : Strand) : outIn (s.dropFrame t).tiles = outIn s.tiles := by
  unfold State.dropFrame
  split
  next e => exact agentXl_error_out e
  next e => exact outIn_modTile_of (agentXl_ok_out e) fun _ => rfl

theorem State.pushFrame_ok_out {s t : State} {tile : Nat} {asid : BitVec 12} {supv : Bool} {pool frame : Word}
    (h : s.pushFrame tile asid supv pool frame = .ok t) : outIn t.tiles = outIn s.tiles := by
  unfold State.pushFrame at h
  split at h
  · cases h
  next hp =>
    split at h
    · cases h
    next hf =>
      split at h
      · cases h
      · split at h <;> cases h
        simp [agentXl_ok_out hf, agentXl_ok_out hp]
theorem State.pushFrame_error_out {s t : State} {tile : Nat} {asid : BitVec 12} {supv : Bool} {pool frame : Word} {e : XErr}
    (h : s.pushFrame tile asid supv pool frame = .error (e, t)) : outIn t.tiles = outIn s.tiles := by
  unfold State.pushFrame at h
  split at h
  next hp => cases h; exact agentXl_error_out hp
  next hp =>
    split at h
    next hf => cases h; rw [agentXl_error_out hf, agentXl_ok_out hp]
    next hf =>
      have ht := (agentXl_ok_out hf).trans (agentXl_ok_out hp)
      split at h
      · cases h; exact ht
      · split at h <;> cases h
        exact ht

theorem State.poolBack_out {s u : State} {t : Strand} {pool : Word} (h : s.poolBack t pool = some u) : outIn u.tiles = outIn s.tiles := by
  unfold State.poolBack at h
  extract_lets tile entry s1 at h
  have h1 : outIn s1.tiles = outIn s.tiles := by simp [s1]
  split at h
  · cases h
  · split at h
    next e => cases h; rw [State.pushFrame_ok_out e, h1]
    · cases h
    next e => cases h; rw [State.logDrop_tiles, State.pushFrame_error_out e, h1]

@[simp] theorem State.freeAccs_out (s : State) (tile : Nat) (key : Key) : outIn (s.freeAccs tile key).tiles = outIn s.tiles :=
  outIn_modTile fun _ => rfl
@[simp] theorem State.forget_out (s : State) (tile : Nat) (key : Key) : outIn (s.forget tile key).tiles = outIn s.tiles := by
  unfold State.forget
  extract_lets s1
  rw [State.dropStrand_tiles]
  exact outIn_modTile_of (s := s1) rfl fun _ => rfl

@[simp] theorem State.endKilled_out (s : State) (t : Strand) : outIn (s.endKilled t).1.tiles = outIn s.tiles := by
  unfold State.endKilled
  extract_lets tile released
  have hr : outIn released.1.tiles = outIn s.tiles := by
    have h := State.onBehalf_out (fun o => keepsOut_release o .c) s t
    simp only [released]
    split
    next e => rw [e] at h; exact h
    next e => rw [e] at h; exact h
    next e => rw [e] at h; exact h
  split
  · exact hr
  · split
    · exact hr
    next s1 h1 =>
      split
      · exact hr
      next s3 h3 =>
        have h31 : outIn s3.tiles = outIn s1.tiles := by
          cases hp : t.pool with
          | none => rw [hp] at h3; cases h3; rfl
          | some pool => rw [hp] at h3; exact State.poolBack_out h3
        rw [State.forget_out, State.freeAccs_out, h31, State.sendDecrement_out h1, hr]

@[simp] theorem State.endOut_out (s : State) (t : Strand) : outIn (s.endOut t).tiles = outIn s.tiles := by
  unfold State.endOut
  have h := State.endKilled_out s t
  dsimp only
  split
  · exact h
  · rw [State.modStrand_tiles, h]

/-! ### Records that leave a tile out of service (R436) -/

@[simp] theorem State.sendItem_out (s : State) (tile kind : Nat) (r : RecInfo) : outIn (s.sendItem tile kind r).1.tiles = outIn s.tiles := by
  rw [State.sendItem, State.send_tiles]
  exact outIn_modTile fun _ => rfl
@[simp] theorem State.spillFault_out (s : State) (tile : Nat) (r : Rec) (pa code : Nat) : outIn (s.spillFault tile r pa code).tiles = outIn s.tiles := by
  rw [State.spillFault, State.spillItem]
  exact outIn_modTile_of ((State.sendItem_out ..).trans (outIn_modTile fun _ => rfl)) fun _ => rfl
@[simp] theorem State.evacuate_out (s : State) (tile : Nat) : outIn (s.evacuate tile).tiles = outIn s.tiles := by
  unfold State.evacuate
  refine foldl_keeps (fun s : State => outIn s.tiles) (fun s r => ?_) _ _
  extract_lets t
  split
  · rfl
  next i _ =>
    extract_lets pa
    split
    · exact State.spillFault_out ..
    · split
      · rfl
      · have hp := State.spillTo_tiles s tile { r with hold := 5 } i
        generalize s.spillTo tile { r with hold := 5 } i = p at hp ⊢
        obtain ⟨s1, q⟩ := p
        dsimp only at hp ⊢
        exact outIn_modTile_of ((State.sendItem_out ..).trans (congrArg outIn hp)) fun _ => rfl
@[simp] theorem State.moveRecords_out (s : State) (tile : Nat) : outIn (s.moveRecords tile).tiles = outIn s.tiles := by
  unfold State.moveRecords
  split
  · rfl
  · extract_lets dst queue s1
    rw [foldl_keeps State.tiles fun s w => State.send_tiles ..]
    exact outIn_modTile_of (s := s1) rfl fun _ => rfl

/-- What a tile does as it leaves service leaves it out of service. -/
theorem State.takeOut_out (s : State) (n : Nat) : ((s.takeOut n).tile n).out = true := by
  unfold State.takeOut
  split
  next h => exact h
  · extract_lets s1 s2
    have h1 : outIn s1.tiles n = true := by
      show (s1.tile n).out = true
      simp [s1]
    have h2 : outIn s2.tiles = outIn s1.tiles := by
      rw [State.evalBarriers_tiles]
      exact foldl_keeps (fun s : State => outIn s.tiles) State.endOut_out _ _
    rw [State.out_eq_outIn, State.logNet_tiles, State.retireColumn_tiles, State.moveRecords_out, State.evacuate_out, h2, h1]

theorem completes_tileOutOfService (s : State) (tile : BitVec 10) : Completes (.tileOutOfService tile) s (s.takeOut tile.toNat) := rfl

/-! ### The statement -/

/-- Settles O56: an event of heat or of failure, clause by clause. -/
theorem heatAndFailures : Obligations.HeatAndFailures := by
  refine ⟨fun s z allow temp => ?_, fun s temp => ⟨completes_soleThreshold_trip s, completes_soleThreshold s⟩,
    fun s temp => ⟨fun h => ⟨_, completes_inletThreshold_log s h⟩, completes_inletThreshold s⟩,
    fun s z => ⟨completes_layerThreshold_trip, fun h => ?_⟩, fun s z mhz h1 h2 => ⟨completes_requestedPointChange s z h1 h2, fun y h0 h95 h105 => ?_⟩,
    fun s st temp => ?_, fun s st ch bank => ?_, fun s tile _ => ⟨_, completes_tileOutOfService s tile, State.takeOut_out ..⟩⟩
  · obtain ⟨t, ht, hs, hy⟩ := completes_tallowRefresh s z allow temp
    obtain ⟨ha, htemp⟩ := (s.layer z.val).refreshed_allow_temp allow temp
    refine ⟨t, ht, hs, ?_⟩
    rw [hy, Layer.setClock_allow, Layer.setClock_temp, Layer.setClock_lowered, ha, htemp]
    refine ⟨capAllow_toNat allow, rfl, fun h0 => ?_, Layer.refreshed_lowered_of_high temp, Layer.refreshed_lowered_of_mid temp⟩
    subst h0
    exact Layer.refreshed_lowered_of_zero temp
  · refine ⟨_, completes_layerThreshold h, sameStrands_limitLayer .., ?_⟩
    rw [State.layer_limitLayer]
    exact ⟨Layer.limited_clk_of_105, Layer.limited_clk_of_95, Layer.clk_setClock_ge _⟩
  · exact Layer.setClock_clk_of_free (y := { y with req := mhz }) h0 h95 h105 h1
  · obtain ⟨t, ht, hs, hf⟩ := completes_refreshRateChange s st temp
    refine ⟨t, ht, hs, ?_⟩
    rw [hf]
    unfold fastAt
    refine ⟨fun h => if_pos h, fun h => ?_, fun h1 h2 => ?_⟩
    · rw [if_neg (by omega), if_pos h]
    · rw [if_neg (by omega), if_neg (by omega)]
  · intro live hw hl hn hc
    obtain ⟨t, ht, hs, hb⟩ := completes_bankRetirement hw hl hn hc
    exact ⟨t, ht, hs, Stack.live_of_bavail hb⟩

end Sys2Proof.Machine
end

section
/-!
SUPPORT and the proof of the register rules (R27, R31): what a register reads after a write of the strand being stepped.
-/

namespace Sys2Proof.Machine

/-- With no pair in progress, reads see the strand itself. -/
theorem State.src_eq_me {s : State} (h : s.view = none) : s.src = s.me := by simp [State.src, h]

theorem State.g_setG {s : State} (h : s.view = none) (d r : GReg) (x : Word) :
    (s.setG d x).g r = if r.val = 0 then 0 else if r = d then x else s.g r := by
  by_cases hr : r.val = 0
  · rw [State.g_zero hr, if_pos hr]
  · have hsrc : (s.setG d x).src = s.me.setG d x := State.src_eq_me (s := s.setG d x) h
    rw [if_neg hr]
    simp only [State.g, hr, if_false, hsrc, State.src_eq_me h]
    by_cases hd : d.val = 0
    · have hne : r ≠ d := fun e => hr (e ▸ hd)
      simp only [Strand.setG, hd, if_true, hne, if_false]
    · simp only [Strand.setG_g hd, Fin.getElem_fin, Vector.getElem_set, Fin.ext_iff, eq_comm (a := d.val)]

theorem State.m_setM {s : State} (h : s.view = none) (d r : MReg) (x : MaskV) :
    (s.setM d x).m r = if r.val = 0 then BitVec.allOnes 128 else if r = d then x else s.m r := by
  by_cases hr : r.val = 0
  · rw [State.m_zero hr, if_pos hr]
  · have hsrc : (s.setM d x).src = s.me.setM d x := State.src_eq_me (s := s.setM d x) h
    rw [if_neg hr]
    simp only [State.m, hr, if_false, hsrc, State.src_eq_me h, Strand.setM]
    by_cases hd : d.val = 0
    · have hne : r ≠ d := fun e => hr (e ▸ hd)
      simp only [hd, if_true, hne, if_false]
    · simp only [hd, if_false, Fin.getElem_fin, Vector.getElem_set, Fin.ext_iff, eq_comm (a := d.val)]

theorem State.v_setV {s : State} (h : s.view = none) (d r : VReg) (x : Line) (t : Tag) :
    (s.setV d x t).v r = if r = d then x else s.v r := by
  have hsrc : (s.setV d x t).src = s.me.setV d x t := State.src_eq_me (s := s.setV d x t) h
  simp only [State.v, hsrc, State.src_eq_me h, Strand.setV_v, Fin.getElem_fin, Vector.getElem_set, Fin.ext_iff, eq_comm (a := d.val)]

theorem State.tag_setV {s : State} (h : s.view = none) (d r : VReg) (x : Line) (t : Tag) :
    (s.setV d x t).tag r = if r = d then t else s.tag r := by
  have hsrc : (s.setV d x t).src = s.me.setV d x t := State.src_eq_me (s := s.setV d x t) h
  simp only [State.tag, hsrc, State.src_eq_me h, Strand.setV_vtag, Fin.getElem_fin, Vector.getElem_set, Fin.ext_iff, eq_comm (a := d.val)]

/-- Settles O7: g0, m0 and the register just written apart, a register reads what it read before. -/
theorem registerWritesRead : Obligations.RegisterWritesRead :=
  ⟨fun _ d r x h => State.g_setG h d r x, fun _ d r x h => State.m_setM h d r x,
    fun _ d r x t h => ⟨State.v_setV h d r x t, State.tag_setV h d r x t⟩, fun _ _ x hd => State.setG_zero hd x⟩

end Sys2Proof.Machine
end

section
/-!
SUPPORT and the proof of the loads (R59, R210–R215, R222): a load whose checks pass and whose bytes are good writes them, a packed array
lane by lane.
-/

namespace Sys2Proof.Machine

/-! ### Checks that pass and bytes that are good (R210, R370) -/

/-- An address that passes its checks is a multiple of the alignment asked for, and passes them with a weaker one too. -/
theorem check_ok_align {w : Who} {a : Word} {n align : Nat} {s t : State} {l : List Piece} (h : check w a n align s = .ok l t) :
    a.toNat % align = 0 ∧ check w a n 1 s = .ok l t := by
  unfold check at h ⊢
  obtain ⟨_, s1, hcanon, h⟩ := M.bind_ok_inv h
  obtain ⟨_, s2, halign, h⟩ := M.bind_ok_inv h
  have ha : a.toNat % align = 0 := by
    refine Decidable.byContradiction fun hne => ?_
    rw [show (a.toNat % align != 0) = true by simpa using hne, trapIf_true] at halign
    cases halign
  rw [show (a.toNat % align != 0) = false by simpa using ha, trapIf_false] at halign
  cases halign
  refine ⟨ha, ?_⟩
  rw [M.bind_ok hcanon, M.bind_ok (t := s1) (a := ()) (by rw [Nat.mod_one]; rfl)]
  exact h

theorem orLater_ok {α : Type} {m : M α} {s t : State} {a : α} (h : m s = .ok a t) : orLater m s = .ok (some a) t := by
  simp only [orLater, tryCatch, tryCatchThe, MonadExceptOf.tryCatch, EStateM.tryCatch, bind, EStateM.bind, h]
  rfl

/-- A load writes the bytes that it can read. -/
theorem loadInto_ok {s s1 s2 : State} {a : Word} {n align x : Nat} {l : List Piece} {put : Nat → State → State}
    (hc : check s.whoLoad a n align s = .ok l s1) (hl : memLoad s1.whoLoad l s1 = .ok { val := x, bad := false } s2) :
    loadInto a n align put s = .ok () (put x s2) := by
  unfold loadInto
  rw [M.bind_ok (M.get_apply s), M.bind_ok (orLater_ok hc)]
  dsimp only
  rw [M.bind_ok (M.get_apply s1), M.bind_ok hl]
  rfl

theorem loadInto_of_loads {s s1 : State} {a : Word} {n align x : Nat} (put : Nat → State → State) (h : Loads s s1 a n align x) :
    loadInto a n align put s = .ok () (put x s1) := by
  obtain ⟨l, s', hc, hl⟩ := h
  exact loadInto_ok hc hl

theorem Loads.unaligned {s s1 : State} {a : Word} {n align x : Nat} (h : Loads s s1 a n align x) : Loads s s1 a n 1 x := by
  obtain ⟨l, s', hc, hl⟩ := h
  exact ⟨l, s', (check_ok_align hc).2, hl⟩

/-! ### Packed arrays (R77, R215) -/

theorem unpackN_eq_map (w n x : Nat) : unpackN w n x = (List.range n).map fun i => x / 2 ^ (i * w) % 2 ^ w := by
  induction n generalizing x with
  | zero => rfl
  | succ n ih =>
    rw [unpackN, ih, List.range_succ_eq_map, List.map_cons, List.map_map, Nat.zero_mul, Nat.pow_zero, Nat.div_one]
    refine congrArg _ (List.map_congr_left fun i _ => ?_)
    rw [Function.comp_apply, Nat.succ_mul, Nat.add_comm, Nat.pow_add, Nat.div_div_eq_div_mul]

/-- The lanes of an array that begins `sh` bits into its first byte. -/
theorem packedLanes_shift (tag : Tag) (x sh : Nat) :
    packedLanes tag (x / 2 ^ sh) = ofLanes (Tag.width tag) ((List.range (Tag.lanes tag)).map fun n =>
      cleanLane tag (x / 2 ^ (sh + n * Tag.memWidth tag) % 2 ^ Tag.memWidth tag)) := by
  rw [packedLanes, unpackN_eq_map, List.map_map]
  refine congrArg _ (List.map_congr_left fun n _ => ?_)
  rw [Function.comp_apply, Nat.div_div_eq_div_mul, ← Nat.pow_add]

theorem bitAlign_ok {a : Word} {tag : Tag} (h : packedAligned a tag) (s : State) : bitAlign a (Tag.memWidth tag) s = .ok () s := by
  obtain ⟨hsmall, hlarge⟩ := h
  unfold bitAlign
  rw [M.bind_ok (t := s) (a := ()) (by
    rw [show ((Tag.memWidth tag == 2 || Tag.memWidth tag == 4) && a.toNat % Tag.memWidth tag != 0) = false by simpa using hsmall]; rfl)]
  rw [show (decide (8 ≤ Tag.memWidth tag) && a.toNat % 8 != 0) = false by simpa using hlarge]
  rfl

/-! ### The statement -/

theorem completes_of_run {i : Instr} {m : M Unit} {s t : State} (he : exec i s = run m s) (h : m s = .ok () t) : Completes i s t :=
  he.trans (run_ok h)

theorem completes_plainLoad {i : Instr} {s s1 : State} {a : Word} {n x : Nat} {put : Nat → State → State} (hi : plainLoad i s = some (a, n, put))
    (hp : ∀ d b t la, i = .vldp d b t la → packedAligned (s.g b) t) (h : Loads s s1 a n 1 x) : Completes i s (put x s1) := by
  cases i <;> simp only [plainLoad, Option.some.injEq, Prod.mk.injEq, reduceCtorEq] at hi
  case ld =>
    obtain ⟨rfl, rfl, rfl⟩ := hi
    exact completes_of_run rfl (loadInto_of_loads _ h)
  case vld =>
    obtain ⟨rfl, rfl, rfl⟩ := hi
    exact completes_of_run rfl (loadInto_of_loads _ h)
  case vldp d b tag la =>
    obtain ⟨rfl, rfl, rfl⟩ := hi
    refine completes_of_run rfl ?_
    dsimp only
    rw [M.bind_ok (bitAlign_ok (hp _ _ _ _ rfl) s), loadInto_of_loads _ h, packedLanes_shift]

theorem completes_ldAcq {s s' s1 : State} {d a : GReg} {ty : LdTy} {sc : Scope} {l : List Piece} {x : Nat}
    (hc : check s.whoLoad (s.g a) (ldBytes ty) (ldBytes ty) s = .ok l s')
    (h : Loads (s'.acquire sc) s1 (s.g a) (ldBytes ty) (ldBytes ty) x) :
    Completes (.ldAcq d a ty sc) s ((if s1.sawCount (s.g a) (ldBytes ty) x then s1.acquire .c else s1).setG d (ldExtend ty x)) := by
  obtain ⟨halign, hc1⟩ := check_ok_align hc
  refine completes_of_run rfl ?_
  rw [M.bind_ok (t := s) (a := ()) (by rw [halign]; rfl), M.bind_ok (orLater_ok hc1)]
  dsimp only
  rw [M.bind_ok (M.modify_apply _ s')]
  exact loadInto_of_loads _ h.unaligned

/-- Settles O25, by the form of the load: its checks pass, its bytes are read, and its destination is written. -/
theorem loadsComplete : Obligations.LoadsComplete :=
  ⟨fun _ _ _ _ _ _ _ hi hp h => completes_plainLoad hi hp h, fun _ _ _ _ _ _ _ _ _ hc h => completes_ldAcq hc h⟩

end Sys2Proof.Machine
end

section
/-!
SUPPORT and the proof of the messages that are performed (R49, R50, R55–R59, R225, R323, R424): what an arrival does once, what a home and a
requester make of it, and what an answer does as it returns.
-/

namespace Sys2Proof.Machine

/-! ### A message arrives (R323, R424) -/

/-- A message that arrives in its turn is performed once, with the effect and the answer of its receiver. -/
theorem State.arrive_performed {s s' : State} {i : Nat} {m : Msg} {want : Body → Bool} {perform : Msg → Option (Ans × State)} {a : Ans}
    (h : Arrives s i m) (hw : want m.body = true) (hp : perform m = some (a, s')) : s.arrive i want perform = performed s s' i a := by
  obtain ⟨hm, hst, hlost, hwin, hord⟩ := h
  simp only [State.arrive, hm, hw, hwin, hst, hlost, hord, hp, performed, Bool.not_true, Bool.or_self, Bool.false_eq_true, if_false, if_true]

section
variable {s : State} {i : Nat} {m : Msg}

/-! ### Requests at a home (R56, R58, R225) -/

theorem State.reduceAt_good {pa op : Nat} {wide : Bool} {v : Word} (h : s.badIn pa (if wide then 8 else 4) = false) :
    s.reduceAt pa op wide v =
      s.homeWrite pa (if wide then 8 else 4) (rednOp op wide (s.homeRead pa (if wide then 8 else 4)) v.toNat) := by
  simp only [State.reduceAt, h, Bool.false_eq_true, if_false]

theorem completes_redn {key : Key} {pa op : Nat} {wide : Bool} {v : Word} (h : Arrives s i m) (hb : m.body = .redn key pa op wide v)
    (hheld : s.heldAtHome pa = false) (hgood : s.badIn pa (if wide then 8 else 4) = false) :
    Completes (.req i) s (performed s
      (s.homeWrite pa (if wide then 8 else 4) (rednOp op wide (s.homeRead pa (if wide then 8 else 4)) v.toNat)) i .accepted) := by
  show execReq i s = done _
  refine congrArg done (State.arrive_performed h (by simp only [hb]) ?_)
  simp only [hb, hheld, State.reduceAt_good hgood, Bool.false_eq_true, if_false]

theorem completes_access {s1 : State} {key : Key} {op : HomeOp} {x : HomeAns} (h : Arrives s i m) (hb : m.body = .access key op none)
    (hs : s.served m.src m.dst op = some (x, s1)) : Completes (.req i) s (performed s s1 i (.home x)) := by
  show execReq i s = done _
  refine congrArg done (State.arrive_performed h (by simp only [hb]) ?_)
  simp only [hb, hs, Option.map_some]

/-- The home of a counter cell after a decrement to `c`: the COUNT is written, and remembered for R59. -/
def State.countedTo (s : State) (pa : Nat) (c : Word) : State :=
  let s0 := s.homeWrite pa 8 c.toNat
  if s0.counts.contains (pa, c) then s0 else { s0 with counts := s0.counts ++ [(pa, c)] }

theorem State.decrementAt_good {tile pa : Nat} {cell : Word} (h : s.badIn pa 64 = false) :
    s.decrementAt tile pa cell =
      let s1 := s.countedTo pa (BitVec.ofNat 64 (s.homeRead pa 8) - 1)
      if s.homeRead pa 8 % 2 ^ 64 = 1 then s1.releaseWaiters pa 7 1 else s1 := by
  have hone : BitVec.ofNat 64 (s.homeRead pa 8) = 1 ↔ s.homeRead pa 8 % 2 ^ 64 = 1 := by
    rw [BitVec.toNat_eq, BitVec.toNat_ofNat]
    rfl
  simp only [State.decrementAt, State.countedTo, h, hone, Bool.false_eq_true, if_false]

theorem completes_decrement {asid : BitVec 12} {pa : Nat} {cell : Word} (h : Arrives s i m) (hb : m.body = .decrement asid pa cell)
    (hheld : s.heldAtHome pa = false) (hgood : s.badIn pa 64 = false) :
    let s1 := s.countedTo pa (BitVec.ofNat 64 (s.homeRead pa 8) - 1)
    Completes (.counterDecrement i) s
      (performed s (if s.homeRead pa 8 % 2 ^ 64 = 1 then s1.releaseWaiters pa 7 1 else s1) i .accepted) := by
  show execCounterDecrement i s = done _
  refine congrArg done (State.arrive_performed h (by simp only [hb]) ?_)
  simp only [hb, hheld, State.decrementAt_good hgood, Bool.false_eq_true, if_false]

/-- A deferral is answered as its counter's home finds the cell. -/
theorem completes_waiter {who : Spawner} {pa e : Nat} (h : Arrives s i m) (hb : m.body = .waiter who pa e) (hheld : s.heldAtHome pa = false) :
    Completes (.counterWaiter i) s (performed s (s.deferAt m.src e pa).2 i (s.deferAt m.src e pa).1) := by
  show execCounterWaiter i s = done _
  refine congrArg done (State.arrive_performed h (by simp only [hb]) ?_)
  simp only [hb, hheld, Bool.false_eq_true, if_false]

section
variable {tile e pa : Nat} (hgood : s.badIn pa 64 = false)
include hgood

theorem State.deferAt_placeNow (hc : (BitVec.ofNat 64 (s.homeRead pa 8)).toInt ≤ 0) : s.deferAt tile e pa = (.placeNow e, s) := by
  simp only [State.deferAt, hgood, hc, Bool.false_eq_true, if_false, if_true]

theorem State.deferAt_full (hc : 0 < (BitVec.ofNat 64 (s.homeRead pa 8)).toInt) (hfull : ∀ j < 7, s.homeRead (pa + 8 * (j + 1)) 8 ≠ 0) :
    s.deferAt tile e pa = (.full e, s) := by
  have hnone : ((List.range 7).find? fun j => s.homeRead (pa + 8 * (j + 1)) 8 = 0) = none := by
    simpa [List.find?_eq_none] using hfull
  simp only [State.deferAt, hgood, Int.not_le.mpr hc, hnone, Bool.false_eq_true, if_false]

theorem State.deferAt_slot {j : Nat} (hc : 0 < (BitVec.ofNat 64 (s.homeRead pa 8)).toInt) (hj : j < 7)
    (hfree : s.homeRead (pa + 8 * (j + 1)) 8 = 0) (hbelow : ∀ l < j, s.homeRead (pa + 8 * (l + 1)) 8 ≠ 0) :
    s.deferAt tile e pa = (.accepted, s.homeWrite (pa + 8 * (j + 1)) 8 (tile * 2 ^ 54 + e + 1)) := by
  have hsome : ((List.range 7).find? fun j => s.homeRead (pa + 8 * (j + 1)) 8 = 0) = some j := by
    simpa [List.find?_range_eq_some, hj, hfree] using hbelow
  simp only [State.deferAt, hgood, Int.not_le.mpr hc, hsome, Bool.false_eq_true, if_false]

end

/-! ### Records that arrive (R49, R50, R55, R58) -/

theorem State.holdRelease_of_readable {e : Nat} (hm : s.msgs[i]? = some m) (hb : m.body = .release e)
    (ha : s.areaFault ((s.tile m.dst).dfrBase + 128 * e) = none) : s.holdRelease i = s := by
  simp only [State.holdRelease, hm, hb, ha, ite_self]

theorem completes_release {s2 : State} {e : Nat} (h : Arrives s i m) (hb : m.body = .release e) (hheld : s.isHeld m.dst m = false)
    (ha : s.areaFault ((s.tile m.dst).dfrBase + 128 * e) = none) (hbar : s.barred m.dst ((s.tile m.dst).dfrBase + 128 * e) = false)
    (hres : s.resident (recOfEntry (s.homeRead ((s.tile m.dst).dfrBase + 128 * e) 128)).asid = true)
    (hp : (s.freeDeferral m.dst e).placeReleased m.dst (recOfEntry (s.homeRead ((s.tile m.dst).dfrBase + 128 * e) 128)) = some s2) :
    Completes (.deferredRelease i) s (performed s s2 i .accepted) := by
  show execDeferredRelease i s = done _
  unfold execDeferredRelease
  rw [State.holdRelease_of_readable h.1 hb ha]
  refine congrArg done (State.arrive_performed h (by simp only [hb]) ?_)
  simp only [hb, hheld, ha, hbar, hres, hp, Option.isSome_none, Bool.or_self, Bool.false_eq_true, if_false, if_true, Option.map_some]

section
variable {r : Rec} {climb : Bool} {cmd : Option CmdRef}

/-- A record that goes no further joins its tile's deque; a stolen one is dispatched at once. -/
theorem completes_enq_here (h : Arrives s i m) (hb : m.body = .enq r climb cmd) (hhere : climb = false ∨ s.lightest m.dst = m.dst)
    (hroom : s.canTake m.dst r = true) :
    let s1 := s.storedFor (s.deposit m.dst r) m.dst r cmd
    Completes (.enq i) s (performed s (if cmd.isNone && r.mode = 3 then s1.dispatchStolen m.dst r else s1) i .accepted) := by
  have hdst : (if climb then s.lightest m.dst else m.dst) = m.dst := by
    rcases hhere with hc | hl
    · rw [hc]; rfl
    · rw [hl, ite_self]
  show execEnq i s = done _
  refine congrArg done (State.arrive_performed h (by simp only [hb]) ?_)
  simp only [hb, hdst, hroom, if_true]

/-- A record goes up the column to the tile with the lowest figure. -/
theorem completes_enq_climb (h : Arrives s i m) (hb : m.body = .enq r true cmd) (hup : s.lightest m.dst ≠ m.dst)
    (hcredit : (s.tile m.dst).credit (s.lightest m.dst) < 2) :
    Completes (.enq i) s (performed s (s.sendEnq m.dst (s.lightest m.dst) r false cmd) i .accepted) := by
  show execEnq i s = done _
  refine congrArg done (State.arrive_performed h (by simp only [hb]) ?_)
  simp only [hb, hup, Nat.not_le.mpr hcredit, if_true, if_false]

end

/-! ### Answers (R323, R424) -/

theorem Body.gotten_home {key : Key} {op : HomeOp} (x : HomeAns) (h : ∀ pa n v sh, op ≠ .write pa n v sh) :
    Body.gotten (.access key op none) (.home x) = some (.access key op (some (some x))) := by
  cases op with
  | write pa n v sh => exact absurd rfl (h pa n v sh)
  | _ => rfl

section
variable {a : Ans} (hm : s.msgs[i]? = some m) (hst : m.st = .answered a) (hway : s.lostOn m.tripBack = none)
include hm hst hway

/-- The home's answer to a request stays in the message until its requester takes it. -/
theorem completes_rsp_gotten {key : Key} {op : HomeOp} {o : Option (Option HomeAns)} {b : Body} (hb : m.body = .access key op o)
    (hg : Body.gotten (.access key op o) a = some b) : Completes (.rsp i) s (s.modMsg i fun m => { s.stampBack m with body := b }) := by
  show execRsp i s = done _
  simp only [execRsp, hm, hst, hway, hb, hg]

theorem completes_rsp_counted {key : Key} {op : HomeOp} {o : Option (Option HomeAns)} (hb : m.body = .access key op o)
    (hg : Body.gotten (.access key op o) a = none) : Completes (.rsp i) s (s.dropMsg i) := by
  show execRsp i s = done _
  simp only [execRsp, hm, hst, hway, hb, hg]

/-- Any other answer acts at its requester, and its message is over. -/
theorem completes_rsp_answered {s1 : State} (hb : ∀ key op o, m.body ≠ .access key op o) (hhold : s.holdAnswer m = s)
    (hheld : s.isHeld m.src m = false) (ha : s.answered m a = some s1) : Completes (.rsp i) s (s1.dropMsg i) := by
  show execRsp i s = done _
  simp only [execRsp, hm, hst, hway, hhold, hheld, ha, Bool.false_and, Bool.false_eq_true, if_false]

end
end

/-! ### The statement -/

/-- Settles O45, one kind of message after another: its receiver performs it, and its requester takes the answer. -/
theorem requestsArePerformed : Obligations.RequestsArePerformed := by
  refine ⟨?redn, ?access, ?decrement, ?waiter, ?release, ?enq, ?stored, ?home, ?answered⟩
  case redn => exact fun s i m key pa op wide v h hb => completes_redn h hb
  case access => exact fun s s1 i m key op x h hb => completes_access h hb
  case decrement => exact fun s i m asid pa cell h hb => completes_decrement h hb
  case waiter =>
    intro s i m who pa e h hb hheld hgood
    have hdo := completes_waiter h hb hheld
    refine ⟨fun hc => ?_, fun hc hfull => ?_, fun j hj hc hfree hbelow => ?_⟩
    · rwa [State.deferAt_placeNow hgood hc] at hdo
    · rwa [State.deferAt_full hgood hc hfull] at hdo
    · rwa [State.deferAt_slot hgood hc hj hfree hbelow] at hdo
  case release => exact fun s s2 i m e h hb hheld ha hbar hres hp => completes_release h hb hheld ha hbar hres hp
  case enq =>
    intro s i m r climb cmd h hb
    refine ⟨completes_enq_here h hb, fun hclimb hup hcredit => ?_⟩
    subst hclimb
    exact completes_enq_climb h hb hup hcredit
  case stored => exact fun s s1 tile r => rfl
  case home =>
    intro s i m x key op hm hst hway hb
    refine ⟨fun hop => completes_rsp_gotten hm hst hway hb (Body.gotten_home x hop), ?_⟩
    rintro pa n v sh rfl
    exact completes_rsp_counted hm hst hway hb rfl
  case answered =>
    intro s s1 i m a hm hst hway hb hhold hheld ha
    have hthen {s' : State} (h : s.answered m a = some s') : s1 = s' := Option.some.inj (ha.symm.trans h)
    refine ⟨completes_rsp_answered hm hst hway hb hhold hheld ha, fun key pa op wide v e => hthen ?_, fun r climb cmd e => hthen ?_,
      fun key id cls pkt words seq e => hthen ?_⟩ <;> simp only [State.answered, e]

end Sys2Proof.Machine
end

section
/-!
SUPPORT and the proof of barriers, stealing, load figures, INVL and a migration's end (R50, R55, R61, R100, R120, R121, R326): what an arrival
does at its router, and that the write-backs that an INVL asks for bring no translation back.
-/

namespace Sys2Proof.Machine

/-! ### Barriers (R61, R326) -/

/-- Two changes that agree on a strand change it alike. -/
theorem State.modStrand_congr {s : State} {key : Key} {f g : Strand → Strand} {t : Strand} (ht : s.theStrand? key = some t) (h : f t = g t) :
    s.modStrand key f = s.modStrand key g := by
  unfold State.theStrand? at ht
  unfold State.modStrand
  split
  next hk =>
    rw [if_pos hk] at ht
    cases ht
    rw [h]
  next hk =>
    rw [if_neg hk] at ht
    rw [ht]
    dsimp only
    rw [h]

section
variable {s : State} {i : Nat} {m : Msg} {key : Key}

theorem completes_arrival {a : Arrival} {t : Strand} (h : Arrives s i m) (hb : m.body = .arrival key a) (ht : s.theStrand? key = some t)
    (ha : t.arrival = some a) :
    let u : Strand := { t with arrival := some { a with stage := 1, at_ := m.dst } }
    Completes (.barrierArrival i) s (performed s ((s.modStrand key fun _ => u).tryComplete u) i .accepted) := by
  show execBarrierArrival i s = done _
  refine congrArg done (State.arrive_performed h (by simp only [hb]) ?_)
  simp only [hb, ht, ha, if_true]

theorem completes_combined {a : Arrival} {dom : Word} (h : Arrives s i m) (hb : m.body = .combined key a dom) :
    Completes (.barrierArrival i) s (performed s (s.combined m.src m.dst key a dom) i .accepted) := by
  show execBarrierArrival i s = done _
  refine congrArg done (State.arrive_performed h (by simp only [hb]) ?_)
  simp only [hb]

theorem completes_completion {a b : Arrival} {dom r : Word} {t : Strand} (h : Arrives s i m) (hb : m.body = .completion key b dom r)
    (ht : s.theStrand? key = some t) (ha : t.arrival = some a) (hk : a.kind = b.kind) (hst : a.stage = 2) :
    Completes (.barrierCompletion i) s
      (performed s (s.modStrand key fun t => { t with arrival := some { a with result := some r } }) i .accepted) := by
  show execBarrierCompletion i s = done _
  refine congrArg done (State.arrive_performed h (by simp only [hb]) ?_)
  simp only [hb, Option.some.injEq, Prod.mk.injEq, true_and]
  refine State.modStrand_congr ht ?_
  simp only [ha, Option.map_some, hk, hst, decide_true, Bool.and_self, if_true]

end

/-! ### Stealing and load figures (R50, R55) -/

section
variable {s : State} {tile : BitVec 10}

theorem completes_tileIdle (hidle : s.isIdle tile.toNat = true) (hc : 64 ≤ (s.tile tile.toNat).idle.cycles)
    (hoff : (s.tile tile.toNat).idle.on = false) : Completes (.tileIdle tile) s (s.probe tile.toNat 0) := by
  show execTileIdle tile s = done _
  simp only [execTileIdle, hidle, hc, hoff, decide_true, Bool.not_false, Bool.and_self, if_true]

theorem completes_stealRetry (hon : (s.tile tile.toNat).idle.on = true) (hdir : (s.tile tile.toNat).idle.dir = 6)
    (hwait : (s.tile tile.toNat).idle.wait = 0) :
    Completes (.stealRetry tile) s (if s.isIdle tile.toNat then s.probe tile.toNat 0
      else s.modTile tile.toNat fun t => { t with idle := { t.idle with on := false } }) := by
  show execStealRetry tile s = done _
  simp only [execStealRetry, hon, hdir, hwait, decide_true, Bool.and_self, if_true]

end

section
variable {s : State} {i : Nat} {m : Msg} {dir : Nat}

theorem completes_stealProbe_refused (h : Arrives s i m) (hb : m.body = .probe dir) (hr : s.surrendered m.dst = none) :
    Completes (.stealProbe i) s (performed s s i .refused) := by
  show execStealProbe i s = done _
  refine congrArg done (State.arrive_performed h (by simp only [hb]) ?_)
  simp only [hr]

theorem completes_stealProbe_sent {r : Rec} (h : Arrives s i m) (hb : m.body = .probe dir) (hr : s.surrendered m.dst = some r)
    (hc : (s.tile m.dst).credit m.src < 2) :
    Completes (.stealProbe i) s
      (performed s ((s.modTile m.dst fun t => t.dropRec r).sendEnq m.dst m.src { r with spill := none } false) i .accepted) := by
  show execStealProbe i s = done _
  refine congrArg done (State.arrive_performed h (by simp only [hb]) ?_)
  simp only [hr, Nat.not_le.mpr hc, if_false]

end

/-! ### What a home's writes and the log leave alone (R112, R377) -/

/-- What lies beside memory and its homes: the tiles, the layers, what is in flight, the INVLs, and what places an address. -/
def State.beside (s : State) : List (Nat × Tile) × List (Nat × Layer) × List Msg × List Packet × List Invl × BitVec 3 × BitVec 7 :=
  (s.tiles, s.layers, s.msgs, s.packets, s.invls, s.pkgid, s.nearsz)

@[simp] theorem State.homeFill_beside (s : State) (n : Nat) : (s.homeFill n).beside = s.beside := by unfold State.homeFill; split <;> rfl
@[simp] theorem State.homeWriteLine_beside (s : State) (n : Nat) (m : MaskV) (x : Line) : (s.homeWriteLine n m x).beside = s.beside :=
  s.homeFill_beside n
@[simp] theorem State.homeWrite_beside (s : State) (pa n v : Nat) : (s.homeWrite pa n v).beside = s.beside := by
  unfold State.homeWrite; split <;> simp
@[simp] theorem State.logEntry_beside (s : State) (kind source : Nat) (l : List Word) : (s.logEntry kind source l).beside = s.beside := by
  obtain h | ⟨pa, v, _, _, h⟩ := s.logEntry_cases kind source l <;> rw [h]
  · rfl
  · exact s.homeWrite_beside pa 64 v
@[simp] theorem State.leaveBad_beside (s : State) (tile store : Nat) (e : CLine) : (s.leaveBad tile store e).1.beside = s.beside := by
  unfold State.leaveBad
  split
  · rfl
  · split
    · rfl
    · exact State.logEntry_beside ..
@[simp] theorem State.homeMerge_beside (s : State) (source line : Nat) (m : MaskV) (x : Line) : (s.homeMerge source line m x).beside = s.beside := by
  unfold State.homeMerge
  extract_lets lost s1
  have h : s1.beside = s.beside := by
    simp only [s1]
    split
    · rfl
    · exact State.logEntry_beside ..
  split <;> simp [h]

theorem State.win_of_beside {s t : State} (h : t.beside = s.beside) (pa : Nat) : t.win pa = s.win pa := by
  simp only [State.beside, Prod.mk.injEq] at h
  obtain ⟨-, -, -, -, -, hp, hn⟩ := h
  simp only [State.win, State.offsetWin, hp, hn]

theorem State.unserved_of_beside {s t : State} (h : t.beside = s.beside) (tile : Nat) : t.unserved tile = s.unserved tile := by
  simp only [State.beside, Prod.mk.injEq] at h
  obtain ⟨-, -, hm, hp, -⟩ := h
  simp only [State.unserved, hm, hp]

/-! ### What write-backs leave alone (R110, R329) -/

/-- The two TLBs of each tile of a table. -/
def tlbsIn (l : List (Nat × Tile)) (n : Nat) : List Tlb × List Tlb := (((look n l).getD Tile.reset).tlb1, ((look n l).getD Tile.reset).tlb2)

/-- The cached translations of the tiles and layers, and the INVLs that are out for them. -/
def State.cached (s : State) : (Nat → List Tlb × List Tlb) × List (Nat × Layer) × List Invl := (tlbsIn s.tiles, s.layers, s.invls)

theorem State.cached_of_beside {s t : State} (h : t.beside = s.beside) : t.cached = s.cached := by
  simp only [State.beside, Prod.mk.injEq] at h
  obtain ⟨ht, hl, -, -, hi, -⟩ := h
  simp only [State.cached, ht, hl, hi]

theorem State.cached_modTile {s : State} {n : Nat} {f : Tile → Tile} (h1 : ∀ t, (f t).tlb1 = t.tlb1) (h2 : ∀ t, (f t).tlb2 = t.tlb2) :
    (s.modTile n f).cached = s.cached := by
  have h : tlbsIn (s.modTile n f).tiles = tlbsIn s.tiles := by
    funext k
    show (((s.modTile n f).tile k).tlb1, ((s.modTile n f).tile k).tlb2) = ((s.tile k).tlb1, (s.tile k).tlb2)
    by_cases hk : k = n
    · subst hk
      rw [State.tile_modTile, h1, h2]
    · rw [State.tile_modTile_other hk]
  exact congrArg (·, s.layers, s.invls) h

@[simp] theorem State.countLost_cached (s : State) (r : Nat) : (s.countLost r).cached = s.cached := State.cached_modTile (fun _ => rfl) fun _ => rfl
@[simp] theorem State.leavePort_cached (s : State) (tile off port : Nat) (hdr : BitVec 128) (data : List Byte) (s1 : State) :
    (s.leavePort tile off port hdr data s1).cached = s1.cached := by
  unfold State.leavePort
  split
  · exact State.countLost_cached ..
  · rfl
@[simp] theorem State.postLine_cached (s : State) (key : Key) (tile pkg line : Nat) (m : MaskV) (x : Line) (va : Word) :
    (s.postLine key tile pkg line m x va).cached = s.cached := by
  unfold State.postLine
  split
  · rfl
  · refine foldl_keeps State.cached (fun s r => ?_) _ _
    split
    · rfl
    · exact State.leavePort_cached ..

@[simp] theorem State.writeBack_cached (s : State) (tile : Nat) (e : CLine) (store : Nat) : (s.writeBack tile e store).cached = s.cached := by
  unfold State.writeBack
  split
  · rfl
  · have h := State.cached_of_beside (s.leaveBad_beside tile store e)
    generalize s.leaveBad tile store e = p at h ⊢
    obtain ⟨s1, m⟩ := p
    dsimp only at h ⊢
    split
    · rw [State.postLine_cached, h]
    · rw [State.cached_of_beside (State.homeMerge_beside ..), h]

/-- A line of this package goes home, and nothing beside its home changes. -/
theorem State.writeBack_beside {s : State} {e : CLine} (tile store : Nat) (h : e.dirty ≠ 0 → ∀ n, s.win (e.addr * 128) ≠ .remote n) :
    (s.writeBack tile e store).beside = s.beside := by
  unfold State.writeBack
  split
  · rfl
  next hd =>
    have hb := s.leaveBad_beside tile store e
    generalize s.leaveBad tile store e = p at hb ⊢
    obtain ⟨s1, m⟩ := p
    dsimp only at hb ⊢
    split
    next pkg hw => exact absurd ((State.win_of_beside hb _).symm.trans hw) (h hd pkg)
    · rw [State.homeMerge_beside, hb]

theorem State.writeBacks_beside {s : State} {l : List CLine} (tile : Nat) (h : ∀ e ∈ l, e.dirty ≠ 0 → ∀ n, s.win (e.addr * 128) ≠ .remote n) :
    (l.foldl (fun s e => s.writeBack tile e) s).beside = s.beside := by
  induction l generalizing s with
  | nil => rfl
  | cons e l ih =>
    have he := State.writeBack_beside (s := s) tile 3 (h e (List.mem_cons_self ..))
    rw [List.foldl_cons, ih fun e' he' hd n => State.win_of_beside he _ ▸ h e' (List.mem_cons_of_mem _ he') hd n, he]

/-! ### INVL (R100, R317) -/

section
variable (s : State) (tile : Nat) (v : Invl)

theorem State.invlLines_cached : (s.invlLines tile v).cached = s.cached := by
  unfold State.invlLines
  extract_lets s1
  rw [State.cached_modTile]
  · exact foldl_keeps State.cached (fun s e => s.writeBack_cached tile e 3) _ _
  · exact fun _ => rfl
  · exact fun _ => rfl

/-- What a tile that acknowledges has done. -/
theorem State.invlTile_acked (h : (s.invlTile tile v).2 = true) : (s.invlTile tile v).1 = (s.invlDrop tile v).invlLines tile v := by
  unfold State.invlTile at h ⊢
  dsimp only at h ⊢
  split
  next hc =>
    rw [if_pos hc] at h
    cases h
  · rfl

theorem State.invlTile_cached (h : (s.invlTile tile v).2 = true) : (s.invlTile tile v).1.cached = (s.invlDrop tile v).cached := by
  rw [State.invlTile_acked s tile v h, State.invlLines_cached]

theorem State.tile_invlDrop : (s.invlDrop tile v).tile tile =
    { s.tile tile with
      tlb1 := (s.tile tile).tlb1.filter fun e => !v.hitsTlb e, tlb2 := (s.tile tile).tlb2.filter fun e => !v.hitsTlb e } :=
  s.tile_modTile tile fun t => { t with tlb1 := t.tlb1.filter fun e => !v.hitsTlb e, tlb2 := t.tlb2.filter fun e => !v.hitsTlb e }
theorem State.invlDrop_lltlb : ((s.invlDrop tile v).layer (tile / 64)).lltlb = (s.layer (tile / 64)).lltlb.filter fun e => !v.hitsTlb e := by
  rw [State.invlDrop, State.layer_setLayer]
  rfl

/-- A tile that acknowledges an INVL holds no copy that it hits. -/
theorem State.invlTile_clears (h : (s.invlTile tile v).2 = true) :
    (∀ e ∈ ((s.invlTile tile v).1.tile tile).tlb1, v.hitsTlb e = false) ∧ (∀ e ∈ ((s.invlTile tile v).1.tile tile).tlb2, v.hitsTlb e = false) ∧
    (∀ e ∈ ((s.invlTile tile v).1.layer (tile / 64)).lltlb, v.hitsTlb e = false) ∧
    ∀ e ∈ ((s.invlTile tile v).1.tile tile).l1, v.hitsAsid e.asid = false := by
  have hc := State.invlTile_cached s tile v h
  simp only [State.cached, Prod.mk.injEq] at hc
  obtain ⟨htlb, hlayers, -⟩ := hc
  obtain ⟨h1, h2⟩ := Prod.mk.inj (congrFun htlb tile)
  have h1' : ((s.invlTile tile v).1.tile tile).tlb1 = _ := h1.trans (congrArg Tile.tlb1 (s.tile_invlDrop tile v))
  have h2' : ((s.invlTile tile v).1.tile tile).tlb2 = _ := h2.trans (congrArg Tile.tlb2 (s.tile_invlDrop tile v))
  have hl' : (s.invlTile tile v).1.layer (tile / 64) = (s.invlDrop tile v).layer (tile / 64) := by rw [State.layer, hlayers]; rfl
  refine ⟨fun e he => ?_, fun e he => ?_, fun e he => ?_, fun e he => ?_⟩
  · rw [h1'] at he
    simpa using (List.mem_filter.mp he).2
  · rw [h2'] at he
    simpa using (List.mem_filter.mp he).2
  · rw [hl', s.invlDrop_lltlb tile v] at he
    simpa using (List.mem_filter.mp he).2
  · rw [State.invlTile_acked s tile v h, State.invlLines, State.tile_modTile] at he
    simpa using (List.mem_filter.mp he).2

/-- A tile whose accesses are served, and whose lines can go home in this package, acknowledges. -/
theorem State.invlTile_acks (hu : s.unserved tile = false) (hh : (s.invlDrop tile v).invlHeld tile v = false)
    (hnear : ∀ e ∈ (s.tile tile).l1, v.hitsAsid e.asid = true → e.dirty ≠ 0 → ∀ n, s.win (e.addr * 128) ≠ .remote n) :
    (s.invlTile tile v).2 = true := by
  have hdrop : (s.invlDrop tile v).unserved tile = false := hu
  have hlines : ((s.invlDrop tile v).invlLines tile v).unserved tile = false := by
    refine (State.unserved_of_beside (State.writeBacks_beside (s := s.invlDrop tile v) tile fun e he hd n => ?_) tile).trans hdrop
    obtain ⟨hmem, hhit⟩ := List.mem_filter.mp he
    rw [s.tile_invlDrop tile v] at hmem
    exact hnear e hmem hhit hd n
  simp only [State.invlTile, hdrop, hh, hlines, Bool.or_self, Bool.false_eq_true, if_false, Bool.not_false]

theorem State.invlWelt_invls : (s.invlWelt v).1.invls = s.invls := by
  unfold State.invlWelt
  split
  · rfl
  · extract_lets mark info ends live s1 s2
    exact foldl_keeps State.invls (fun s (e : Kernel × BitVec 18) => show (s.sendEnd e.1 7 (info e.2)).invls = s.invls from rfl) _ s1

/-- What receiver `n` does of an INVL, and whether it acknowledges. -/
def State.invlPart (n : Nat) : State × Bool :=
  if n < 1024 then s.invlTile n v else if n = 1024 then ({ s with walker := s.walker.filter fun w => !v.hitsWalker w }, true) else s.invlWelt v

theorem State.invlPart_invls {n : Nat} (h : (s.invlPart v n).2 = true) : (s.invlPart v n).1.invls = s.invls := by
  unfold State.invlPart at h ⊢
  split
  next hn =>
    rw [if_pos hn] at h
    have hc := State.invlTile_cached s n v h
    simp only [State.cached, Prod.mk.injEq] at hc
    exact hc.2.2
  · split
    · rfl
    · exact s.invlWelt_invls v

/-- Receiver `n` of the `i`-th INVL has acknowledged. -/
def State.acked (i n : Nat) : State :=
  { s with
    invls := s.invls.modify i fun v => { v with left := v.left &&& ~~~ (BitVec.ofNat 1026 (2 ^ n)) }
    migrating := if v.who = .migrateFlip || v.who = .migrateUndo then s.migrating.map fun g => { g with drain := g.drain - 1 } else s.migrating }

end

section
variable {s : State} {i : Nat} {v : Invl} (hv : s.invls[i]? = some v)
include hv

theorem completes_invlReceive {n : BitVec 11} (hleft : v.left.getLsbD n.toNat = true) (h : (s.invlPart v n.toNat).2 = true) :
    Completes (.invlReceive i n) s ((s.invlPart v n.toNat).1.acked v i n.toNat) := by
  show execInvlReceive i n s = done _
  unfold State.invlPart at h ⊢
  simp only [execInvlReceive, hv, hleft, h, Bool.not_true, Bool.false_eq_true, if_false]
  rfl

/-- A receiver that acknowledges is no longer awaited, and has no copy left. -/
theorem invlReceive_clears {n : BitVec 11} (hn : n.toNat < 1026) (hleft : v.left.getLsbD n.toNat = true)
    (htile : n.toNat < 1024 → (s.invlTile n.toNat v).2 = true) (hwelt : n.toNat = 1025 → (s.invlWelt v).2 = true) :
    ∃ t, Completes (.invlReceive i n) s t ∧ (t.invls[i]?).map (·.left) = some (v.left &&& ~~~ (BitVec.ofNat 1026 (2 ^ n.toNat))) ∧
      (n.toNat < 1024 → (∀ e ∈ (t.tile n.toNat).tlb1, v.hitsTlb e = false) ∧ (∀ e ∈ (t.tile n.toNat).tlb2, v.hitsTlb e = false) ∧
        (∀ e ∈ (t.layer (n.toNat / 64)).lltlb, v.hitsTlb e = false) ∧ ∀ e ∈ (t.tile n.toNat).l1, v.hitsAsid e.asid = false) ∧
      (n.toNat = 1024 → ∀ e ∈ t.walker, v.hitsWalker e = false) := by
  have hack : (s.invlPart v n.toNat).2 = true := by
    unfold State.invlPart
    split
    next h => exact htile h
    · split
      · rfl
      · exact hwelt (by omega)
  refine ⟨_, completes_invlReceive hv hleft hack, ?_, fun h => ?_, fun h => ?_⟩
  · simp only [State.acked, s.invlPart_invls v hack, List.getElem?_modify_eq, hv, Option.map_some, Option.map_eq_map]
  · have hpart : s.invlPart v n.toNat = s.invlTile n.toNat v := if_pos h
    rw [hpart]
    exact s.invlTile_clears n.toNat v (htile h)
  · have hpart : s.invlPart v n.toNat = ({ s with walker := s.walker.filter fun w => !v.hitsWalker w }, true) :=
      (if_neg (by omega)).trans (if_pos h)
    rw [hpart]
    intro e he
    simpa using (List.mem_filter.mp he).2

section
variable (hleft : v.left = 0)
include hleft

theorem completes_invlComplete_strand {key : Key} (hw : v.who = .strand key) :
    Completes (.invlComplete i) s (({ s with invls := dropAt i s.invls } : State).modStrand key fun t =>
      { t with ans := if t.ans = some .asked then some .accepted else t.ans }) := by
  show execInvlComplete i s = done _
  simp only [execInvlComplete, hv, hleft, hw, ne_eq, not_true_eq_false, if_false]

theorem completes_invlComplete_command {c : CmdRef} (hw : v.who = .command c) :
    Completes (.invlComplete i) s (({ s with invls := dropAt i s.invls } : State).answerCmd c 1) := by
  show execInvlComplete i s = done _
  simp only [execInvlComplete, hv, hleft, hw, ne_eq, not_true_eq_false, if_false]

/-- The pages are copied, and the INVL stands while granules wait (R120). -/
theorem completes_invlComplete_busy {g : Migration} (hw : v.who = .migrateBusy) (hg : s.migrating = some g) :
    let o := ({ s with invls := dropAt i s.invls } : State).migrateCopy g
    Completes (.invlComplete i) s (if o.2 then o.1 else { o.1 with invls := s.invls }) := by
  show execInvlComplete i s = done _
  simp only [execInvlComplete, hv, hleft, hw, hg, ne_eq, not_true_eq_false, if_false]

theorem completes_invlComplete_flip (hw : v.who = .migrateFlip ∨ v.who = .migrateUndo) :
    Completes (.invlComplete i) s { s with invls := dropAt i s.invls } := by
  show execInvlComplete i s = done _
  rcases hw with hw | hw <;> simp only [execInvlComplete, hv, hleft, hw, ne_eq, not_true_eq_false, if_false]

end
end

/-! ### The end of a migration (R121) -/

theorem completes_migrationDone {s : State} {g : Migration} (hg : s.migrating = some g) (hst : g.status ≠ 0) (hd : g.drain = 0)
    (hheld : s.heldAtHome g.done.toNat = false) :
    Completes .migrationDone s ((({ s with migrating := none } : State).writeDone g.done.toNat g.status).answerCmd g.who g.status) := by
  show execMigrationDone s = done _
  simp [execMigrationDone, hg, hst, hd, hheld]

/-! ### The statement -/

/-- Settles O47, event by event. -/
theorem barriersStealsAndInvalidations : Obligations.BarriersStealsAndInvalidations := by
  refine ⟨?arrival, ?combined, ?completion, ?idle, ?probe, ?receive, ?acks, ?complete, ?migrated⟩
  case arrival => exact fun s i m key a t h hb ht ha => completes_arrival h hb ht ha
  case combined => exact fun s i m key a dom h hb => completes_combined h hb
  case completion => exact fun s i m key b dom r a t h hb ht ha hk hst => completes_completion h hb ht ha hk hst
  case idle =>
    intro s tile
    refine ⟨completes_tileIdle, fun hon hdir hwait hidle => ?_, fun hon hdir hwait hidle => ?_, rfl⟩
    · have h := completes_stealRetry hon hdir hwait
      rwa [hidle, if_pos rfl] at h
    · have h := completes_stealRetry hon hdir hwait
      rwa [hidle, if_neg Bool.false_ne_true] at h
  case probe =>
    exact fun s i m dir h hb => ⟨completes_stealProbe_refused h hb, fun r hr hc => completes_stealProbe_sent h hb hr hc⟩
  case receive => exact fun s i n v hv hn hleft htile hwelt => invlReceive_clears hv hn hleft htile hwelt
  case acks => exact fun s tile v hu hh hnear => s.invlTile_acks tile v hu hh hnear
  case complete =>
    intro s i v hv hleft
    refine ⟨fun key hw => completes_invlComplete_strand hv hleft hw, fun c hw => completes_invlComplete_command hv hleft hw,
      fun g s2 hw hg => ?_, completes_invlComplete_flip hv hleft⟩
    have h := completes_invlComplete_busy hv hleft hw hg
    refine ⟨fun hcopy => ?_, fun hcopy => ?_⟩ <;> · dsimp only at hcopy h; rwa [hcopy] at h
  case migrated => exact fun s g hg hst hd hheld => completes_migrationDone hg hst hd hheld

end Sys2Proof.Machine
end

section
/-!
SUPPORT and the proof of dispatch and the issue slots (R35–R54): the first eligible record, what each kind of dispatch makes of it, the
return of a spilled record, and the two ways in which a strand leaves its slot.
-/

namespace Sys2Proof.Machine

/-! ### The first eligible record (R53, R404) -/

theorem State.dispatch_best {s : State} {n : Nat} {slot : Fin 16} {r : Rec} (ho : (s.tile n).out = false) (hf : s.freeSlot n = some slot)
    (hb : bestRec (s.tile n).d (s.eligible n) (s.tile n).deque = some r) : s.dispatch n = s.dispatchRec n slot r := by
  simp only [State.dispatch, ho, hf, hb, Bool.false_eq_true, if_false]

/-- A record whose hold for its team has cleared, and the machine once the tile has forgotten that hold. -/
def Rec.unheld (r : Rec) : Rec := if r.hold = 3 then { r with hold := 0 } else r
def State.unheld (s : State) (n : Nat) (r : Rec) : State := if r.hold = 3 then s.modTile n (·.unhold r) else s

theorem Rec.unheld_eq (r : Rec) : r.unheld = { r with hold := if r.hold = 3 then 0 else r.hold } := by
  unfold Rec.unheld
  split <;> rfl
@[simp] theorem Rec.unheld_resume (r : Rec) : r.unheld.resume = r.resume := by rw [Rec.unheld_eq]; rfl
@[simp] theorem Rec.unheld_preset (r : Rec) : r.unheld.preset = r.preset := by rw [Rec.unheld_eq]; rfl
@[simp] theorem Rec.unheld_key (r : Rec) : r.unheld.key = r.key := by rw [Rec.unheld_eq]; rfl
@[simp] theorem Rec.unheld_asid (r : Rec) : r.unheld.asid = r.asid := by rw [Rec.unheld_eq]
@[simp] theorem Rec.unheld_cgrp (r : Rec) : r.unheld.cgrp = r.cgrp := by rw [Rec.unheld_eq]
@[simp] theorem Rec.unheld_entry (r : Rec) : r.unheld.entry = r.entry := by rw [Rec.unheld_eq]; rfl

theorem State.unheld_teamFits (s : State) (n : Nat) (r : Rec) : (s.unheld n r).teamFits n r.unheld = s.teamFits n r := by
  rw [Rec.unheld_eq]
  unfold State.unheld
  split <;> rfl

section
variable {s : State} {n : Nat} {slot : Fin 16} {r : Rec} (hs : r.spill = none)
include hs

/-- A record of the hardware, as dispatch takes it once its hold has cleared. -/
theorem State.dispatchRec_inHw :
    s.dispatchRec n slot r =
      if r.unheld.resume then (s.unheld n r).dispatchResume n slot r.unheld
      else if !(s.unheld n r).teamFits n r.unheld then
        (s.unheld n r).holdRec n r.unheld 3 (if r.unheld.preset then r.unheld.key.handle else 0) 0
      else if r.unheld.preset then (s.unheld n r).dispatchPrepared n slot r.unheld
      else (s.unheld n r).dispatchPool n slot r.unheld := by
  have hrefill : s.refill n r = (s, some r) := by simp only [State.refill, hs]
  simp only [State.dispatchRec, hrefill]
  rfl

theorem State.dispatchRec_resume (hr : r.resume = true) : s.dispatchRec n slot r = (s.unheld n r).dispatchResume n slot r.unheld := by
  rw [State.dispatchRec_inHw hs, Rec.unheld_resume, hr, if_pos rfl]

theorem State.dispatchRec_start (hr : r.resume = false) (hfit : s.teamFits n r = true) :
    s.dispatchRec n slot r =
      if r.preset then (s.unheld n r).dispatchPrepared n slot r.unheld else (s.unheld n r).dispatchPool n slot r.unheld := by
  rw [State.dispatchRec_inHw hs, Rec.unheld_resume, hr, if_neg Bool.false_ne_true, State.unheld_teamFits, hfit, Rec.unheld_preset]
  rfl

end

/-! ### A resumed strand (R35, R44, R275, R369) -/

/-- A strand as it comes back into a slot, from the lines that were fetched. -/
def Strand.resumed (u : Strand) (slot : Fin 16) : Strand :=
  { u.deliverNow with
    state := 1, slot := some slot, slotCycles := 0, wait := none, dirty := u.dirty ||| lineBit 0, npc := u.deliverNow.pc }

theorem Strand.resumes_resumed (u : Strand) (slot : Fin 16) : Resumes u (u.resumed slot) slot := by
  cases hd : u.deliver <;> simp [Resumes, Strand.resumed, Strand.deliverNow, hd]

/-- The accumulators that are bound depend on a strand's key and save areas only. -/
theorem Tile.bindAll_congr {u v : Strand} (hk : u.key = v.key) (ha : u.save = v.save) (t : Tile) (l : List QReg) :
    t.bindAll u l = t.bindAll v l := by
  have hanchor (n : Nat) : u.savedAnchor n = v.savedAnchor n := by simp only [Strand.savedAnchor, ha]
  induction l generalizing t with
  | nil => rfl
  | cons q l ih =>
    unfold Tile.bindAll
    split
    · rfl
    · rw [ih, hk, hanchor]

theorem State.dispatchResume_fetched {s s1 s2 : State} {n : Nat} {slot : Fin 16} {r : Rec} {t t1 u : Strand} (ht : s.strand? r.key = some t)
    (h1 : s.fetchLines t 1 32 = .ok (s1, t1)) (h2 : s1.fetchLines t1 (if t1.qheld = 0 then 0 else lineBit 24) 32 = .ok (s2, u)) :
    s.dispatchResume n slot r =
      ((s2.decided n r).modTile n fun w => (w.keepRetained (u.resumed slot).key).bindAll (u.resumed slot) (w.unbound (u.resumed slot))).putStrand
        (u.resumed slot) := by
  simp only [State.dispatchResume, ht, h1, h2]
  refine congrArg (fun f => ((s2.decided n r).modTile n f).putStrand (u.resumed slot)) (funext fun w => ?_)
  refine Tile.bindAll_congr ?_ ?_ _ _ <;> rfl

/-! ### A new strand (R43, R46) -/

theorem Rec.prio_lt (r : Rec) : r.prio < 4 := BitVec.isLt _

theorem Strand.starts_start (t : Strand) (r : Rec) (slot : Fin 16) : Starts (t.start r slot) r slot := by
  have hprio : (BitVec.ofNat 2 r.prio).toNat = r.prio := by
    rw [BitVec.toNat_ofNat]
    exact Nat.mod_eq_of_lt r.prio_lt
  refine ⟨rfl, rfl, rfl, rfl, rfl, rfl, hprio, rfl, rfl, rfl, rfl, rfl, ?_⟩
  simp [Strand.start]

/-- What the record of a started strand says does not depend on its hold. -/
theorem Starts.of_unheld {u : Strand} {r : Rec} {slot : Fin 16} (h : Starts u r.unheld slot) : Starts u r slot := by
  rw [Rec.unheld_eq] at h
  exact h

theorem Strand.setLine_zero_state (t : Strand) (x : Line) : (t.setLine 0 x).state = x.extractLsb' 64 3 := by
  show (wordAt x 1).extractLsb' 0 3 = _
  refine BitVec.eq_of_getLsbD_eq fun i hi => ?_
  have hi' : i < 64 := by omega
  simp [wordAt, hi, hi']

/-- A strand that starts from a prepared frame, from its lines 0 and 1. -/
def Rec.prepared (r : Rec) (n : Nat) (slot : Fin 16) (x y : Line) : Strand :=
  { (((newStrand r.key n).setLine 0 x).setLine 1 y).start r slot with supv := (newStrand r.key n).supv }

theorem State.dispatchPrepared_read {s s1 s2 : State} {n : Nat} {slot : Fin 16} {r : Rec} {x y : Line}
    (hw : (s.waysFor n r.key).hasWays n r.key = true) (h0 : frameRead (s.waysFor n r.key) (newStrand r.key n) 0 = .ok (x, s1))
    (hd : (x.extractLsb' 64 3 : BitVec 3) = 4) (hnew : (s.waysFor n r.key).strand? r.key = none)
    (h1 : frameRead s1 (newStrand r.key n) 1 = .ok (y, s2)) : s.dispatchPrepared n slot r = s2.enter n r (r.prepared n slot x y) := by
  have hkey : (newStrand r.key n).key = r.key := rfl
  simp only [State.dispatchPrepared, hkey, hw, h0, Strand.setLine_zero_state, hd, hnew, h1, Rec.prepared, Bool.not_true, Bool.false_eq_true,
    if_false, ne_eq, not_true_eq_false, decide_false, Option.isSome_none, Bool.or_self]

/-- The key of a frame that a pool gives. -/
def Rec.poolKey (r : Rec) (frame : Word) : Key := { asid := r.asid, handle := BitVec.ofNat 45 (frame.toNat / 2 ^ 12) }

@[simp] theorem Rec.unheld_poolKey (r : Rec) (frame : Word) : r.unheld.poolKey frame = r.poolKey frame := by
  rw [Rec.poolKey, Rec.unheld_asid, Rec.poolKey]

theorem extractLsb'_handle (frame : Word) : frame.extractLsb' 12 45 = BitVec.ofNat 45 (frame.toNat / 2 ^ 12) := by
  apply BitVec.eq_of_toNat_eq
  rw [BitVec.extractLsb'_toNat, BitVec.toNat_ofNat, Nat.shiftRight_eq_div_pow]

theorem frameSeed_toNat (frame : Word) : (frameSeed frame).toNat = frame.toNat / 2 ^ 12 % 2 ^ 32 ||| 1 := by
  rw [frameSeed, BitVec.toNat_or, BitVec.extractLsb'_toNat, Nat.shiftRight_eq_div_pow]
  rfl

/-- A strand that starts in a frame of a pool. -/
def Rec.pooled (r : Rec) (n : Nat) (slot : Fin 16) (frame : Word) : Strand :=
  { (newStrand (r.poolKey frame) n).start r slot with fresh := true, made := 3, pool := some (frameVA r.key), lfsr := frameSeed frame }

section
variable {s s1 s2 s5 : State} {n : Nat} {slot : Fin 16} {r : Rec} {p x : Xl} {frame : Word} {low : Bool}

theorem State.dispatchPool_popped (hp : agentXl s (agentWho r.asid n (itemSupv r.asid n) true 1) (frameVA r.key) = .ok (p, s1))
    (hgood : s1.badIn p.pa 64 = false) (hhome : s1.hasHome p.pa = true) (hbar : s1.barred n p.pa = false) (hfree : s1.homeRead p.pa 8 ≠ 0)
    (hchg : chgOn s1 = true → s1.barred n (chgEntry s1 r.asid r.cgrp) = false ∧ s1.badIn (chgEntry s1 r.asid r.cgrp) 16 = false ∧
      chgUsed s1 (chgEntry s1 r.asid r.cgrp) + 1 ≤ chgLimit s1 (chgEntry s1 r.asid r.cgrp))
    (hpop : popFrame s1 (agentWho r.asid n (itemSupv r.asid n) true 1) p = .ok (frame, low, s2)) :
    let e := chgEntry s1 r.asid r.cgrp
    let s3 := if chgOn s2 then s2.setUsed e (chgUsed s2 e + 1) else s2
    let s4 := if low then (s3.sendItem n 5 { asid := r.asid, pc := r.entry, addr := frameVA r.key }).1 else s3
    frameXl s4 (newStrand (r.poolKey frame) n) (frameVA (r.poolKey frame)) 3 = .ok (x, s5) →
    (s5.waysFor n (r.poolKey frame)).hasWays n (r.poolKey frame) = true →
    s.dispatchPool n slot r = (s5.waysFor n (r.poolKey frame)).enter n r (r.pooled n slot frame) := by
  intro e s3 s4 hx hw
  have hbar' : (chgOn s1 && s1.barred n e) = false := by
    cases hc : chgOn s1
    · rfl
    · exact (hchg hc).1
  have hgood' : (chgOn s1 && s1.badIn e 16) = false := by
    cases hc : chgOn s1
    · rfl
    · exact (hchg hc).2.1
  have hroom : (chgOn s1 && decide (chgLimit s1 e < chgUsed s1 e + 1)) = false := by
    cases hc : chgOn s1
    · rfl
    · simpa using (hchg hc).2.2
  have hkey : ({ asid := r.asid, handle := frame.extractLsb' 12 45 } : Key) = r.poolKey frame := congrArg _ (extractLsb'_handle frame)
  simp only [e] at hbar' hgood' hroom
  simp only [s3, s4, e] at hx
  simp only [State.dispatchPool, hp, hgood, hhome, hbar, hfree, hbar', hgood', hroom, hpop, hkey, hx, hw, Bool.not_true, Bool.or_self,
    Bool.false_eq_true, if_false]
  rfl

end

/-! ### Records that come back (R51) -/

theorem completes_dequeRefill {s : State} {tile : BitVec 10} {r : Rec} {j : Nat} (hroom : (s.tile tile.toNat).inHw.length < 192)
    (ho : (s.tile tile.toNat).out = false) (hr : ((s.tile tile.toNat).deque.find? fun r => r.spill.isSome && s.resident r.asid) = some r)
    (hj : r.spill = some j) (hgood : s.areaFault ((s.tile tile.toNat).ovfBase + 128 * j) = none)
    (hbar : s.barred tile.toNat ((s.tile tile.toNat).ovfBase + 128 * j) = false) :
    Completes (.dequeRefill tile) s (s.modTile tile.toNat fun t =>
      { t with deque := swapRec r { recOfEntry (s.homeRead ((s.tile tile.toNat).ovfBase + 128 * j) 128) with hold := r.hold } t.deque }) := by
  show execDequeRefill tile s = done _
  simp only [execDequeRefill, hroom, ho, hr, State.refill, hj, hgood, hbar, decide_true, Bool.not_false, Bool.and_self, Bool.false_eq_true,
    if_true, if_false]

/-! ### Strands that leave their slots (R37, R40) -/

section
variable {s : State} {key : Key} {t : Strand} (ht : s.theStrand? key = some t) (hact : t.state = 1) (hlate : t.late = []) (hpieces : t.pieces = [])
  (hsecond : t.inSecond = false)
include ht hact hlate hpieces hsecond

theorem completes_blockDeactivate {w : Wait} (hw : t.wait = some w) (hb : w.blocking = true) (hn : 256 ≤ t.blocked) :
    Completes (.blockDeactivate key) s (asStrand s t fun u => { u with me := t.deactivate 2 }) := by
  have hme : (s.load t).me = t := rfl
  show execBlockDeactivate key s = done _
  simp only [execBlockDeactivate, State.as, ht, hme, hact, hlate, hpieces, hsecond, hw, hb, hn, asStrand, List.isEmpty_nil, Bool.not_false,
    Option.any_some, decide_true, Bool.and_self, if_true]

theorem completes_slotRotation {r : Rec} (hw : t.wait = none) (hn : 65536 ≤ t.slotCycles) (he : t.errs = []) (hk : t.killed = false)
    (hres : s.resident key.asid = true) (hpk : t.pkst.getLsbD 63 = false) (hr : r ∈ (s.tile t.tile.toNat).deque)
    (hel : s.eligible t.tile.toNat r = true) (hp : t.prio.toNat ≤ r.level (s.tile t.tile.toNat).d) :
    Completes (.slotRotation key) s ((s.modStrand key fun t => t.deactivate 0).makeReady key) := by
  have hany : ((s.tile t.tile.toNat).deque.any fun r => s.eligible t.tile.toNat r && decide (t.prio.toNat ≤ r.level (s.tile t.tile.toNat).d)) = true :=
    List.any_eq_true.mpr ⟨r, hr, by simp [hel, hp]⟩
  show execSlotRotation key s = done _
  simp only [execSlotRotation, ht, hact, hlate, hpieces, hsecond, hw, hn, he, hk, hres, pkOpen, hpk, hany, List.isEmpty_nil, Option.isNone_none,
    Bool.not_false, decide_true, Bool.and_self, if_true]

end

/-! ### The statement -/

section
variable {s : State} {tile : BitVec 10} {slot : Fin 16} {r : Rec}

theorem completes_dispatch {t : State} (ho : (s.tile tile.toNat).out = false) (hf : s.freeSlot tile.toNat = some slot)
    (hb : bestRec (s.tile tile.toNat).d (s.eligible tile.toNat) (s.tile tile.toNat).deque = some r) (h : s.dispatchRec tile.toNat slot r = t) :
    Completes (.dispatch tile) s t := by
  show execDispatch tile s = done _
  rw [execDispatch, State.dispatch_best ho hf hb, h]

end

/-- Settles O48, by the kind of the first eligible record, and by the event at a slot. -/
theorem dispatchAndSlots : Obligations.DispatchAndSlots := by
  refine ⟨fun s tile slot r => ?dispatch, ?refill, ?block, ?rotate⟩
  case dispatch =>
    intro n ho hf hb hs s0 q
    have hs0 : s0 = s.unheld n r := rfl
    have hq : q = r.unheld := rfl
    clear_value s0 q
    subst hs0 hq
    refine ⟨?resume, ?prepared, ?pool⟩
    case resume =>
      intro t t1 u s1 s2 hr ht h1 h2
      rw [← r.unheld_key] at ht
      exact ⟨u.resumed slot, u.resumes_resumed slot,
        completes_dispatch ho hf hb ((State.dispatchRec_resume hs hr).trans (State.dispatchResume_fetched ht h1 h2))⟩
    case prepared =>
      intro x y s1 s2 hr hfit hp sw hw h0 hd hnew h1
      simp only [sw, ← r.unheld_key] at hw h0 hnew h1
      have hstart := State.dispatchRec_start (slot := slot) hs hr hfit
      rw [hp, if_pos rfl, State.dispatchPrepared_read hw h0 hd hnew h1] at hstart
      exact ⟨r.unheld.prepared n slot x y, Starts.of_unheld (Strand.starts_start ..), r.unheld_key, congrArg (itemSupv · n) r.unheld_asid,
        completes_dispatch ho hf hb hstart⟩
    case pool =>
      intro p frame low s1 s2 hr hfit hp who e hpool hgood hhome hbar hfree hchg hpop s3 s4 key x s5 hx s6 hw
      have hstart := State.dispatchRec_start (slot := slot) hs hr hfit
      have hrec := State.dispatchPool_popped (s := s.unheld n r) (s1 := s1) (s2 := s2) (s5 := s5) (n := n) (slot := slot) (r := r.unheld)
        (p := p) (x := x) (frame := frame) (low := low)
      simp only [Rec.unheld_asid, Rec.unheld_cgrp, Rec.unheld_entry, Rec.unheld_key, Rec.unheld_poolKey] at hrec
      rw [hp, if_neg Bool.false_ne_true, hrec hpool hgood hhome hbar hfree hchg hpop hx hw] at hstart
      exact ⟨r.unheld.pooled n slot frame, Starts.of_unheld (Strand.starts_start ..), r.unheld_poolKey frame, rfl,
        congrArg (fun key => some (frameVA key)) r.unheld_key, frameSeed_toNat frame, completes_dispatch ho hf hb hstart⟩
  case refill => exact fun s tile r j hroom ho hr hj hgood hbar => completes_dequeRefill hroom ho hr hj hgood hbar
  case block =>
    exact fun s key t w ht hact hw hb hn hlate hpieces hsecond => completes_blockDeactivate ht hact hlate hpieces hsecond hw hb hn
  case rotate =>
    exact fun s key t r ht hact hlate hpieces hsecond hw hn he hk hres hpk hr hel hp =>
      completes_slotRotation ht hact hlate hpieces hsecond hw hn he hk hres hpk hr hel hp

end Sys2Proof.Machine
end

section
/-!
SUPPORT and the refutation of the host commands (R333): the record of RESUME commands that wait is read before a queue's head, and nothing in the
statement keeps the two in step.
-/

namespace Sys2Proof.Machine

/-- An idle queue 0 with a RESUME of space 0 at its head, while an earlier RESUME of that queue and space is still recorded as waiting. Space 0
is in: it is neither out nor being pre-empted. -/
def resumeTwice : State :=
  { State.reset with
    phase := .running
    mem := [(Config.hostBase, 4)]
    queues := State.reset.queues.set 0 { base := 0, size := 2, head := 0, tail := 1, busy := false }
    resumes := [(0, { queue := 0, done := 0 })] }

/-- The command at its head. -/
def resumeTwiceCmd : Cmd := { queue := 0, raw := resumeTwice.homeRead Config.hostBase 128 }

theorem atHead_resumeTwice : AtHead resumeTwice 0 resumeTwiceCmd 4 := ⟨rfl, rfl, by decide +kernel, fun _ => by decide +kernel⟩

/-- The event serves the RESUME that waits, which has nothing to do, and leaves the head where it is. -/
theorem exec_resumeTwice : exec (.resume 0) resumeTwice = .next resumeTwice := rfl

@[simp] theorem State.homeFill_queues (s : State) (n : Nat) : (s.homeFill n).queues = s.queues := by unfold State.homeFill; split <;> rfl
@[simp] theorem State.homeWriteLine_queues (s : State) (n : Nat) (m : MaskV) (x : Line) : (s.homeWriteLine n m x).queues = s.queues := by
  simp [State.homeWriteLine]
@[simp] theorem State.homeWrite_queues (s : State) (pa n v : Nat) : (s.homeWrite pa n v).queues = s.queues := by
  unfold State.homeWrite; split <;> simp

/-- An answered command leaves the head of its queue. -/
theorem State.answerCmd_head (s : State) (c : CmdRef) (status : Nat) :
    (s.answerCmd c status).queues[c.queue].head =
      BitVec.ofNat 64 ((s.queues[c.queue].head.toNat + 1) % (if s.queues[c.queue].size = 0 then 1 else s.queues[c.queue].size.toNat)) := by
  simp [State.answerCmd, State.modQueue]

/-- An instruction has one outcome: its effect leaves the queues as its run does. -/
theorem Completes.queues_eq {i : Instr} {s t u : State} (h : Completes i s t) (hu : exec i s = .next u) : t.queues = u.queues := by
  have he : u = { t with ended := .ok } := Host.Outcome.next.inj (hu.symm.trans h)
  rw [he]

/-- Refutes O52 in its clause on RESUME for a space that is in: the command at the head of `resumeTwice`'s idle queue is not answered, because the
event takes the RESUME that the machine still has recorded for that queue. The clause for a space that is out asks for no such record. -/
theorem not_hostCommands : ¬ Obligations.HostCommands := by
  rintro ⟨-, -, -, -, -, -, hresume, -⟩
  obtain ⟨-, hin⟩ := hresume resumeTwice 0 resumeTwiceCmd atHead_resumeTwice
  have hqueues := (hin (by decide +kernel) (by decide +kernel)).queues_eq exec_resumeTwice
  have hmoved : (resumeTwice.answerCmd resumeTwiceCmd.ref 1).queues[(0 : Fin 4)].head = 1 := resumeTwice.answerCmd_head resumeTwiceCmd.ref 1
  rw [hqueues] at hmoved
  exact absurd hmoved (by decide)

end Sys2Proof.Machine
end

section
/-!
SUPPORT. The homes after a write (R112, R140): the bytes just put into a line read back, and every other byte is served as before.
-/

namespace Sys2Proof.Machine

/-! ### Bytes of a line (R112, R140) -/

theorem testBit_byteMask (n m i : Nat) : (byteMask n m).testBit i = (decide (i < 8 * n) && m.testBit (i / 8)) := by
  induction n generalizing m i with
  | zero => simp [byteMask]
  | succ n ih =>
    have hlow : (if m % 2 = 1 then 255 else 0) < 2 ^ 8 := by split <;> omega
    rw [byteMask, Nat.add_comm, show 256 * byteMask n (m / 2) = 2 ^ 8 * byteMask n (m / 2) by rfl, Nat.testBit_two_pow_mul_add _ hlow]
    split
    next hi =>
      have h0 : i / 8 = 0 := by omega
      have h1 : i < 8 * (n + 1) := by omega
      rw [h0, Nat.testBit_zero]
      split
      next hm => rw [show 255 = 2 ^ 8 - 1 by rfl, Nat.testBit_two_pow_sub_one]; simp [hi, hm, h1]
      next hm => simp [hm]
    next hi =>
      obtain ⟨j, rfl⟩ : ∃ j, i = j + 8 := ⟨i - 8, by omega⟩
      have hlt : j < 8 * n ↔ j + 8 < 8 * (n + 1) := by omega
      rw [ih, show (j + 8) / 8 = j / 8 + 1 by omega, Nat.testBit_succ, Nat.add_sub_cancel]
      simp only [hlt]

theorem getLsbD_spread {m : MaskV} {i : Nat} (h : i < 1024) : (spread m).getLsbD i = m.getLsbD (i / 8) := by
  rw [spread, BitVec.getLsbD_ofNat, testBit_byteMask, decide_eq_true h, Bool.true_and, Bool.true_and]
  rfl

/-- A merged line has the new bytes where the mask names them, the old ones elsewhere. -/
theorem getLsbD_mergeLine {m : MaskV} {new old : Line} {i : Nat} (h : i < 1024) :
    (mergeLine m new old).getLsbD i = if m.getLsbD (i / 8) then new.getLsbD i else old.getLsbD i := by
  simp only [mergeLine, BitVec.getLsbD_or, BitVec.getLsbD_and, BitVec.getLsbD_not, getLsbD_spread h, h, decide_true, Bool.true_and]
  cases m.getLsbD (i / 8) <;> simp

theorem getLsbD_lineMask {off n j : Nat} (h : off + n ≤ 128) : (lineMask off n).getLsbD j = (decide (off ≤ j) && decide (j < off + n)) := by
  simp only [lineMask, BitVec.getLsbD_shiftLeft, BitVec.getLsbD_setWidth, BitVec.getLsbD_allOnes, ← Bool.decide_and, ← decide_not]
  exact decide_eq_decide.mpr (by omega)

theorem getLsbD_linePut {off v i : Nat} (h : i < 1024) (ho : 8 * off ≤ i) : (linePut off v).getLsbD i = v.testBit (i - 8 * off) := by
  simp only [linePut, BitVec.getLsbD_ofNat, Nat.testBit_shiftLeft, h, ho, decide_true, Bool.true_and]

theorem testBit_lineBytes (x : Line) (off n j : Nat) : (lineBytes x off n).testBit j = (decide (j < 8 * n) && x.getLsbD (8 * off + j)) :=
  BitVec.getLsbD_extractLsb' ..

/-- The bytes just put into a line read back. -/
theorem lineBytes_mergeLine_same {off n : Nat} (x : Line) (v : Nat) (h : off + n ≤ 128) :
    lineBytes (mergeLine (lineMask off n) (linePut off (v % 256 ^ n)) x) off n = v % 256 ^ n := by
  refine Nat.eq_of_testBit_eq fun j => ?_
  rw [testBit_lineBytes, show 256 ^ n = 2 ^ (8 * n) by rw [Nat.pow_mul], Nat.testBit_mod_two_pow]
  by_cases hj : j < 8 * n
  · have hin : off ≤ (8 * off + j) / 8 ∧ (8 * off + j) / 8 < off + n := by omega
    rw [getLsbD_mergeLine (by omega), getLsbD_lineMask h, getLsbD_linePut (by omega) (by omega), Nat.add_sub_cancel_left,
      Nat.testBit_mod_two_pow]
    simp only [hin, hj, decide_true, Bool.and_self, Bool.true_and, if_true]
  · simp only [hj, decide_false, Bool.false_and]

/-- A byte outside those just put into a line is as it was. -/
theorem lineBytes_mergeLine_other {off n b : Nat} (x y : Line) (h : off + n ≤ 128) (hb : b < 128) (ho : b < off ∨ off + n ≤ b) :
    lineBytes (mergeLine (lineMask off n) y x) b 1 = lineBytes x b 1 := by
  refine Nat.eq_of_testBit_eq fun j => ?_
  simp only [testBit_lineBytes]
  by_cases hj : j < 8 * 1
  · have hout : ¬ (off ≤ (8 * b + j) / 8 ∧ (8 * b + j) / 8 < off + n) := by omega
    rw [getLsbD_mergeLine (by omega), getLsbD_lineMask h, ← Bool.decide_and, decide_eq_false hout, if_neg Bool.false_ne_true]
  · simp only [hj, decide_false, Bool.false_and]

/-! ### Writes at a home (R112) -/

theorem L2Line.addr_of_find? {l : List L2Line} {k : Nat} {e : L2Line} (h : (l.find? fun e => e.addr = k) = some e) : e.addr = k := by
  simpa using List.find?_some h

/-- A home holds a line that it has filled, with the bytes that it serves. -/
theorem State.homeFill_holds (s : State) (line : Nat) :
    ∃ e, (s.homeFill line).l2.find? (fun e => e.addr = line) = some e ∧ e.data = s.homeLine line := by
  unfold State.homeFill State.homeLine
  split
  next h =>
    obtain ⟨e, he⟩ := Option.isSome_iff_exists.mp h
    exact ⟨e, he, by rw [he]⟩
  next h =>
    rw [Option.not_isSome_iff_eq_none] at h
    exact ⟨_, List.find?_cons_of_pos (by simp), by rw [h]⟩

/-- A line at its home after a write to line `line`. -/
def L2Line.write (line : Nat) (m : MaskV) (x : Line) (e : L2Line) : L2Line :=
  if e.addr = line then { e with dirty := e.dirty ||| granules m, data := mergeLine m x e.data } else e

theorem State.homeWriteLine_l2 (s : State) (line : Nat) (m : MaskV) (x : Line) :
    (s.homeWriteLine line m x).l2 = (s.homeFill line).l2.map (L2Line.write line m x) := rfl

@[simp] theorem L2Line.write_addr (line : Nat) (m : MaskV) (x : Line) (e : L2Line) : (e.write line m x).addr = e.addr := by
  unfold L2Line.write; split <;> rfl
theorem L2Line.write_data {line : Nat} (m : MaskV) (x : Line) {e : L2Line} (h : e.addr = line) :
    (e.write line m x).data = mergeLine m x e.data := by rw [L2Line.write, if_pos h]
theorem L2Line.write_other {line : Nat} (m : MaskV) (x : Line) {e : L2Line} (h : e.addr ≠ line) : e.write line m x = e := if_neg h

theorem State.find?_homeWriteLine (s : State) (line k : Nat) (m : MaskV) (x : Line) :
    ((s.homeWriteLine line m x).l2.find? fun e => e.addr = k) =
      ((s.homeFill line).l2.find? fun e => e.addr = k).map (L2Line.write line m x) := by
  rw [State.homeWriteLine_l2, List.find?_map]
  simp only [Function.comp_def, L2Line.write_addr]

theorem State.homeLine_homeWriteLine_same (s : State) (line : Nat) (m : MaskV) (x : Line) :
    (s.homeWriteLine line m x).homeLine line = mergeLine m x (s.homeLine line) := by
  obtain ⟨e, he, hdata⟩ := s.homeFill_holds line
  have haddr : e.addr = line := L2Line.addr_of_find? he
  rw [State.homeLine, State.find?_homeWriteLine, he, ← hdata]
  exact L2Line.write_data m x haddr

theorem State.homeLine_homeWriteLine_other {s : State} {line k : Nat} (h : k ≠ line) (m : MaskV) (x : Line) :
    (s.homeWriteLine line m x).homeLine k = s.homeLine k := by
  rw [← s.homeLine_homeFill line k, State.homeLine, State.homeLine, State.find?_homeWriteLine]
  cases he : (s.homeFill line).l2.find? fun e => e.addr = k with
  | none => rfl
  | some e =>
    have haddr : e.addr = k := L2Line.addr_of_find? he
    rw [Option.map_some, L2Line.write_other m x (haddr ▸ h)]

section
variable {pa n : Nat} (hline : pa % 128 + n ≤ 128)
include hline

theorem State.homeWrite_line (s : State) (v : Nat) :
    s.homeWrite pa n v = s.homeWriteLine (pa / 128) (lineMask (pa % 128) n) (linePut (pa % 128) (v % 256 ^ n)) := if_pos hline

/-- Bytes written at a home read back. -/
theorem State.homeRead_homeWrite_same (s : State) (v : Nat) : (s.homeWrite pa n v).homeRead pa n = v % 256 ^ n := by
  rw [State.homeRead, if_pos hline, State.homeWrite_line hline, State.homeLine_homeWriteLine_same, lineBytes_mergeLine_same _ _ hline]

/-- A byte outside those written is served as before. -/
theorem State.homeRead_homeWrite_other (s : State) (v : Nat) {b : Nat} (hb : b < pa ∨ pa + n ≤ b) :
    (s.homeWrite pa n v).homeRead b 1 = s.homeRead b 1 := by
  have hone : b % 128 + 1 ≤ 128 := by omega
  rw [State.homeRead, State.homeRead, if_pos hone, if_pos hone, State.homeWrite_line hline]
  by_cases hk : b / 128 = pa / 128
  · rw [hk, State.homeLine_homeWriteLine_same, lineBytes_mergeLine_other _ _ hline (by omega) (by omega)]
  · rw [State.homeLine_homeWriteLine_other hk]

end

end Sys2Proof.Machine
end

section
/-!
SUPPORT and the proofs of the atomics and the return-free reductions (R135, R136, R141, R223–R225): the meaning that the atomic instructions share,
what a translation changes, and what an atomic leaves at its tile and at its home.
-/

namespace Sys2Proof.Machine

/-! ### The meaning of an atomic instruction (R223, R224) -/

/-- What an instruction that asks for an atomic does. -/
def Atomic.act (m : Atomic) : M Unit := atomic m.a m.n m.sem m.sc m.req.op m.req.data m.new m.put

/-- `F`, which wraps at the width, makes of two values what the integers do with `G` (R223). -/
def WrapsAs (F : Nat → Nat → Nat → Nat) (G : Nat → Nat → Nat → Int) : Prop :=
  ∀ n x y : Nat, (G (8 * n) x y % 256 ^ n).toNat = F (8 * n) x y % 256 ^ n

theorem toNat_natCast_emod (x n : Nat) : ((x : Int) % 256 ^ n).toNat = x % 256 ^ n := by
  rw [← Int.toNat_natCast (x % 256 ^ n), Int.natCast_emod, Int.natCast_pow]
  rfl

theorem wrapsAs_natCast (F : Nat → Nat → Nat → Nat) : WrapsAs F fun w x y => (F w x y : Nat) := fun _ _ _ => toNat_natCast_emod ..

/-- A value and the integer that its low bits stand for differ by whole turns. -/
theorem sint_emod (n x : Nat) : sint (8 * n) x % 256 ^ n = (x : Int) % 256 ^ n := by
  have hpow : ((2 ^ (8 * n) : Nat) : Int) = 256 ^ n := by rw [Nat.pow_mul, Int.natCast_pow]; rfl
  unfold sint
  split
  · rw [Int.natCast_emod, hpow, Int.emod_emod]
  · rw [Int.natCast_emod, hpow, Int.sub_emod_right, Int.emod_emod]

theorem sint_toNat (n x : Nat) : (sint (8 * n) x % 256 ^ n).toNat = x % 256 ^ n := by rw [sint_emod, toNat_natCast_emod]

theorem wrapsAs_max : WrapsAs (fun w x y => if sint w x < sint w y then y else x) fun w x y => max (sint w x) (sint w y) := by
  intro n x y
  dsimp only
  split
  next h => rw [Int.max_eq_right (Int.le_of_lt h), sint_toNat]
  next h => rw [Int.max_eq_left (Int.not_lt.mp h), sint_toNat]

theorem wrapsAs_min : WrapsAs (fun w x y => if sint w y < sint w x then y else x) fun w x y => min (sint w x) (sint w y) := by
  intro n x y
  dsimp only
  split
  next h => rw [Int.min_eq_right (Int.le_of_lt h), sint_toNat]
  next h => rw [Int.min_eq_left (Int.not_lt.mp h), sint_toNat]

section
variable {s : State} {op : Nat} {d a b : GReg} {sem : Sem} {sc : Scope}

theorem amoInt_eq {F : Nat → Nat → Nat → Nat} {G : Nat → Nat → Nat → Int} {zext : Bool} {ty : AmoTy} (h : WrapsAs F G) :
    run (amoInt op zext F d a b ty sem sc) s = run (integerAtomic s op zext G d a b ty sem sc).act s := by
  have hnew : (integerAtomic s op zext G d a b ty sem sc).new =
      fun x => some (F (8 * amoBytes ty) x ((s.g b).toNat % 256 ^ amoBytes ty) % 256 ^ amoBytes ty) :=
    funext fun x => congrArg some (h ..)
  unfold Atomic.act
  rw [hnew]
  rfl

end

/-- An atomic instruction does what `atomicOf` says of it; its request carries its order and scope. -/
theorem exec_atomic {i : Instr} {s : State} {m : Atomic} (h : atomicOf i s = some m) :
    exec i s = run m.act s ∧ m.req = amoReqOf m.req.op m.sem m.sc m.req.data := by
  cases i <;> simp only [atomicOf, Option.some.injEq, reduceCtorEq] at h <;> subst h
  case amoadd => exact ⟨amoInt_eq (wrapsAs_natCast fun _ x y => x + y), rfl⟩
  case amoand => exact ⟨amoInt_eq (wrapsAs_natCast fun _ x y => x &&& y), rfl⟩
  case amoor => exact ⟨amoInt_eq (wrapsAs_natCast fun _ x y => x ||| y), rfl⟩
  case amoxor => exact ⟨amoInt_eq (wrapsAs_natCast fun _ x y => x ^^^ y), rfl⟩
  case amomax => exact ⟨amoInt_eq wrapsAs_max, rfl⟩
  case amomin => exact ⟨amoInt_eq wrapsAs_min, rfl⟩
  case amomaxu => exact ⟨amoInt_eq (wrapsAs_natCast fun _ x y => Nat.max x y), rfl⟩
  case amominu => exact ⟨amoInt_eq (wrapsAs_natCast fun _ x y => Nat.min x y), rfl⟩
  all_goals exact ⟨rfl, rfl⟩

/-- A part that is there only under a condition, and what follows it. -/
theorem M.ite_bind_ok {α : Type} {c : Prop} [Decidable c] {m : M Unit} {k : Unit → M α} {s t : State} (h : if c then m s = .ok () t else t = s) :
    (if c then m >>= k else k ()) s = k () t := by
  split at h
  next hc => rw [if_pos hc, M.bind_ok h]
  next hc => rw [if_neg hc, h]

/-- The parts of an atomic that passes its checks, in order. -/
theorem Atomic.act_ok {m : Atomic} {s0 s1 s2 s3 : State} {l r : List Piece} {old : Nat} (hreq : m.req = amoReqOf m.req.op m.sem m.sc m.req.data)
    (ha : m.a.toNat % m.n = 0) (hc : Checked { s0 with part := none } s1 (amoChecks m.a m.n m.sc) [l, r])
    (hr : if semReleases m.sem then Releases s1 s2 m.sc else s2 = s1) (ho : amoAt l r m.a m.n m.sc m.req m.new s2 = .ok old s3) :
    m.act s0 = .ok () (m.put old (if semAcquires m.sem then s3.acquire m.sc else s3)) := by
  unfold Atomic.act atomic
  rw [M.bind_ok (t := s0) (a := ()) (by rw [ha]; rfl), M.bind_ok (M.modify_apply _ s0), M.bind_ok hc]
  refine (M.ite_bind_ok hr).trans ?_
  rw [hreq] at ho
  refine (M.bind_ok ho).trans ?_
  split <;> rfl

/-! ### What a translation changes (R97, R118) -/

theorem State.cachedLeaf_cases {s t : State} {tile : Nat} {asid : BitVec 12} {va : Nat} {e : Tlb} (h : s.cachedLeaf tile asid va = some (e, t)) :
    (∃ x, t = s.setTile tile x) ∨ t = s.fillTlb tile e := by
  unfold State.cachedLeaf at h
  extract_lets u at h
  split at h
  · cases h; exact .inl ⟨_, rfl⟩
  · split at h
    · cases h; exact .inl ⟨_, rfl⟩
    · split at h <;> cases h
      exact .inr rfl

/-- A leaf is charged already, or its charge entry and its own entry are written at their homes. -/
theorem chargeLeaf_cases {s t : State} {w : Who} {size : Nat} {leaf x : Word} {leafpa : Nat} (h : chargeLeaf s w size leaf leafpa = .ok (x, t)) :
    t = s ∨ ∃ pa used, t = (s.setUsed pa used).homeWrite leafpa 8 x.toNat := by
  unfold chargeLeaf at h
  split at h
  · cases h; exact .inl rfl
  · extract_lets pa leaf' at h
    split at h
    · cases h; exact .inl rfl
    · split at h
      · cases h
      · split at h
        · cases h
        · split at h
          · cases h
          · obtain ⟨rfl, rfl⟩ := Prod.mk.inj (Except.ok.inj h)
            exact .inr ⟨_, _, rfl⟩

/-- A translation is served by a cached leaf, or by a walk, which charges its leaf and caches it. -/
theorem translate_cases {s t : State} {w : Who} {va : Nat} {x : Xl} (h : translate s w va = .ok (x, t)) :
    (∃ e, s.cachedLeaf w.tile w.asid va = some (e, t)) ∨
    ∃ seen size leaf leafpa charged u e, chargeLeaf { s with walker := seen } w size leaf leafpa = .ok (charged, u) ∧ t = u.fillTlb w.tile e := by
  unfold translate at h
  extract_lets ans fresh at h
  have hfresh (h : fresh = .ok (x, t)) : ∃ seen size leaf leafpa charged u e,
      chargeLeaf { s with walker := seen } w size leaf leafpa = .ok (charged, u) ∧ t = u.fillTlb w.tile e := by
    simp only [fresh] at h
    split at h
    · cases h
    · split at h
      · cases h
      · split at h
        · cases h
        · split at h <;> cases h
          next hc => exact ⟨_, _, _, _, _, _, _, hc, rfl⟩
  split at h
  next hc =>
    split at h
    · cases h; exact .inl ⟨_, hc⟩
    · exact .inr (hfresh h)
  · exact .inr (hfresh h)

@[simp] theorem State.fillTlb_me (s : State) (tile : Nat) (e : Tlb) : (s.fillTlb tile e).me = s.me := rfl

theorem translate_me {s t : State} {w : Who} {va : Nat} {x : Xl} (h : translate s w va = .ok (x, t)) : t.me = s.me := by
  obtain ⟨e, hc⟩ | ⟨seen, size, leaf, leafpa, charged, u, e, hc, rfl⟩ := translate_cases h
  · obtain ⟨y, rfl⟩ | rfl := State.cachedLeaf_cases hc <;> rfl
  · obtain rfl | ⟨pa, used, rfl⟩ := chargeLeaf_cases hc
    · rfl
    · simp [State.setUsed]

theorem xlate_me {s t : State} {w : Who} {a : Word} {x : Xl} (h : xlate w a s = .ok x t) : t.me = s.me := by
  unfold xlate at h
  rw [M.bind_ok (M.get_apply s)] at h
  dsimp only at h
  rw [M.bind_ok (M.set_apply s _)] at h
  generalize hr : translate _ _ _ = r at h
  cases r with
  | ok p =>
    cases h
    have hme := translate_me hr
    exact hme
  | error e => cases h

/-! ### Reductions (R225) -/

section
variable {s s1 : State} {op : Nat} {a b : GReg} {ty : AmoTy} {x : Xl}

theorem reduceN_ok (hcanon : canon (s.g a) = true) (halign : (s.g a).toNat % amoBytes ty = 0) (hscr : isScratch (s.g a).toNat = false)
    (hx : xlate s.whoStore (s.g a) s = .ok x s1) (hwin : s1.win x.pa = .inter ∨ ∃ st o, s1.win x.pa = .near st o) (hmt : x.mt ≤ 1)
    (hroom : s1.rednInFlight < 256) (hcrowd : s1.crowded .req (1025 + slice x.pa) = false) :
    let t := s1.send .req s1.here 1024 (.redn s.me.key x.pa op (amoBytes ty == 8) (BitVec.ofNat 64 ((s.g b).toNat % 256 ^ amoBytes ty)))
    reduceN op a b ty s = .ok () { t with me := { t.me with redn := t.me.redn + 1 } } := by
  obtain ⟨hno, hhost⟩ : s1.noWindow x.pa = false ∧ (s1.win x.pa == .host) = false := by
    obtain h | ⟨st, o, h⟩ := hwin <;> simp [State.noWindow, h]
  have hplain : (s1.win x.pa == .host || x.mt == 2 || x.mt == 3) = false := by
    rw [hhost, beq_eq_false_iff_ne.mpr (by omega), beq_eq_false_iff_ne.mpr (by omega)]; rfl
  have hgo : (decide (256 ≤ s1.rednInFlight) || s1.crowded .req (1025 + slice x.pa)) = false := by
    rw [hcrowd, decide_eq_false (by omega)]; rfl
  rw [← xlate_me hx]
  unfold reduceN
  rw [M.bind_ok (M.get_apply s)]
  dsimp only
  rw [M.bind_ok (t := s) (a := ()) (by rw [halign]; rfl), M.bind_ok (t := s) (a := ()) (by rw [hscr]; rfl),
    M.bind_ok (t := s) (a := ()) (by rw [hcanon]; rfl), M.bind_ok hx, M.bind_ok (M.get_apply s1),
    M.bind_ok (t := s1) (a := ()) (by rw [hno]; rfl), M.bind_ok (t := s1) (a := ()) (by rw [hplain]; rfl),
    M.bind_ok (t := s1) (a := ()) (by rw [hgo]; rfl)]
  obtain h | ⟨st, o, h⟩ := hwin <;> rw [h] <;> rfl

end

/-! ### The statement on what completes -/

/-- Settles O31: an atomic part by part, whatever its operation; a reduction check by check, up to its request. -/
theorem atomicsComplete : Obligations.AtomicsComplete := by
  refine ⟨fun i s0 s s1 s2 s3 m l r old hs hi ha hc hr ho => ?_, fun i s s1 op va n v x hi _ hcanon halign hscr hx hwin hmt hroom hcrowd => ?_⟩
  · subst hs
    obtain ⟨he, hreq⟩ := exec_atomic hi
    exact completes_of_run he (Atomic.act_ok hreq ha hc hr ho)
  · cases i <;> simp only [reductionOf, Option.some.injEq, Prod.mk.injEq, reduceCtorEq] at hi
    all_goals
      obtain ⟨rfl, rfl, rfl, rfl⟩ := hi
      exact completes_of_run rfl (reduceN_ok hcanon halign hscr hx hwin hmt hroom hcrowd)

/-! ### Atomics at the tile and at a home (R136) -/

theorem amoAt_scratch {s : State} {a : Word} {off n : Nat} (sc : Scope) (q : AmoReq) (f : Nat → Option Nat) (hp : s.piecewise = false)
    (hgood : s.myTile.scrBad off n = false) :
    amoAt [{ va := a, len := n, place := .scr off }] [{ va := a, len := n, place := .scr off }] a n sc q f s = .ok (s.myTile.scrRead off n)
      (match f (s.myTile.scrRead off n) with
        | some new => s.modMyTile fun t => t.scrWrite off n (new % 256 ^ n)
        | none => s) := by
  have hload : memLoad s.whoLoad [{ va := a, len := n, place := .scr off }] s = .ok { val := s.myTile.scrRead off n, bad := false } s := by
    rw [memLoad_scratch hp, ← hgood]; rfl
  show amoTile a _ _ f s = _
  unfold amoTile
  rw [M.bind_ok (M.get_apply s), M.bind_ok hload]
  dsimp only
  rw [if_neg Bool.false_ne_true]
  cases hf : f (s.myTile.scrRead off n) with
  | none => rfl
  | some new => exact M.bind_ok (memStore_scratch hp)

/-- The state after a home has performed an atomic that makes `f` of its location. -/
def State.amoDone (s : State) (pa n : Nat) (f : Nat → Option Nat) : State :=
  match f (s.homeRead pa n) with
  | some new => s.homeWrite pa n new
  | none => s.homeFill (pa / 128)

section
variable {s : State} {pa n : Nat} {q : AmoReq} {f : Nat → Option Nat}

theorem State.served_amo {src dst : Nat} (hheld : s.heldAtHome pa = false) (hgood : s.badIn pa n = false) (hf : atHomeOf q n = some f) :
    s.served src dst (.amo pa n q.op q.data) = some (.old (s.homeRead pa n), s.amoDone pa n f) := by
  have hop : (portAtomic (q.op / 64) (q.op / 8 % 8) (q.op % 8) n q.data).bind (fun f => f (s.homeRead pa n)) = f (s.homeRead pa n) :=
    congrArg (Option.bind · _) hf
  cases hv : f (s.homeRead pa n) <;>
    simp only [State.served, HomeOp.pa?, Option.any_some, hheld, hgood, hop, State.amoDone, hv, Bool.false_eq_true, if_false]

/-- A request that need not travel is answered in its step, as its home serves it. -/
theorem amoHome_atOnce {s1 : State} {a : Word} {old : Nat} (h : AtOnce s (.amo pa n q.op q.data))
    (hs : s.served s.here 1024 (.amo pa n q.op q.data) = some (.old old, s1)) : amoHome a pa n q s = .ok old s1 := by
  obtain ⟨hasks, hcrowd, htravels⟩ := h
  have hask := State.ask_served (List.find?_eq_none.mpr fun m hm => Bool.eq_false_iff.mp (hasks m hm)) hcrowd htravels hs
  unfold amoHome
  rw [M.bind_ok (asked_served hask)]
  rfl

theorem State.amoDone_mem : (s.amoDone pa n f).mem = s.mem := by unfold State.amoDone; split <;> simp
theorem State.amoDone_me : (s.amoDone pa n f).me = s.me := by unfold State.amoDone; split <;> simp

section
variable (hline : pa % 128 + n ≤ 128)
include hline

theorem State.homeRead_amoDone_same : (s.amoDone pa n f).homeRead pa n =
    match f (s.homeRead pa n) with | some new => new % 256 ^ n | none => s.homeRead pa n := by
  unfold State.amoDone
  split
  next new _ => exact State.homeRead_homeWrite_same hline s new
  next => exact State.homeRead_homeFill ..

theorem State.homeRead_amoDone_other {b : Nat} (hb : b < pa ∨ pa + n ≤ b) : (s.amoDone pa n f).homeRead b 1 = s.homeRead b 1 := by
  unfold State.amoDone
  split
  next new _ => exact State.homeRead_homeWrite_other hline s new hb
  next => exact State.homeRead_homeFill ..

end
end

/-! ### A home does what the tile does (R136, R328) -/

theorem bytesNat_natBytes (n x : Nat) : bytesNat (natBytes n x) = x % 256 ^ n := by
  induction n generalizing x with
  | zero => simp [natBytes, bytesNat, Nat.mod_one]
  | succ n ih =>
    rw [natBytes, bytesNat, ih, BitVec.toNat_ofNat, show 2 ^ 8 = 256 by rfl, Nat.pow_succ', Nat.mod_mul]

@[simp] theorem length_natBytes (n x : Nat) : (natBytes n x).length = n := by
  induction n generalizing x with
  | zero => rfl
  | succ n ih => rw [natBytes, List.length_cons, ih]

theorem take_natBytes (n x : Nat) : (natBytes n x).take n = natBytes n x := List.take_of_length_le (Nat.le_of_eq (length_natBytes n x))

/-- A home makes of a cell what the tile makes of it, but for what lies past the width. -/
def SameAtHome (m : Atomic) : Prop :=
  ∃ f, atHomeOf m.req m.n = some f ∧ ∀ x < 256 ^ m.n, (f x).map (· % 256 ^ m.n) = (m.new x).map (· % 256 ^ m.n)

theorem amoReg_lt (s : State) (r : GReg) (ty : AmoTy) : amoReg s r ty < 256 ^ amoBytes ty := by
  cases ty with
  | w32 => exact Nat.mod_lt _ (by decide)
  | w64 => exact (s.g r).isLt
  | w128 =>
    have h0 := (s.g r).isLt
    have h1 := (s.g (r + 1)).isLt
    simp only [amoReg, amoBytes]
    omega

theorem bytesNat_natBytes_amoReg (s : State) (r : GReg) (ty : AmoTy) : bytesNat (natBytes (amoBytes ty) (amoReg s r ty)) = amoReg s r ty := by
  rw [bytesNat_natBytes, Nat.mod_eq_of_lt (amoReg_lt ..)]

/-- The fields of OP, as the home reads them (R328). -/
theorem atHomeOf_memoOp (major : Nat) {op : Nat} (h : op < 8) (ty : AmoTy) (sem : Sem) (sc : Scope) (data : List Byte) (n : Nat) :
    atHomeOf (amoReqOf (memoOp major op ty) sem sc data) n = portAtomic major op (memoOp 0 0 ty) n data := by
  have hty : memoOp 0 0 ty < 8 := by cases ty <;> decide
  have hop : memoOp major op ty = major * 64 + op * 8 + memoOp 0 0 ty := by cases ty <;> rfl
  rw [atHomeOf, amoReqOf, hop, show (major * 64 + op * 8 + memoOp 0 0 ty) / 64 = major by omega,
    show (major * 64 + op * 8 + memoOp 0 0 ty) / 8 % 8 = op by omega, show (major * 64 + op * 8 + memoOp 0 0 ty) % 8 = memoOp 0 0 ty by omega]

theorem WrapsAs.mod {F : Nat → Nat → Nat → Nat} {G : Nat → Nat → Nat → Int} (h : WrapsAs F G) : WrapsAs (fun w x y => F w x y % 2 ^ w) G := by
  intro n x y
  dsimp only
  rw [h, Nat.pow_mul, Nat.mod_mod]

section
variable {s : State} {d a b : GReg} {sem : Sem} {sc : Scope}

theorem integerAtomic_sameAtHome {op : Nat} {F : Nat → Nat → Nat → Nat} {G : Nat → Nat → Nat → Int} {zext : Bool} {ty : AmoTy} (h : WrapsAs F G)
    (hop : op < 8) (hty : ty.narrow = true)
    (h32 : ∀ data, portAtomic 0 op 4 4 data = some fun x => some (F (8 * 4) x (bytesNat (data.take 4))))
    (h64 : ∀ data, portAtomic 0 op 6 8 data = some fun x => some (F (8 * 8) x (bytesNat (data.take 8)))) :
    SameAtHome (integerAtomic s op zext G d a b ty sem sc) := by
  have hport (data : List Byte) : portAtomic 0 op (memoOp 0 0 ty) (amoBytes ty) data =
      some fun x => some (F (8 * amoBytes ty) x (bytesNat (data.take (amoBytes ty)))) := by
    cases ty with
    | w32 => exact h32 data
    | w64 => exact h64 data
    | w128 => cases hty
  refine ⟨_, (atHomeOf_memoOp 0 hop ..).trans (hport _), fun x _ => ?_⟩
  simp only [integerAtomic, take_natBytes, bytesNat_natBytes, Nat.mod_mod, Option.map_some]
  rw [h, Nat.mod_mod]

theorem floatAtomic_sameAtHome {op : Nat} {f : Nat → Nat → Nat} (hop : op < 8)
    (h32 : ∀ data, portAtomic 1 op 4 4 data = some fun x => some (f x (bytesNat (data.take 4)))) :
    SameAtHome (floatAtomic s op f d a b sem sc) := by
  refine ⟨_, (atHomeOf_memoOp 1 hop ..).trans (h32 _), fun x _ => ?_⟩
  simp only [floatAtomic, take_natBytes, bytesNat_natBytes]
  rw [show 256 ^ 4 = 2 ^ 32 by rfl, Nat.mod_mod]

end

theorem amoswap_sameAtHome {s : State} {d a b : GReg} {ty : AmoTy} {sem : Sem} {sc : Scope} {m : Atomic}
    (h : atomicOf (.amoswap d a b ty sem sc) s = some m) : SameAtHome m := by
  cases h
  refine ⟨fun _ => some (amoReg s b ty), ?_, fun _ _ => rfl⟩
  have hport (data : List Byte) : portAtomic 1 0 (memoOp 0 0 ty) (amoBytes ty) data =
      some fun _ => some (bytesNat (data.take (amoBytes ty))) := by cases ty <;> rfl
  rw [atHomeOf_memoOp 1 (by decide), hport, take_natBytes, bytesNat_natBytes_amoReg]

theorem amocas_sameAtHome {s : State} {d a b : GReg} {ty : AmoTy} {sem : Sem} {sc : Scope} {m : Atomic}
    (h : atomicOf (.amocas d a b ty sem sc) s = some m) : SameAtHome m := by
  cases h
  refine ⟨fun x => if x = amoReg s d ty then some (amoReg s b ty) else none, ?_, fun _ _ => rfl⟩
  have hport (data : List Byte) : portAtomic 1 1 (memoOp 0 0 ty) (amoBytes ty) data =
      some fun x => if x = bytesNat ((data.drop (amoBytes ty)).take (amoBytes ty)) then some (bytesNat (data.take (amoBytes ty))) else none := by
    cases ty <;> rfl
  rw [atHomeOf_memoOp 1 (by decide), hport, List.take_left' (length_natBytes ..), List.drop_left' (length_natBytes ..),
    take_natBytes, bytesNat_natBytes_amoReg, bytesNat_natBytes_amoReg]

theorem atomicOf_sameAtHome {i : Instr} {s : State} {m : Atomic} (hwf : i.wf = true) (h : atomicOf i s = some m) : SameAtHome m := by
  cases i <;> simp only [atomicOf, reduceCtorEq] at h
  case amoswap => exact amoswap_sameAtHome h
  case amocas => exact amocas_sameAtHome h
  all_goals obtain rfl := Option.some.inj h
  case amoadd =>
    exact integerAtomic_sameAtHome (wrapsAs_natCast fun _ x y => x + y).mod (by decide) hwf (fun _ => rfl) fun _ => rfl
  case amoand =>
    exact integerAtomic_sameAtHome (wrapsAs_natCast fun _ x y => x &&& y) (by decide) hwf (fun _ => rfl) fun _ => rfl
  case amoor =>
    exact integerAtomic_sameAtHome (wrapsAs_natCast fun _ x y => x ||| y) (by decide) hwf (fun _ => rfl) fun _ => rfl
  case amoxor =>
    exact integerAtomic_sameAtHome (wrapsAs_natCast fun _ x y => x ^^^ y) (by decide) hwf (fun _ => rfl) fun _ => rfl
  case amomax => exact integerAtomic_sameAtHome wrapsAs_max (by decide) hwf (fun _ => rfl) fun _ => rfl
  case amomin => exact integerAtomic_sameAtHome wrapsAs_min (by decide) hwf (fun _ => rfl) fun _ => rfl
  case amomaxu =>
    exact integerAtomic_sameAtHome (wrapsAs_natCast fun _ x y => Nat.max x y) (by decide) hwf (fun _ => rfl) fun _ => rfl
  case amominu =>
    exact integerAtomic_sameAtHome (wrapsAs_natCast fun _ x y => Nat.min x y) (by decide) hwf (fun _ => rfl) fun _ => rfl
  all_goals exact floatAtomic_sameAtHome (by decide) fun _ => rfl

/-! ### The statement on what is read and written -/

/-- Settles O32, by the place of the atomic, then by the instruction whose request a home performs. -/
theorem atomicReadsThenWrites : Obligations.AtomicReadsThenWrites := by
  refine ⟨fun s a off n sc q f hp hgood => amoAt_scratch sc q f hp hgood, fun s a pa n q f hheld hgood _ hline hf => ?_,
    fun i s m hwf h => atomicOf_sameAtHome hwf h⟩
  have hserved := State.served_amo (src := s.here) (dst := 1024) hheld hgood hf
  exact ⟨s.amoDone pa n f, hserved, fun h => amoHome_atOnce h hserved, State.amoDone_mem, State.amoDone_me, State.homeRead_amoDone_same hline,
    fun b hb => State.homeRead_amoDone_other hline hb⟩

end Sys2Proof.Machine
end

section
/-!
SUPPORT and the proof of the vector conversions (R66, R74, R251, R252, R262): the lanes of a line built lane by lane, what the lane loop leaves when
every lane switched on takes one rounding, and the window of lanes that a part takes.
-/

namespace Sys2Proof.Machine

/-! ### Lanes of a line built lane by lane (R66) -/

theorem packN_div_mod (w : Nat) (l : List Nat) (i : Nat) : packN w l / 2 ^ (w * i) % 2 ^ w = (l[i]?).getD 0 % 2 ^ w := by
  induction l generalizing i with
  | nil => simp [packN]
  | cons x r ih =>
    rw [packN]
    cases i with
    | zero => simp
    | succ i =>
      have hx : x % 2 ^ w / 2 ^ w = 0 := Nat.div_eq_of_lt (Nat.mod_lt _ (Nat.two_pow_pos w))
      rw [Nat.mul_succ, Nat.add_comm (w * i), Nat.pow_add, ← Nat.div_div_eq_div_mul, Nat.add_mul_div_left _ _ (Nat.two_pow_pos w), hx, Nat.zero_add, ih]
      rfl

/-- A field of `w` bits at bit `i` that ends within `n` bits sees nothing of what lies above them. -/
theorem toNat_extractLsb'_ofNat {n i w : Nat} (x : Nat) (h : i + w ≤ n) : ((BitVec.ofNat n x).extractLsb' i w).toNat = x / 2 ^ i % 2 ^ w := by
  obtain ⟨k, rfl⟩ := Nat.exists_eq_add_of_le h
  rw [BitVec.extractLsb'_toNat, BitVec.toNat_ofNat, Nat.shiftRight_eq_div_pow, Nat.pow_add, Nat.pow_add, Nat.mul_assoc, Nat.mod_mul_right_div_self,
    Nat.mod_mul_right_mod]

theorem laneAt_ofLanes {w i : Nat} (l : List Nat) (h : w * (i + 1) ≤ 1024) : laneAt (ofLanes w l) w i = (l[i]?).getD 0 % 2 ^ w := by
  rw [laneAt, ofLanes, toNat_extractLsb'_ofNat (i := w * i) _ h, packN_div_mod]

theorem laneAt_mkLanes {w k : Nat} (f : Nat → Nat) (h : k < 1024 / w) : laneAt (mkLanes w f) w k = f k % 2 ^ w := by
  have hk : w * (k + 1) ≤ 1024 := Nat.le_trans (Nat.mul_le_mul_left w h) (Nat.mul_div_le 1024 w)
  rw [mkLanes, laneAt_ofLanes _ hk, List.getElem?_map, List.getElem?_range h]
  rfl

theorem laneAt_mod (x : Line) (w k : Nat) : laneAt x w k % 2 ^ w = laneAt x w k := Nat.mod_eq_of_lt (BitVec.isLt _)

/-! ### Roundings of the lanes switched on, in ascending order (R74, R252) -/

theorem onBelow_succ (on : Nat → Bool) (n : Nat) : onBelow on (n + 1) = onBelow on n + (on n).toNat := by
  cases h : on n <;> simp [onBelow, List.range_succ, h]

/-- What lane `k` holds after a loop whose lanes switched on take one rounding each, from the LFSR's state `l`. -/
def roundedAt (on : Nat → Bool) (old : Nat → Nat) (rm : Rnd) (out : BitVec 32 → Nat → Nat) (l : BitVec 32) (k : Nat) : Nat :=
  if on k then out (seedAfter rm l (onBelow on (k + 1))) k else old k

section
variable (on : Nat → Bool) (old : Nat → Nat) (rm : Rnd) (out : BitVec 32 → Nat → Nat) (l : BitVec 32)

theorem laneLoop_from (n i : Nat) :
    laneLoop on old (fun s k => (out (lfsrAfter rm s) k, lfsrAfter rm s)) n i (seedAfter rm l (onBelow on i)) =
      ((List.range' i n).map (roundedAt on old rm out l), seedAfter rm l (onBelow on (i + n))) := by
  induction n generalizing i with
  | zero => rfl
  | succ n ih =>
    have hcount := onBelow_succ on i
    rw [laneLoop, List.range'_succ, List.map_cons, Nat.add_comm n 1, ← Nat.add_assoc, roundedAt]
    cases hon : on i with
    | true =>
      rw [hon] at hcount
      have hseed : lfsrAfter rm (seedAfter rm l (onBelow on i)) = seedAfter rm l (onBelow on (i + 1)) := by rw [hcount]; rfl
      simp only [↓reduceIte, hseed, ih]
    | false =>
      rw [hon] at hcount
      have hseed : onBelow on i = onBelow on (i + 1) := hcount.symm
      simp only [Bool.false_eq_true, ↓reduceIte, hseed, ih]

theorem laneLoop_rounded (n : Nat) :
    laneLoop on old (fun s k => (out (lfsrAfter rm s) k, lfsrAfter rm s)) n 0 l =
      ((List.range n).map (roundedAt on old rm out l), seedAfter rm l (onBelow on n)) := by
  have h := laneLoop_from on old rm out l n 0
  rwa [← List.range_eq_range', Nat.zero_add] at h

end

/-! ### The lanes of a part (R251, R262) -/

/-- Lanes `base` to `base + c - 1`, switched on as elements 0 to `c - 1` are. -/
def windowOn (base c : Nat) (on : Nat → Bool) (k : Nat) : Bool := decide (base ≤ k) && decide (k < base + c) && on (k - base)

section
variable {base c : Nat} {on : Nat → Bool}

theorem windowOn_inside {n : Nat} (h : n < c) : windowOn base c on (base + n) = on n := by
  simp [windowOn, h]

theorem windowOn_outside {k : Nat} (h : ∀ n < c, base + n ≠ k) : windowOn base c on k = false := by
  simp only [windowOn, Bool.and_eq_false_imp, Bool.and_eq_true, decide_eq_true_eq]
  rintro ⟨hle, hlt⟩
  exact absurd (Nat.add_sub_cancel' hle) (h (k - base) (by omega))

/-- Only the window's lanes count: below lane `k` lie the first `k - base` elements, `c` at most. -/
theorem onBelow_windowOn (k : Nat) : onBelow (windowOn base c on) k = onBelow on (min (k - base) c) := by
  induction k with
  | zero => simp [onBelow]
  | succ k ih =>
    rw [onBelow_succ, ih]
    by_cases h : base ≤ k ∧ k - base < c
    · obtain ⟨hle, hlt⟩ := h
      rw [show windowOn base c on k = on (k - base) by rw [← windowOn_inside (on := on) hlt, Nat.add_sub_cancel' hle],
        show min (k + 1 - base) c = k - base + 1 by omega, Nat.min_eq_left (Nat.le_of_lt hlt), onBelow_succ]
    · rw [windowOn_outside fun n hn hk => h (by omega), show min (k + 1 - base) c = min (k - base) c by omega]
      rfl

theorem roundedAt_windowOn_inside (old : Nat → Nat) (rm : Rnd) (out : BitVec 32 → Nat → Nat) (l : BitVec 32) {n : Nat} (h : n < c) :
    roundedAt (windowOn base c on) old rm out l (base + n) = if on n then out (seedAfter rm l (onBelow on (n + 1))) (base + n) else old (base + n) := by
  rw [roundedAt, windowOn_inside h, onBelow_windowOn, show min (base + n + 1 - base) c = n + 1 by omega]

theorem roundedAt_windowOn_outside (old : Nat → Nat) (rm : Rnd) (out : BitVec 32 → Nat → Nat) (l : BitVec 32) {k : Nat} (h : ∀ n < c, base + n ≠ k) :
    roundedAt (windowOn base c on) old rm out l k = old k := by
  rw [roundedAt, windowOn_outside h]
  rfl

end

/-! ### Conversions (R262) -/

theorem checkTag_ok {ok : Bool} (field : Nat) (t : Tag) (s : State) (h : ok = true) : checkTag field ok t s = .ok () s := by
  rw [h]
  rfl

theorem cvtTrap_ok {b : Bool} (why : Nat) (t : Tag) (s : State) (h : b = false) : cvtTrap why b t s = .ok () s := by
  rw [h]
  rfl

/-- How many elements a part of a conversion from `st` to `t` has. -/
def cvtCount (st t : Tag) : Nat := min (Tag.lanes st) (Tag.lanes t)
/-- How many parts there are. -/
def cvtRatio (st t : Tag) : Nat := max (Tag.lanes st) (Tag.lanes t) / cvtCount st t
/-- The first lane that part `p` writes. -/
def cvtTo (st t : Tag) (p : Nat) : Nat := if Tag.lanes st ≤ Tag.lanes t then p * Tag.lanes st else 0
/-- The first lane that it reads. -/
def cvtFrom (st t : Tag) (p : Nat) : Nat := if Tag.lanes st ≤ Tag.lanes t then 0 else p * Tag.lanes t

/-- A part that exists lies within vd. -/
theorem cvtTo_add_cvtCount_le {st t : Tag} {p : Nat} (h : p < cvtRatio st t) : cvtTo st t p + cvtCount st t ≤ Tag.lanes t := by
  unfold cvtRatio at h
  unfold cvtTo
  split
  next hle =>
    have hc : cvtCount st t = Tag.lanes st := Nat.min_eq_left hle
    rw [hc, Nat.max_eq_right hle] at h
    rw [hc, ← Nat.succ_mul]
    exact Nat.le_trans (Nat.mul_le_mul_right _ h) (Nat.div_mul_le_self ..)
  next => exact Nat.le_trans (Nat.le_of_eq (Nat.zero_add _)) (Nat.min_le_right ..)

section
variable (s : State) (d a : VReg) (t : Tag) (m : MReg) (rm : Rnd) (p : Nat) (sat : Bool)

/-- Lane `k` of vd as the element of va that it takes, rounded from the LFSR's state `l`. -/
def State.cvtElem (l : BitVec 32) (k : Nat) : Nat :=
  toElem t s.src.ctab sat rm l
    (elemVal (s.tag a) s.src.ctab (laneAt (s.v a) (Tag.width (s.tag a)) (cvtFrom (s.tag a) t p + (k - cvtTo (s.tag a) t p))))

/-- The elements of a part that the mask switches on. -/
def State.cvtOn : Nat → Bool := laneOn (s.m m) (cvtCount (s.tag a) t)

/-- Lane `k` of vd after a conversion. -/
def State.cvtLane : Nat → Nat :=
  roundedAt (windowOn (cvtTo (s.tag a) t p) (cvtCount (s.tag a) t) (s.cvtOn a t m)) (laneAt (s.v d) (Tag.width t)) rm (s.cvtElem a t rm p sat) s.src.lfsr

/-- What a conversion that passes its checks leaves: vd, and the LFSR one step further for each of the part's elements that is switched on. -/
def State.converted : State :=
  (s.setV d (mkLanes (Tag.width t) (s.cvtLane d a t m rm p sat)) t).setLfsr rm
    (seedAfter rm s.src.lfsr (onBelow (s.cvtOn a t m) (cvtCount (s.tag a) t)))

variable {s d a t m p}

theorem vecConvert_ok (hraw : s.tag a ≠ .raw) (hr : cvtRatio (s.tag a) t = 1 ∨ cvtRatio (s.tag a) t = 2 ∨ cvtRatio (s.tag a) t = 4)
    (hp : p < cvtRatio (s.tag a) t) (hd : m.val ≠ 0 → s.tag d = t) :
    vecConvert d a t m rm p sat s = .ok () (s.converted d a t m rm p sat) := by
  have hcount : onBelow (windowOn (cvtTo (s.tag a) t p) (cvtCount (s.tag a) t) (s.cvtOn a t m)) (Tag.lanes t) =
      onBelow (s.cvtOn a t m) (cvtCount (s.tag a) t) := by
    rw [onBelow_windowOn, Nat.min_eq_right (Nat.le_sub_of_add_le' (cvtTo_add_cvtCount_le hp))]
  unfold vecConvert
  rw [M.bind_ok (M.get_apply s), M.bind_ok (cvtTrap_ok 0 _ s (by simpa using hraw)),
    M.bind_ok (cvtTrap_ok 1 _ s (by simpa [cvtRatio, cvtCount, ← Decidable.or_iff_not_imp_left] using hr)),
    M.bind_ok (cvtTrap_ok 2 _ s (by simpa [cvtRatio, cvtCount] using hp)),
    M.bind_ok (checkTag_ok 0 _ s (by simpa [Decidable.imp_iff_not_or] using hd)), State.converted, ← hcount]
  exact congrArg (fun r => (set ((s.setV d (ofLanes (Tag.width t) r.1) t).setLfsr rm r.2) : M Unit) s)
    (laneLoop_rounded (windowOn (cvtTo (s.tag a) t p) _ (s.cvtOn a t m)) _ rm (s.cvtElem a t rm p sat) s.src.lfsr _)

theorem exec_conversion {i : Instr} {rm : Rnd} {sat : Bool} (h : conversion i = some (d, a, t, m, rm, p, sat)) :
    exec i s = run (vecConvert d a t m rm p sat) s := by
  cases i <;> simp only [conversion, Option.some.injEq, Prod.mk.injEq, reduceCtorEq] at h
  all_goals
    obtain ⟨rfl, rfl, rfl, rfl, rfl, rfl, rfl⟩ := h
    rfl

/-- An element of the part: converted where the mask switches it on, else as it was. -/
theorem State.laneAt_converted_inside (hp : p < cvtRatio (s.tag a) t) {n : Nat} (hn : n < cvtCount (s.tag a) t) :
    laneAt (mkLanes (Tag.width t) (s.cvtLane d a t m rm p sat)) (Tag.width t) (cvtTo (s.tag a) t p + n) =
      if s.cvtOn a t m n then
        toElem t s.src.ctab sat rm (seedAfter rm s.src.lfsr (onBelow (s.cvtOn a t m) (n + 1)))
          (elemVal (s.tag a) s.src.ctab (laneAt (s.v a) (Tag.width (s.tag a)) (cvtFrom (s.tag a) t p + n))) % 2 ^ Tag.width t
      else laneAt (s.v d) (Tag.width t) (cvtTo (s.tag a) t p + n) := by
  have hlane : cvtTo (s.tag a) t p + n < Tag.lanes t := Nat.lt_of_lt_of_le (Nat.add_lt_add_left hn _) (cvtTo_add_cvtCount_le hp)
  rw [laneAt_mkLanes _ hlane, State.cvtLane, roundedAt_windowOn_inside _ _ _ _ hn, State.cvtElem, Nat.add_sub_cancel_left]
  split
  · rfl
  · exact laneAt_mod ..

theorem State.laneAt_converted_outside {k : Nat} (hk : k < Tag.lanes t) (hout : ∀ n < cvtCount (s.tag a) t, cvtTo (s.tag a) t p + n ≠ k) :
    laneAt (mkLanes (Tag.width t) (s.cvtLane d a t m rm p sat)) (Tag.width t) k = laneAt (s.v d) (Tag.width t) k := by
  rw [laneAt_mkLanes _ hk, State.cvtLane, roundedAt_windowOn_outside _ _ _ _ hout, laneAt_mod]

end

/-- Settles O16: a conversion that passes its checks writes vd lane by lane; a lane of the part is converted or kept, one outside it is kept. -/
theorem vectorConvertResults : Obligations.VectorConvertResults := by
  intro i s d a t m rm p sat hi st ns nd c hraw hr hp hd on seed di si
  have hdi : ∀ n, di n = cvtTo st t p + n := fun n => by simp only [di, cvtTo, ns, nd]; split <;> simp
  have hsi : ∀ n, si n = cvtFrom st t p + n := fun n => by simp only [si, cvtFrom, ns, nd]; split <;> simp
  refine ⟨mkLanes (Tag.width t) (s.cvtLane d a t m rm p sat), completes_of_run (exec_conversion hi) (vecConvert_ok rm sat hraw hr hp hd),
    fun n hn => ?_, fun k hk hout => State.laneAt_converted_outside rm sat hk fun n hn => hdi n ▸ hout n hn⟩
  rw [hdi, hsi]
  exact State.laneAt_converted_inside rm sat hp hn

end Sys2Proof.Machine
end
